-- ==== Sys2Proof/Word.lean ====
section
/-!
DEFINITION. The plain values every other file uses: octets, the 64-bit word of the control unit, and the names of
the numbered units. Bit numbering follows R8 and byte order follows R9.
-/
namespace Sys2Proof

/-- One octet. -/
abbrev Byte := BitVec 8

/-- The 64-bit value of a control-unit register (R43). -/
abbrev Word := BitVec 64

/-- A control-unit register number g0–g31 (R43, R47). -/
abbrev Reg := Fin 32

/-- The 13-bit logical core ID of R28. -/
abbrev CoreId := BitVec 13

/-- The bit field `[lo + n - 1 : lo]` of a structure held as a little-endian number (R8, R9). -/
def fld (d lo n : Nat) : Nat := d / 2 ^ lo % 2 ^ n

/-- One bit of a structure held as a number. -/
def bit (d i : Nat) : Bool := d / 2 ^ i % 2 == 1

/-- The number that a list of octets holds, least significant first (R9). -/
def leNat : List Byte → Nat
  | [] => 0
  | b :: bs => b.toNat + 256 * leNat bs

/-- The first `n` octets of a number, least significant first (R9). -/
def leBytes : Nat → Nat → List Byte
  | 0, _ => []
  | n + 1, v => BitVec.ofNat 8 (v % 256) :: leBytes n (v / 256)

/-- The two's complement value of the low `n` bits of `v` (R7). -/
def sgn (n v : Nat) : Int :=
  if 2 * (v % 2 ^ n) < 2 ^ n then Int.ofNat (v % 2 ^ n) else Int.ofNat (v % 2 ^ n) - Int.ofNat (2 ^ n)

/-- The `n`-bit two's complement pattern of an integer, as a number. -/
def unsgn (n : Nat) (i : Int) : Nat := (i % Int.ofNat (2 ^ n)).toNat

/-- `a` divided by `b`, rounded up. -/
def ceilDiv (a b : Nat) : Nat := (a + b - 1) / b

/-- 1 for true, 0 for false. -/
def b2n (b : Bool) : Nat := if b then 1 else 0

end Sys2Proof
end

