-- ==== Sys2Proof/Config.lean ====
section
/-!
DEFINITION. What an implementation fixes and the manual does not: the free values. Each is an opaque constant, so no
proof can see what it is.
-/
namespace Sys2Proof.Config

/-- The free value number `k`: an amount, an address or a code that the manual leaves open (log entry 2).
The step applies it to the counter `freeCtr` of State and advances the counter. -/
opaque freeNat : Nat → Nat

/-- Byte `a` of the undefined content number `k` of a memory (log entry 2). -/
opaque freeByte : Nat → Nat → Byte

/-- Byte `i` of the digest of the vendor public key that slot `k` of the fuses holds (R520): fixed when the package is made. -/
opaque fuseDigest : Nat → Nat → Byte

/-- The key revocation bits in the fuses as made (R520). -/
opaque fuseRevoked : BitVec 4

/-- The number of anti-rollback fuses blown as made (R520). -/
opaque fuseSvn : Fin 65

/-- Byte `i` of the identity seed in the fuses (R520). -/
opaque fuseSeed : Nat → Byte

/-- The serial number in the fuses (R520). -/
opaque fuseSerial : BitVec 64

/-- Whether the package is of grade B (R3), by fuse. -/
opaque fuseGradeB : Bool

/-- The version of the Nolow ROM (R476). -/
opaque romVersion : Nat

/-- The hash of a flow, by which a router chooses among minimal directions and links (R373): any function of the flow. -/
opaque flowHash : List Nat → Nat

/-- The flits that carry so many octets over the mesh (R33): the manual does not say (log entry 57). -/
opaque meshFlits : Nat → Nat

/-- The voltage in mV that a cluster needs at a clock of so many sixteenths of its nominal one: its fused characterisation (R539). -/
opaque fusedMv : Nat → Nat → Nat

/-- The integrity check value of a frame under GCM-AES-XPN-256 (IEEE 802.1AE, R428; log entry 14): of the association's key and salt,
the direction (true for frames sent), the secure channel identifier, the packet number and the frame. -/
opaque macsecIcv : List Byte → Bool → Nat → Nat → List Byte → Nat

end Sys2Proof.Config
end

