-- ==== Sys2Proof/Syntax.lean ====
section
/-!
DEFINITION. The commands the block takes: one constructor of `Instr` for each row of the opcode table, with the row's
operands, and the structures those operands are made of.
-/
namespace Sys2Proof

/-- A unit's number within its kind, as the structures of R22–R28 number them. -/
abbrev Setting := Fin 24

/-- A global compute die number 3·s + d (R26). -/
abbrev Die := Fin 72

/-- A global cluster number 12·s + 4·d + c (R26). -/
abbrev Cluster := Fin 288

/-- A rim die (R23). -/
abbrev Rim := Fin 4

/-- A fabric port 0–15 (R347). -/
abbrev Port := Fin 16

/-- A fabric link 0–31. -/
abbrev Link := Fin 32

/-- A fabric axis: 0 X, 1 Y, 2 Z, 3 W (R363). -/
abbrev Axis := Fin 4

/-- A fabric packet: the header of R367, its payload without padding, and the CRC of its trailer (R369). `fields` carries
the descriptor of a request: the manual does not say where a packet holds the fields its target needs beside the header's,
such as NOTIFY_CTR or the length of a read (log entry 13). `rsv` holds the RSV bits 190 and 191, which only the CRC sees (R11). -/
structure Packet where
  destNode : BitVec 32
  destEp   : BitVec 16
  srcEp    : BitVec 16
  srcNode  : BitVec 32
  msgId    : BitVec 24
  op       : BitVec 8
  offset   : BitVec 40
  length   : BitVec 11
  cls      : BitVec 2
  epoch    : Bool
  channel  : BitVec 4
  last     : Bool
  fence    : Bool
  ackReq   : Bool
  mcast    : Bool
  jobTag   : BitVec 8
  operand  : BitVec 32
  dateline : BitVec 4
  detour   : BitVec 2
  detourAxis : BitVec 2
  detourDir  : Bool
  detourSkip : BitVec 2
  abort    : Bool
  skipDir  : Bool
  hopsLeft : BitVec 8
  payload  : List Byte
  crc      : BitVec 32
  fields   : BitVec 512
  rsv      : BitVec 2 := 0
deriving DecidableEq, Repr

/-- An XFL frame (R339), with its type, the DATA body bytes in use, and whether it overlaps an uncorrectable FEC
codeword (R338). The CRC is carried, so a frame can fail it; `rsv` is the RSV bit 35, which only the CRC sees (R11). -/
structure Frame where
  seq      : BitVec 16
  ack      : BitVec 16
  ftype    : BitVec 2
  nak      : Bool
  vc       : BitVec 4
  bodyLen  : BitVec 8
  creditVc : BitVec 4
  credits  : BitVec 12
  body     : List Byte
  crc      : BitVec 32
  rsv      : Bool := false
deriving DecidableEq, Repr

/-- A neighbour record (R352). -/
structure NbRecord where
  serial   : BitVec 64
  port     : BitVec 4
  axis     : BitVec 3
  dir      : Bool
  index    : BitVec 3
  minor    : BitVec 8
  major    : BitVec 8
  fwBuild  : BitVec 32
  node     : BitVec 32
  epoch    : BitVec 32
  sig      : BitVec 128
  adopt    : Bool
deriving DecidableEq, Repr

/-- The time fields of a TIME frame (R358). -/
structure TimeBody where
  hops   : BitVec 8
  locked : Bool
  txTime : BitVec 64
  echoTx : BitVec 64
  echoRx : BitVec 64
  root   : BitVec 64
deriving DecidableEq, Repr

/-- A MACsec SecTAG with its integrity check value (R428): the association, the secure channel identifier (the octets of a MAC address and of a
port identifier, the first octet lowest), the packet number, the ICV. -/
structure SecTag where
  an  : BitVec 2
  sci : BitVec 64
  pn  : BitVec 64
  icv : BitVec 128
deriving DecidableEq, Repr

/-- How a frame comes in at the host port (R427, R428): its bytes with the FCS, its 802.1Q tags, whether it is a pause frame or an IP
fragment, its UDP destination port, and its SecTAG. -/
structure Wire where
  size     : Nat := 64
  vlans    : Nat := 0
  pause    : Bool := false
  fragment : Bool := false
  port     : BitVec 16 := 47000
  sec      : Option SecTag := none
deriving DecidableEq, Repr

/-- A PTP message of a time transmitter (R429), its times in nanoseconds: a Sync, one-step or the first of two steps, a Follow_Up, or
the answer to a Delay_Req. -/
inductive PtpMessage where
  | sync (seq : BitVec 16) (twoStep : Bool) (origin : Nat) (correction : Int)
  | followUp (seq : BitVec 16) (origin : Nat) (correction : Int)
  | delayResp (seq : BitVec 16) (received : Nat) (correction : Int)
deriving DecidableEq, Repr

/-- How an address request arrives (R427, R452): the asker's MAC address, the frame, and whether it came on the Chain. -/
structure Asker where
  mac   : BitVec 48
  wire  : Wire := {}
  chain : Bool := false
deriving DecidableEq, Repr

/-- An echo request's payload and its frame (R427). -/
structure EchoFrame where
  payload : List Byte
  wire    : Wire := {}
deriving DecidableEq, Repr

/-- A PTP message and its frame (R429). -/
structure PtpFrame where
  message : PtpMessage
  wire    : Wire := {}
deriving DecidableEq, Repr

/-- What has come of the calibration before the quick check: the clusters whose rail failed (R557). -/
structure QuickOutcome where
  rails : List Cluster := []
deriving DecidableEq, Repr

/-- How the image of a boot attempt came to each of the four Nolow instances (R524): whole (`some true`), with an uncorrectable flash read
(`some false`), or so that no verdict is reached in 400 ms (none); and the settings whose VIN_SET is below 1.74 V once the firmware runs
(step 4 of R553, R557). -/
structure BootAttempt where
  seen : List (Option Bool)
  low  : List Setting := []
deriving DecidableEq, Repr

/-- How a firmware update ends (R527): whether the flash write succeeded; and, where the image then boots out of recovery, the settings whose
VIN_SET is below 1.74 V. -/
structure UpdateEnd where
  writeOk : Bool
  low     : List Setting := []
deriving DecidableEq, Repr

/-- The CHP header fields of an arriving packet (R430), with its source, its destination address (IPv6 where `v6` says so, the first octet
lowest), its CE mark (R437) and its frame; `rsv` are the RSV bits [47:43] and [255:192], which only the tag sees (R11, R433). -/
structure ChpHead where
  peer     : Nat
  v6       : Bool := false
  dest     : BitVec 128
  magic    : BitVec 16 := 0xC1D4
  type     : BitVec 8 := 0
  len      : BitVec 16 := 0
  rsv      : BitVec 5 × BitVec 64 := (0, 0)
  wire     : Wire := {}
  version  : BitVec 8
  session  : BitVec 8
  ackValid : Bool
  ecnEcho  : Bool
  retx     : Bool
  seq      : BitVec 32
  ack      : BitVec 32
  sack     : BitVec 64
  tag      : BitVec 128
  ce       : Bool
deriving DecidableEq, Repr

/-- The AHM header fields of an arriving packet (R460): its source address and port as one number, its UDP destination port, whether the
source is of fe80::/64, and its destination, the last octet of fe80::53:ff:fe00:nn, or none for ff02::1. -/
structure AhmHead where
  src     : Nat
  magic   : BitVec 16
  version : BitVec 8
  seq     : BitVec 16
  items   : BitVec 8
  serial  : BitVec 64
  type    : BitVec 8 := 1
  port    : BitVec 16 := 47100
  linkLocal : Bool := true
  dest    : Option (BitVec 8) := none
deriving DecidableEq, Repr

/-- One PMBus reading of a regulator (R542): millivolts, milliamperes, temperature in 0.01 °C, and whether STATUS_WORD
shows a fault. -/
structure RailReading where
  mv    : Nat
  ma    : Nat
  temp  : Int
  fault : Bool
deriving DecidableEq, Repr

/-- The commands (one row of the opcode table each, under the rule its docstring names). A CTU instruction carries the
logical core that issues it; a descriptor command names the core whose queue head the engine starts; an arrival
carries the packet, frame or request that arrives; a timer carries what it expires for. -/
inductive Instr where
  /-- ADD (R49): ALU FN 0x00: RD := RA + RB modulo 2^64. -/
  | add (core : CoreId) (rd : Reg) (ra : Reg) (rb : Reg)
  /-- SUB (R49): ALU FN 0x01: RD := RA − RB modulo 2^64. -/
  | sub (core : CoreId) (rd : Reg) (ra : Reg) (rb : Reg)
  /-- AND (R49): ALU FN 0x02: bitwise AND of RA and RB into RD. -/
  | aluAnd (core : CoreId) (rd : Reg) (ra : Reg) (rb : Reg)
  /-- OR (R49): ALU FN 0x03: bitwise OR of RA and RB into RD. -/
  | aluOr (core : CoreId) (rd : Reg) (ra : Reg) (rb : Reg)
  /-- XOR (R49): ALU FN 0x04: bitwise XOR of RA and RB into RD. -/
  | aluXor (core : CoreId) (rd : Reg) (ra : Reg) (rb : Reg)
  /-- SHL (R49): ALU FN 0x05: RA shifted left by RB[5:0] into RD. -/
  | shl (core : CoreId) (rd : Reg) (ra : Reg) (rb : Reg)
  /-- SHR (R49): ALU FN 0x06: RA shifted right logically by RB[5:0] into RD. -/
  | shr (core : CoreId) (rd : Reg) (ra : Reg) (rb : Reg)
  /-- SRA (R49): ALU FN 0x07: RA shifted right arithmetically by RB[5:0] into RD. -/
  | sra (core : CoreId) (rd : Reg) (ra : Reg) (rb : Reg)
  /-- ROTL (R49): ALU FN 0x08: RA rotated left by RB[5:0] into RD. -/
  | rotl (core : CoreId) (rd : Reg) (ra : Reg) (rb : Reg)
  /-- SLT (R49): ALU FN 0x09: RD := 1 if RA < RB signed, else 0. -/
  | slt (core : CoreId) (rd : Reg) (ra : Reg) (rb : Reg)
  /-- SLTU (R49): ALU FN 0x0A: RD := 1 if RA < RB unsigned, else 0. -/
  | sltu (core : CoreId) (rd : Reg) (ra : Reg) (rb : Reg)
  /-- MIN (R49): ALU FN 0x0B: signed minimum of RA and RB into RD. -/
  | aluMin (core : CoreId) (rd : Reg) (ra : Reg) (rb : Reg)
  /-- MAX (R49): ALU FN 0x0C: signed maximum of RA and RB into RD. -/
  | aluMax (core : CoreId) (rd : Reg) (ra : Reg) (rb : Reg)
  /-- MINU (R49): ALU FN 0x0D: unsigned minimum of RA and RB into RD. -/
  | minu (core : CoreId) (rd : Reg) (ra : Reg) (rb : Reg)
  /-- MAXU (R49): ALU FN 0x0E: unsigned maximum of RA and RB into RD. -/
  | maxu (core : CoreId) (rd : Reg) (ra : Reg) (rb : Reg)
  /-- MUL (R49): ALU FN 0x10: low 64 bits of RA × RB into RD. -/
  | mul (core : CoreId) (rd : Reg) (ra : Reg) (rb : Reg)
  /-- MULH (R49): ALU FN 0x11: high 64 bits of the signed product into RD. -/
  | mulh (core : CoreId) (rd : Reg) (ra : Reg) (rb : Reg)
  /-- MULHU (R49): ALU FN 0x12: high 64 bits of the unsigned product into RD. -/
  | mulhu (core : CoreId) (rd : Reg) (ra : Reg) (rb : Reg)
  /-- DIV (R50): ALU FN 0x14: signed division truncating toward zero, with the defined results for zero and overflow. -/
  | div (core : CoreId) (rd : Reg) (ra : Reg) (rb : Reg)
  /-- DIVU (R50): ALU FN 0x15: unsigned division, all ones on division by zero. -/
  | divu (core : CoreId) (rd : Reg) (ra : Reg) (rb : Reg)
  /-- REM (R50): ALU FN 0x16: signed remainder with the sign of the dividend. -/
  | rem (core : CoreId) (rd : Reg) (ra : Reg) (rb : Reg)
  /-- REMU (R50): ALU FN 0x17: unsigned remainder, the dividend on division by zero. -/
  | remu (core : CoreId) (rd : Reg) (ra : Reg) (rb : Reg)
  /-- CLZ (R50): ALU FN 0x18: count of leading zeros of RA, 64 for zero. -/
  | clz (core : CoreId) (rd : Reg) (ra : Reg) (rb : Reg)
  /-- CTZ (R50): ALU FN 0x19: count of trailing zeros of RA, 64 for zero. -/
  | ctz (core : CoreId) (rd : Reg) (ra : Reg) (rb : Reg)
  /-- POPC (R49): ALU FN 0x1A: population count of RA into RD. -/
  | popc (core : CoreId) (rd : Reg) (ra : Reg) (rb : Reg)
  /-- SEL (R49): ALU FN 0x1C: RD := RA if RD is non-zero, else RB. -/
  | aluSel (core : CoreId) (rd : Reg) (ra : Reg) (rb : Reg)
  /-- ADDI (R48): RD := RA + sext(IMM16). -/
  | addi (core : CoreId) (rd : Reg) (ra : Reg) (imm : BitVec 16)
  /-- ANDI (R48): RD := RA and zext(IMM16). -/
  | andi (core : CoreId) (rd : Reg) (ra : Reg) (imm : BitVec 16)
  /-- ORI (R48): RD := RA or zext(IMM16). -/
  | ori (core : CoreId) (rd : Reg) (ra : Reg) (imm : BitVec 16)
  /-- XORI (R48): RD := RA xor zext(IMM16). -/
  | xori (core : CoreId) (rd : Reg) (ra : Reg) (imm : BitVec 16)
  /-- SLTI (R48): RD := 1 if RA < sext(IMM16) signed, else 0. -/
  | slti (core : CoreId) (rd : Reg) (ra : Reg) (imm : BitVec 16)
  /-- SHI_SHL (R48): SHI with IMM16[7:6] = 0: shift left by the immediate amount. -/
  | shiShl (core : CoreId) (rd : Reg) (ra : Reg) (amount : BitVec 6)
  /-- SHI_SHR (R48): SHI with IMM16[7:6] = 1: logical shift right by the immediate amount. -/
  | shiShr (core : CoreId) (rd : Reg) (ra : Reg) (amount : BitVec 6)
  /-- SHI_SRA (R48): SHI with IMM16[7:6] = 2: arithmetic shift right by the immediate amount. -/
  | shiSra (core : CoreId) (rd : Reg) (ra : Reg) (amount : BitVec 6)
  /-- SHI_ROTL (R48): SHI with IMM16[7:6] = 3: rotate left by the immediate amount. -/
  | shiRotl (core : CoreId) (rd : Reg) (ra : Reg) (amount : BitVec 6)
  /-- LUI (R48): RD := sext(IMM16) shl 16. -/
  | lui (core : CoreId) (rd : Reg) (imm : BitVec 16)
  /-- INSQ (R48): Inserts IMM16 into quarter q of RD, leaving its other bits unchanged. -/
  | insq (core : CoreId) (rd : Reg) (quarter : BitVec 2) (imm : BitVec 16)
  /-- LB (R48): Loads one byte from the scratchpad, sign-extended, with the address checked under R51. -/
  | lb (core : CoreId) (rd : Reg) (ra : Reg) (imm : BitVec 16)
  /-- LBU (R48): Loads one byte from the scratchpad, zero-extended. -/
  | lbu (core : CoreId) (rd : Reg) (ra : Reg) (imm : BitVec 16)
  /-- LH (R48): Loads two bytes from the scratchpad, sign-extended. -/
  | lh (core : CoreId) (rd : Reg) (ra : Reg) (imm : BitVec 16)
  /-- LHU (R48): Loads two bytes from the scratchpad, zero-extended. -/
  | lhu (core : CoreId) (rd : Reg) (ra : Reg) (imm : BitVec 16)
  /-- LW (R48): Loads four bytes from the scratchpad, sign-extended. -/
  | lw (core : CoreId) (rd : Reg) (ra : Reg) (imm : BitVec 16)
  /-- LWU (R48): Loads four bytes from the scratchpad, zero-extended. -/
  | lwu (core : CoreId) (rd : Reg) (ra : Reg) (imm : BitVec 16)
  /-- LD (R48): Loads eight bytes from the scratchpad. -/
  | ld (core : CoreId) (rd : Reg) (ra : Reg) (imm : BitVec 16)
  /-- SB (R48): Stores the low byte of the register named by RD to the scratchpad. -/
  | sb (core : CoreId) (rd : Reg) (ra : Reg) (imm : BitVec 16)
  /-- SH (R48): Stores the low two bytes of a register to the scratchpad. -/
  | sh (core : CoreId) (rd : Reg) (ra : Reg) (imm : BitVec 16)
  /-- SW (R48): Stores the low four bytes of a register to the scratchpad. -/
  | sw (core : CoreId) (rd : Reg) (ra : Reg) (imm : BitVec 16)
  /-- SD (R48): Stores eight bytes of a register to the scratchpad. -/
  | sd (core : CoreId) (rd : Reg) (ra : Reg) (imm : BitVec 16)
  /-- BEQ (R48): Branches by 4·sext(OFF16) when RA equals RB. -/
  | beq (core : CoreId) (ra : Reg) (rb : Reg) (off : BitVec 16)
  /-- BNE (R48): Branches when RA differs from RB. -/
  | bne (core : CoreId) (ra : Reg) (rb : Reg) (off : BitVec 16)
  /-- BLT (R48): Branches when RA < RB signed. -/
  | blt (core : CoreId) (ra : Reg) (rb : Reg) (off : BitVec 16)
  /-- BGE (R48): Branches when RA ≥ RB signed. -/
  | bge (core : CoreId) (ra : Reg) (rb : Reg) (off : BitVec 16)
  /-- BLTU (R48): Branches when RA < RB unsigned. -/
  | bltu (core : CoreId) (ra : Reg) (rb : Reg) (off : BitVec 16)
  /-- BGEU (R48): Branches when RA ≥ RB unsigned. -/
  | bgeu (core : CoreId) (ra : Reg) (rb : Reg) (off : BitVec 16)
  /-- JAL (R48): Writes PC + 4 modulo 65,536 to RD and jumps by 4·sext(OFF21). -/
  | jal (core : CoreId) (rd : Reg) (off : BitVec 21)
  /-- JALR (R48): Writes PC + 4 to RD and jumps to (RA + sext(IMM16)) and 0xFFFC. -/
  | jalr (core : CoreId) (rd : Reg) (ra : Reg) (imm : BitVec 16)
  /-- PUSHD (R58): Copies a descriptor into an engine's queue, stalling while the queue is full. -/
  | pushd (core : CoreId) (engine : BitVec 2) (ra : Reg)
  /-- PUSHDN (R58): Copies a descriptor into an engine's queue without stalling, reporting in RD whether it was pushed. -/
  | pushdn (core : CoreId) (engine : BitVec 2) (rd : Reg) (ra : Reg)
  /-- SCWAIT (R64): Stalls the context until a sync counter has reached the target. -/
  | scwait (core : CoreId) (ra : Reg) (rb : Reg)
  /-- SCTEST (R64): Writes 1 to RD if a sync counter has reached the target, else 0. -/
  | sctest (core : CoreId) (rd : Reg) (ra : Reg) (rb : Reg)
  /-- SCREAD (R52): Reads a sync counter into RD. -/
  | scread (core : CoreId) (rd : Reg) (ra : Reg)
  /-- SCSET (R65): Sets a sync counter, applied before the clock's increments. -/
  | scset (core : CoreId) (ra : Reg) (rb : Reg)
  /-- SCADD (R65): Adds RB to a sync counter modulo 2^32. -/
  | scadd (core : CoreId) (ra : Reg) (rb : Reg)
  /-- QCFG (R83): Configures or disables a channel or event queue from a 16-byte block, sending a credit grant in credited mode. -/
  | qcfg (core : CoreId) (ra : Reg) (rb : Reg)
  /-- QWAIT (R52): Stalls until a queue holds an entry and returns the head entry's address. -/
  | qwait (core : CoreId) (rd : Reg) (ra : Reg)
  /-- QPEEK (R52): Returns the head entry's address, or all ones if the queue is empty. -/
  | qpeek (core : CoreId) (rd : Reg) (ra : Reg)
  /-- QREL (R84): Releases entries from the head of a queue and sends a credit return in credited mode. -/
  | qrel (core : CoreId) (ra : Reg) (rb : Reg)
  /-- QSTAT (R53): Returns the queue status word. -/
  | qstat (core : CoreId) (rd : Reg) (ra : Reg)
  /-- HALT (R45): Halts the issuing context at the HALT instruction. -/
  | halt (core : CoreId)
  /-- YIELD (R246): Marks a yield point; in the companion it returns the CTU to the primary when the primary's queue holds an entry. -/
  | ctuYield (core : CoreId)
  /-- IFILL (R46): Starts a copy from the scratchpad into the instruction buffer, stalling the context. -/
  | ifill (core : CoreId) (rd : Reg) (ra : Reg) (rb : Reg)
  /-- IFILL_COMPLETE (R46): The instruction buffer copy ends and the stalled context resumes with every later fetch seeing the new code. -/
  | ifillComplete (core : CoreId)
  /-- DRD (R54): Sends a dictionary read to the lead service controller and stalls the context. -/
  | drd (core : CoreId) (rd : Reg) (ra : Reg)
  /-- DRD_RESULT (R54): The dictionary value returns, is zero- or sign-extended into RD, and the context resumes. -/
  | drdResult (core : CoreId)
  /-- FTIME (R52): Reads fabric time in ns into RD. -/
  | ftime (core : CoreId) (rd : Reg)
  /-- CTXID (R52): Returns 0 in the primary context and 1 in the companion. -/
  | ctxid (core : CoreId) (rd : Reg)
  /-- COREID (R52): Returns the own node address and logical core ID. -/
  | coreid (core : CoreId) (rd : Reg)
  /-- SWAPPT (R506): Declares a swap point, possibly swapping the logical core to a spare and starting a Hallmark test. -/
  | swappt (core : CoreId) (rd : Reg) (ra : Reg)
  /-- CYCLES (R52): Returns the core's arithmetic clock count since program load. -/
  | cycles (core : CoreId) (rd : Reg)
  /-- BACKFILL_SWITCH (R245): The primary's pipeline QWAIT reaches BACKFILL_THRESHOLD and the CTU switches to the companion. -/
  | backfillSwitch (core : CoreId)
  /-- MXE_NOP (R97): MXE descriptor that completes at once after its BANK check. -/
  | mxeNop (core : CoreId)
  /-- MMA (R108): The MXE starts a contraction into the block's banks, then optionally writes output. -/
  | mma (core : CoreId)
  /-- COMBINE (R110): The MXE adds or loads a raw tile into the block's banks, then optionally writes output. -/
  | mxeCombine (core : CoreId)
  /-- DRAIN (R111): The MXE writes output from the block's banks without contracting. -/
  | mxeDrain (core : CoreId)
  /-- CLEAR (R97): The MXE makes the block's banks empty and open. -/
  | mxeClear (core : CoreId)
  /-- MXE_DESC_COMPLETE (R125): An MXE descriptor completes: output visible, scale contexts updated, DONE_CTR incremented, DESC_DONE posted. -/
  | mxeDescComplete (core : CoreId)
  /-- DEFER_TAKE (R239): The MXE takes the next deferral-ring entry when its queue is empty and the entry's gate holds. -/
  | deferTake (core : CoreId)
  /-- FGE_NOP (R189): FGE descriptor that completes at once. -/
  | fgeNop (core : CoreId)
  /-- STREAM (R187): The FGE runs the stage chain over COUNT elements and writes element-wise or reduced outputs. -/
  | fgeStream (core : CoreId)
  /-- COMPRESS (R215): The FGE packs selected elements into lists and writes their counts. -/
  | fgeCompress (core : CoreId)
  /-- EXPAND (R216): The FGE scatters list elements back to their selected positions. -/
  | fgeExpand (core : CoreId)
  /-- CTX_LOAD (R151): Loads a scale context from a 128-byte record. -/
  | ctxLoad (core : CoreId)
  /-- CTX_STORE (R218): Stores a scale context into a 128-byte record. -/
  | ctxStore (core : CoreId)
  /-- CTX_ROLL (R153): Rolls a scale context's history and recomputes EXP when AUTO is set. -/
  | ctxRoll (core : CoreId)
  /-- SET_STEP (R218): Sets the core's rounding step from IMM0. -/
  | setStep (core : CoreId)
  /-- FGE_DESC_COMPLETE (R221): An FGE descriptor completes: output visible, contexts updated, DONE_CTR incremented, DESC_DONE posted. -/
  | fgeDescComplete (core : CoreId)
  /-- MSE_NOP (R74): MSE descriptor that completes at once. -/
  | mseNop (core : CoreId)
  /-- PUT (R76): The MSE starts a reliable write of LENGTH bytes from the scratchpad to the target. -/
  | msePut (core : CoreId)
  /-- GET (R76): The MSE starts a reliable read of LENGTH bytes from the target into the scratchpad. -/
  | mseGet (core : CoreId)
  /-- SEND (R86): The MSE starts a message to the target's channel queue, waiting for a credit in credited mode. -/
  | mseSend (core : CoreId)
  /-- COPY (R74): The MSE starts a copy from a second address on this package to the target. -/
  | mseCopy (core : CoreId)
  /-- SIGNAL (R74): The MSE starts an increment of a counter at the target core. -/
  | mseSignal (core : CoreId)
  /-- FENCE (R320): The MSE starts a flush that completes when earlier descriptors and their HBM writes are done. -/
  | mseFence (core : CoreId)
  /-- MSE_DESC_COMPLETE (R75): An MSE descriptor completing locally writes its completion record, increments DONE_CTR and posts DESC_DONE. -/
  | mseDescComplete (core : CoreId) (no : Nat)
  /-- BUSHEL_OPEN (R225): Sets a lane's base and limit, empties it and opens it. -/
  | bushelOpen (core : CoreId)
  /-- BUSHEL_PUSH (R229): Writes one frame at the top of a lane, or overflows and stops the MSE. -/
  | bushelPush (core : CoreId)
  /-- BUSHEL_DRAIN (R231): Starts reading frames of a lane from the top down into a prefetch window. -/
  | bushelDrain (core : CoreId)
  /-- BUSHEL_FRAME_READ (R232): The drain reads one frame once the window has room, checks its header and increments ARRIVE_CTR. -/
  | bushelFrameRead (core : CoreId) (no : Nat)
  /-- BUSHEL_QUERY (R235): Writes the lane record to the scratchpad. -/
  | bushelQuery (core : CoreId)
  /-- GATHER (R285): The MSE starts a fetch of part of a shard from its owner's memory controller. -/
  | mseGather (core : CoreId)
  /-- BUCKET_ADD (R267): Adds or writes Grain values into a local accumulator and folds tile records into a tally. -/
  | bucketAdd (core : CoreId)
  /-- BUCKET_STEP (R270): Opens the step's bucket sequence, abandoning an unfinished open step when INIT is 1. -/
  | bucketStep (core : CoreId)
  /-- BUCKET_STEP_RELEASE (R270): A BUCKET_STEP held while the previous step was unfinished opens the new step. -/
  | bucketStepRelease (core : CoreId) (no : Nat)
  /-- BUCKET_EXCHANGE (R272): Starts a reduce-scatter of the local accumulator to the slice owners. -/
  | bucketExchange (core : CoreId)
  /-- BUCKET_WINDOW_ADMIT (R270): A held exchange is admitted once its bucket falls within 256 of the oldest unfinished bucket. -/
  | bucketWindowAdmit (core : CoreId) (no : Nat)
  /-- BUCKET_AGREE (R278): Starts the all-reduce of bucket status, maximum and optionally the exact norm. -/
  | bucketAgree (core : CoreId)
  /-- GROUP_FORM (R412): Runs the group handshake on an axis by a MAX all-reduce of the job signature. -/
  | groupForm (core : CoreId)
  /-- ALL_REDUCE (R410): Starts a collective giving every member the combination of all contributions. -/
  | collAllReduce (core : CoreId)
  /-- REDUCE_SCATTER (R410): Starts a collective giving rank r slice r of the combination. -/
  | collReduceScatter (core : CoreId)
  /-- ALL_GATHER (R410): Starts a collective giving every member every contribution. -/
  | collAllGather (core : CoreId)
  /-- BROADCAST (R410): Starts a collective giving every member the root's contribution. -/
  | collBroadcast (core : CoreId)
  /-- BARRIER (R405): Starts a collective that completes once every member has issued it. -/
  | collBarrier (core : CoreId)
  /-- COLLECTIVE_LAUNCH (R424): Fabric time reaches LAUNCH_TIME and a held collective begins sending. -/
  | collectiveLaunch (context : Nat)
  /-- EXPERT_DISPATCH (R252): Sends token rows, records, counts and signals to the expert homes and writes the sent record. -/
  | expertDispatch (core : CoreId)
  /-- EXPERT_RETURN (R255): Sends expert output rows back to their origins with notifies. -/
  | expertReturn (core : CoreId)
  /-- EXPERT_COMBINE (R256): Forms the gate-weighted sum of returned rows in fixed order. -/
  | expertCombine (core : CoreId)
  /-- PUT_ARRIVAL (R79): A PUT packet arrives at its target, is checked and placed, and the completion is returned after the last packet. -/
  | putArrival (via : Option Port) (packet : Packet)
  /-- GET_ARRIVAL (R76): A GET request arrives at its target, which returns READ_DATA or an error completion. -/
  | getArrival (via : Option Port) (packet : Packet)
  /-- SEND_ARRIVAL (R86): A SEND packet arrives at a core and claims a slot, or is refused. -/
  | sendArrival (via : Option Port) (packet : Packet)
  /-- COPY_ARRIVAL (R76): A COPY packet arrives at its target and is written there. -/
  | copyArrival (via : Option Port) (packet : Packet)
  /-- SIGNAL_ARRIVAL (R76): A SIGNAL arrives and increments the target core's counter. -/
  | signalArrival (via : Option Port) (packet : Packet)
  /-- GATHER_ARRIVAL (R286): A GATHER reaches the owner's memory controller, which checks the shard header and returns data and report. -/
  | gatherArrival (via : Option Port) (packet : Packet)
  /-- READ_DATA_ARRIVAL (R378): Returned read data lands at the issuing core in order, or is discarded and the request resent. -/
  | readDataArrival (via : Option Port) (packet : Packet)
  /-- COMPLETION_ARRIVAL (R381): A COMPLETION arrives at the source and completes the message or collects a multicast leaf. -/
  | completionArrival (via : Option Port) (packet : Packet)
  /-- BUSY_ARRIVAL (R380): A BUSY arrives and the source schedules a resend after REORDER_BACKOFF. -/
  | busyArrival (via : Option Port) (packet : Packet)
  /-- RETRY_ARRIVAL (R377): A RETRY arrives and the source schedules a whole resend after REORDER_BACKOFF. -/
  | retryArrival (via : Option Port) (packet : Packet)
  /-- CREDIT_GRANT_ARRIVAL (R87): A credit grant replaces the sender's credit entry for its channel. -/
  | creditGrantArrival (core : CoreId) (channel : BitVec 4) (node : BitVec 32) (ep : BitVec 16) (credits : Nat) (payload : Nat)
  /-- CREDIT_RETURN_ARRIVAL (R87): A credit return adds to the matching credit entry, releasing stalled credited SENDs. -/
  | creditReturnArrival (core : CoreId) (channel : BitVec 4) (node : BitVec 32) (ep : BitVec 16) (credits : Nat)
  /-- PACKET_FORWARD (R386): A router routes a transit packet by its epoch's tables, detour state or multicast arcs. -/
  | packetForward (via : Option Port) (packet : Packet)
  /-- REORDER_BACKOFF_EXPIRY (R377): REORDER_BACKOFF passes and the source resends the held message whole. -/
  | reorderBackoffExpiry (msgId : BitVec 24)
  /-- REORDER_CONTEXT_EXPIRY (R380): A reorder context idle for DUP_HOLD is released incomplete. -/
  | reorderContextExpiry (node : BitVec 32) (msgId : BitVec 24)
  /-- DUP_RECORD_EXPIRY (R381): A duplicate record older than DUP_HOLD becomes free. -/
  | dupRecordExpiry (node : BitVec 32) (msgId : BitVec 24)
  /-- MSG_TIMEOUT_RESEND (R382): MSG_TIMEOUT passes without completion and the source resends the message. -/
  | msgTimeoutResend (msgId : BitVec 24)
  /-- MSG_TIMEOUT_FINAL (R382): After MSG_RETRIES resends the message completes with TIMEOUT. -/
  | msgTimeoutFinal (msgId : BitVec 24)
  /-- DETOUR_STALL_EXPIRY (R393): A packet waiting DETOUR_STALL_LIMIT on a detour channel is discarded. -/
  | detourStallExpiry (index : Nat)
  /-- MESH_LINK_OUT (R35): A mesh link failing 64 consecutive retries is taken out of use and its routes replaced. -/
  | meshLinkOut (setting : Setting) (neighbour : Nat)
  /-- OPENER_ARRIVAL (R416): A collective OPENER is parked, accepted or rejected against the local context. -/
  | openerArrival (via : Option Port) (packet : Packet)
  /-- COLLECTIVE_DATA_ARRIVAL (R417): A collective DATA packet is combined with the local operand and forwarded or landed. -/
  | collectiveDataArrival (via : Option Port) (packet : Packet)
  /-- ABORT_ARRIVAL (R423): An ABORT fails the collective, which aborts its partners and completes COLLECTIVE_FAILED. -/
  | abortArrival (via : Option Port) (packet : Packet)
  /-- COLL_PARK_EXPIRY (R416): A stream parked for COLL_TIMEOUT is discarded. -/
  | collParkExpiry (node : BitVec 32) (context : Nat) (key : BitVec 16)
  /-- COLL_PROGRESS_TIMEOUT (R423): COLL_TIMEOUT passes without progress and the collective fails. -/
  | collProgressTimeout (context : Nat)
  /-- UPDATE (R296): An UPDATE command PUT arrives at a Troy unit and is queued or refused. -/
  | troyUpdate (packet : Packet)
  /-- COMMIT (R291): A COMMIT command takes effect at once: completes, releases, arms, holds or is refused. -/
  | troyCommit (packet : Packet)
  /-- LEDGER_SET (R300): A LEDGER_SET command arrives and is queued to write and flush ledger entries. -/
  | ledgerSet (packet : Packet)
  /-- TROY_PROGRAM_PUT (R293): A PUT writes a microprogram slot, held while a running UPDATE uses it. -/
  | troyProgramPut (packet : Packet)
  /-- TROY_CONST_PUT (R293): A PUT writes a constant table, held while a running UPDATE uses it. -/
  | troyConstPut (packet : Packet)
  /-- TROY_COMMAND_START (R304): The head Troy command starts, an UPDATE only once its step has been released. -/
  | troyCommandStart (setting : Setting)
  /-- TROY_COMMAND_COMPLETE (R297): A Troy command writes its completion record and signals NOTIFY_CTR. -/
  | troyCommandComplete (setting : Setting)
  /-- COMMIT_BARRIER_RELEASE (R290): An armed barrier releases once the step's agreement is complete and reaches all Troy units. -/
  | commitBarrierRelease
  /-- WCB_TIMEOUT_EXPIRY (R318): A write-combining entry older than WCB_TIMEOUT is written by read-modify-write. -/
  | wcbTimeoutExpiry (setting : Setting) (line : Nat)
  /-- SCRUB_READ (R328): The scrubber reads a line and writes back a corrected one. -/
  | scrubRead (setting : Setting) (line : Nat)
  /-- XFL_DATA_FRAME (R343): A DATA frame is accepted, discarded as duplicate or triggers a NAK, and its ACK and credits processed. -/
  | xflDataFrame (link : Link) (frame : Frame)
  /-- XFL_IDLE_FRAME (R342): An IDLE frame delivers its ACK, NAK and credits. -/
  | xflIdleFrame (link : Link) (frame : Frame)
  /-- NEIGHBOUR_FRAME (R353): A neighbour record is received and checked, moving the link to ACTIVE, QUARANTINE or VERSION_HOLD. -/
  | neighbourFrame (link : Link) (frame : Frame) (record : NbRecord)
  /-- STATE_FRAME (R351): A STATE frame reports the neighbour link's state. -/
  | stateFrame (link : Link) (frame : Frame) (state : BitVec 8) (port : BitVec 4)
  /-- TIME_FRAME (R359): A TIME frame gives delay and offset, and the follower chooses its parent and steers its time. -/
  | timeFrame (link : Link) (frame : Frame) (time : TimeBody)
  /-- XFL_ACK_TIMEOUT (R344): The oldest replay frame is unacknowledged for XFL_ACK_TIMEOUT and the sender retries. -/
  | xflAckTimeout (link : Link)
  /-- LINK_DOWN (R346): A link reaches its retry limit or down timeout, discards its state and enters DOWN. -/
  | linkDown (link : Link)
  /-- LINK_RETRAIN_HOLDOFF_EXPIRY (R350): A DOWN link enters PHY_TRAIN after LINK_RETRAIN_HOLDOFF. -/
  | linkRetrainHoldoffExpiry (link : Link)
  /-- PHY_TRAIN_DONE (R350): PMD training, FEC lock and alignment complete and the link enters XFL_SYNC. -/
  | phyTrainDone (link : Link)
  /-- XFL_SYNC_DONE (R348): Sequence state, credits and skew are settled and the link enters NEIGHBOUR. -/
  | xflSyncDone (link : Link) (skew : Nat)
  /-- LINK_TRAIN_TIME_LIMIT (R350): A training state's time limit expires and the link goes DOWN. -/
  | linkTrainTimeLimit (link : Link)
  /-- STATE_FRAME_TIMER (R351): Every 1 ms a link sends a STATE frame. -/
  | stateFrameTimer (link : Link)
  /-- NEIGHBOUR_FRAME_TIMER (R351): Every 1 ms a link in NEIGHBOUR, QUARANTINE or VERSION_HOLD sends its record. -/
  | neighbourFrameTimer (link : Link)
  /-- TIME_SYNC_TIMER (R357): Every TIME_SYNC_INTERVAL the package sends TIME frames on each active port. -/
  | timeSyncTimer
  /-- FEC_SECOND (R338): Each completed second updates FEC_WORST_CW. -/
  | fecSecond (link : Link) (worst : BitVec 8) (corrected : Nat) (uncorrectable : Nat)
  /-- SEAL (R390): TABLE_CMD 1 makes the IDLE version SEALED. -/
  | tableSeal
  /-- FLIP (R390): TABLE_CMD 2 makes the SEALED version ACTIVE and the old one DRAINING in all rim dies. -/
  | tableFlip
  /-- RETIRE (R390): TABLE_CMD 3 returns a drained version to IDLE. -/
  | tableRetire
  /-- UNSEAL (R390): TABLE_CMD 4 returns an unused SEALED version to IDLE. -/
  | tableUnseal
  /-- HELLO (R432): A CHP HELLO opens a session and is answered by WELCOME or refused. -/
  | chpHello (head : ChpHead) (payload : List Byte)
  /-- FINISH (R432): A CHP FINISH completes the handshake after the host key check. -/
  | chpFinish (head : ChpHead) (payload : List Byte)
  /-- CHP_FINISH_TIMEOUT (R432): A session without FINISH 100 ms after WELCOME is released. -/
  | chpFinishTimeout (session : Nat)
  /-- CLOSE (R446): A CHP CLOSE loses the session. -/
  | chpClose (head : ChpHead)
  /-- ACK_ONLY (R435): An ACK_ONLY delivers acknowledgements, triggering fast retransmission when SACK shows three later packets. -/
  | ackOnly (head : ChpHead)
  /-- CHP_DATA (R440): A CHP DATA packet places its data for a WRITE or RING_PUT. -/
  | chpData (head : ChpHead) (payload : List Byte)
  /-- CHP_WRITE (R439): A WRITE request starts writing DEV_ADDR from its DATA packets. -/
  | chpWrite (head : ChpHead) (record : BitVec 512)
  /-- CHP_READ (R439): A READ request returns data as DATA packets and a REPLY. -/
  | chpRead (head : ChpHead) (record : BitVec 512)
  /-- DICT_READ (R439): A CHP request reads one dictionary entry. -/
  | dictRead (head : ChpHead) (record : BitVec 512)
  /-- DICT_WRITE (R439): A CHP request writes one dictionary entry. -/
  | dictWrite (head : ChpHead) (record : BitVec 512)
  /-- LOAD_PRIMARY (R443): A LOAD with CONTEXT = 0 resets the target cores and starts the primary at ENTRY. -/
  | loadPrimary (head : ChpHead) (record : BitVec 512)
  /-- LOAD_COMPANION (R443): A LOAD with CONTEXT = 1 loads the companion context of each target. -/
  | loadCompanion (head : ChpHead) (record : BitVec 512)
  /-- CMDQ_BIND (R444): Binds a command queue to the session, a core and a channel. -/
  | cmdqBind (head : ChpHead) (record : BitVec 512)
  /-- CMDQ_UNBIND (R444): A CMDQ_BIND with UNBIND = 1 releases a command queue. -/
  | cmdqUnbind (head : ChpHead) (record : BitVec 512)
  /-- CMD_PUSH (R444): Sends the command payload as one ordered SEND to the bound core's channel. -/
  | cmdPush (head : ChpHead) (record : BitVec 512) (payload : List Byte)
  /-- RING_CONFIG_ENABLE (R445): Enables an input ring and zeroes PRODUCED and CONSUMED. -/
  | ringConfigEnable (head : ChpHead) (record : BitVec 512)
  /-- RING_CONFIG_DISABLE (R445): Disables an input ring. -/
  | ringConfigDisable (head : ChpHead) (record : BitVec 512)
  /-- RING_PUT (R445): Claims the next ring entry or replies RING_FULL. -/
  | ringPut (head : ChpHead) (record : BitVec 512)
  /-- CHP_RESET_WARM (R447): A RESET request with KIND 0 requests a package warm reset after its reply. -/
  | chpResetWarm (head : ChpHead) (record : BitVec 512)
  /-- CHP_RESET_COLD (R447): A RESET request with KIND 1 requests cold initialisation after its reply. -/
  | chpResetCold (head : ChpHead) (record : BitVec 512)
  /-- RECORD_STOP (R449): RECORD ACTION 0 stops recording. -/
  | recordStop (head : ChpHead) (record : BitVec 512)
  /-- RECORD_START_WRAPPING (R449): RECORD ACTION 1 starts a wrapping recording. -/
  | recordStartWrapping (head : ChpHead) (record : BitVec 512)
  /-- RECORD_START_STOP_FULL (R449): RECORD ACTION 2 starts a recording that stops when full. -/
  | recordStartStopFull (head : ChpHead) (record : BitVec 512)
  /-- RECORD_CLEAR (R449): RECORD ACTION 3 clears the recording ring. -/
  | recordClear (head : ChpHead) (record : BitVec 512)
  /-- REPLAY (R450): Starts re-injecting recorded packets in RECORD_NO order. -/
  | chpReplay (head : ChpHead) (record : BitVec 512)
  /-- REPLAY_STOP (R450): A REPLAY with STOP = 1 ends a replay in progress. -/
  | replayStop (head : ChpHead) (record : BitVec 512)
  /-- REPLAY_RECORD (R450): The next record is re-injected, at its paced time when PACED = 1. -/
  | replayRecord
  /-- CHP_ACK_DELAY_EXPIRY (R435): CHP_ACK_DELAY passes unacknowledged and an ACK_ONLY is sent. -/
  | chpAckDelayExpiry (session : Nat)
  /-- CHP_RTO_EXPIRY (R435): CHP_RTO passes and unacknowledged packets not in SACK are resent. -/
  | chpRtoExpiry (session : Nat)
  /-- CHP_RETX_LIMIT (R446): A packet sent CHP_RETX_LIMIT + 1 times without acknowledgement loses the session. -/
  | chpRetxLimit (session : Nat)
  /-- CHP_IDLE_TIMEOUT (R446): No valid host packet for CHP_IDLE_TIMEOUT loses the session. -/
  | chpIdleTimeout (session : Nat)
  /-- CHP_RATE_RAISE (R437): Each 100 µs without an ECN echo raises the session send rate by 2 Gb/s. -/
  | chpRateRaise (session : Nat)
  /-- ARP_REQUEST (R427): An ARP request to the port's address is answered. -/
  | arpRequest (target : BitVec 32) (sender : BitVec 32) (asker : Asker)
  /-- NEIGHBOUR_SOLICITATION (R427): An IPv6 Neighbour Discovery request is answered. -/
  | neighbourSolicitation (target : BitVec 128) (sender : BitVec 128) (asker : Asker)
  /-- ICMP_ECHO (R427): An ICMP or ICMPv6 echo request is answered. -/
  | icmpEcho (v6 : Bool) (target : BitVec 128) (sender : BitVec 128) (frame : EchoFrame)
  /-- PTP_MESSAGE (R429): A PTP message steers a disciplined root's fabric time. -/
  | ptpMessage (domain : BitVec 8) (frame : PtpFrame)
  /-- PTP_HOLDOVER (R429): No PTP time transmitter for 3 s puts the root in HOLDOVER. -/
  | ptpHoldover
  /-- PLCA_BEACON (R452): A PLCA beacon starts a cycle in which the package may transmit in its opportunity. -/
  | plcaBeacon (claimCollision : Bool) (assignedHeard : Bool)
  /-- CHAIN_TX_HOLD_TIMEOUT (R454): A frame held 100 ms without a beacon is discarded. -/
  | chainTxHoldTimeout
  /-- CLAIM_BACKOFF_EXPIRY (R456): The claim backoff ends and a CLAIM is sent in opportunity 31. -/
  | claimBackoffExpiry (collision : Bool)
  /-- CLAIM_TIMEOUT (R456): No ASSIGN within 100 ms returns the package to backoff. -/
  | claimTimeout
  /-- ASSIGN (R457): An ASSIGN naming the package's serial starts the two-cycle watch of the ID. -/
  | chainAssign (head : AhmHead) (id : BitVec 8)
  /-- ASSIGN_WATCH_END (R457): After two PLCA cycles the package takes the ID or answers DUPLICATE and claims again. -/
  | assignWatchEnd
  /-- STRAPPED_ID_CONFLICT (R458): Collisions in 16 consecutive cycles make the package drop its strapped ID and claim. -/
  | strappedIdConflict
  /-- AHM_READ (R464): An AHM READ executes its read items in order and answers. -/
  | ahmRead (head : AhmHead) (items : List Byte)
  /-- AHM_WRITE (R464): An AHM WRITE executes its write items in order and answers. -/
  | ahmWrite (head : AhmHead) (items : List Byte)
  /-- ENUMERATE (R464): Answers with up to 21 entry descriptors from the named entry. -/
  | enumerate (head : AhmHead) (items : List Byte)
  /-- ENTRY_WRITE (R469): A write to a dictionary entry with no behaviour of its own is checked and stored. -/
  | entryWrite (index : BitVec 16) (sub : BitVec 8) (value : List Byte)
  /-- DICT_STAGING_TIMEOUT (R468): 100 ms without a further staged write empties the staging buffer. -/
  | dictStagingTimeout (index : BitVec 16) (sub : BitVec 8)
  /-- DICT_FLASH_STORE (R473): A written flash entry is stored in SPI flash within 500 ms. -/
  | dictFlashStore (index : BitVec 16) (sub : BitVec 8)
  /-- JOB_START (R470): JOB_CMD 1 starts a job, applying the profile and redundancy to the cluster map. -/
  | jobStart
  /-- JOB_STOP (R470): JOB_CMD 2 ends the job. -/
  | jobStop
  /-- DICT_FLASH_RESTORE (R473): Schedules every flash entry to return to its default at the next cold initialisation. -/
  | dictFlashRestore (value : BitVec 8)
  /-- PORT_ENABLE (R350): Writing 0 sends every link of the port to DISABLED; 1 lets them train. -/
  | portEnable (port : Port) (value : BitVec 8)
  /-- PORT_LINK_MASK (R573): Sets a port's links when idle and re-evaluates axis-state placement. -/
  | portLinkMask (port : Port) (value : BitVec 32)
  /-- PORT_AXIS (R573): Sets a port's axis label when idle and re-evaluates axis-state placement. -/
  | portAxis (port : Port) (value : BitVec 8)
  /-- PORT_EXPECT_SERIAL (R354): Sets the expected neighbour serial and re-evaluates the port at once. -/
  | portExpectSerial (port : Port) (value : BitVec 64)
  /-- PORT_EXPECT_PORT (R354): Sets the expected neighbour port and re-evaluates the port at once. -/
  | portExpectPort (port : Port) (value : BitVec 8)
  /-- TOPO_MODE (R354): Sets check or adopt mode and re-evaluates every port at once. -/
  | topoMode (value : BitVec 8)
  /-- MACSEC_SAK (R428): Installs a MACsec secure association key and salt. -/
  | macsecSak (value : BitVec 360)
  /-- FAILED_MASK (R515): A write clears failed-core bits at once. -/
  | failedMask (cluster : Cluster) (value : BitVec 32)
  /-- LOCKET_WINDOW_DATA (R494): A read returns 64 Locket bytes and advances LOCKET_WINDOW_OFFSET. -/
  | locketWindowData
  /-- HALLMARK_INSTALL (R502): Starts verifying and installing a Hallmark bundle from HBM. -/
  | hallmarkInstall (value : BitVec 64)
  /-- HALLMARK_INSTALL_DONE (R502): An install finishes as installed or refused. -/
  | hallmarkInstallDone
  /-- HALLMARK_REMOVE (R502): Frees the slot of an installed bundle. -/
  | hallmarkRemove (value : BitVec 32)
  /-- HALLMARK_PIECE_TIMEOUT (R504): A piece that does not halt within TIME_MS fails the test. -/
  | hallmarkPieceTimeout (cluster : Cluster)
  /-- SIGNET_NONCE (R530): Forms and signs a new Signet report. -/
  | signetNonce (value : BitVec 256)
  /-- ROLLBACK_COMMIT (R526): Blows anti-rollback and revocation fuses for the running image. -/
  | rollbackCommit (value : BitVec 8)
  /-- FW_UPDATE (R527): Starts writing and verifying an image into the non-running slot. -/
  | fwUpdate (value : BitVec 64)
  /-- FW_UPDATE_DONE (R527): The update ends as written and verified, or refused. -/
  | fwUpdateDone (result : UpdateEnd)
  /-- FW_STAGE_DATA (R527): Places 32 bytes in the target slot and advances FW_STAGE_OFFSET. -/
  | fwStageData (value : BitVec 256)
  /-- DEBUG_AUTH (R533): A complete authorisation is checked and grants or refuses debug scope, redrawing the challenge. -/
  | debugAuth (part : Fin 4) (value : BitVec 512)
  /-- DEBUG_LOCK (R533): Ends the active debug authorisation. -/
  | debugLock (value : BitVec 8)
  /-- ENGINE_WDT_EXPIRY (R481): An engine without progress for ENGINE_WDT requests an engine reset with capture. -/
  | engineWdtExpiry (core : CoreId) (engine : Fin 3)
  /-- CORE_WDT_EXPIRY (R482): A core without progress for CORE_WDT requests a core reset with capture. -/
  | coreWdtExpiry (core : CoreId)
  /-- HEARTBEAT_CHECK (R483): Each HEARTBEAT_PERIOD a missing heartbeat counts and the miss limit requests a die reset. -/
  | heartbeatCheck (missed : List Nat)
  /-- ENGINE_RESET (R479): RESET_REQUEST DOMAIN 0 resets one engine, discarding its queue and started descriptors. -/
  | engineReset (core : CoreId) (engine : Fin 3) (capture : Bool)
  /-- CORE_RESET (R478): RESET_REQUEST DOMAIN 1 resets a core's engines and contexts to program-load state. -/
  | coreReset (core : CoreId) (capture : Bool)
  /-- CLUSTER_RESET (R478): RESET_REQUEST DOMAIN 2 resets every core of a cluster and its clock and regulator. -/
  | clusterReset (cluster : Cluster) (capture : Bool)
  /-- COMPUTE_DIE_RESET (R478): RESET_REQUEST DOMAIN 3 resets a compute die. -/
  | computeDieReset (die : Die) (capture : Bool)
  /-- SETTING_RESET (R478): RESET_REQUEST DOMAIN 4 resets a setting, putting its stack into self-refresh. -/
  | settingReset (setting : Setting) (capture : Bool)
  /-- RIM_DIE_RESET (R478): RESET_REQUEST DOMAIN 5 resets a rim die, its links, contexts and axis state. -/
  | rimDieReset (rim : Rim)
  /-- PACKAGE_WARM_RESET (R495): RESET_REQUEST DOMAIN 6 performs the package warm reset timeline. -/
  | packageWarmReset (capture : Bool)
  /-- COLD_INITIALISATION (R553): RESET_REQUEST DOMAIN 7 performs cold initialisation. -/
  | coldInitialisation
  /-- LOCKET_CAPTURE_END (R490): The capture ends when every block is written or LOCKET_CAPTURE_LIMIT passes, and the reset proceeds. -/
  | locketCaptureEnd (index : Nat)
  /-- LOCKET_ACCESS_TIMEOUT (R491): A capture read times out and is filled and flagged, skipping the segment after 16. -/
  | locketAccessTimeout (index : Nat) (core : CoreId) (line : Nat)
  /-- RESET_COMPLETE (R487): Every unit of the reset domain is idle and initialised. -/
  | resetComplete (index : Nat)
  /-- ESCALATION (R487): A reset not complete within its limit widens to the next domain or fences the unit. -/
  | escalation (index : Nat)
  /-- PRST_N_ASSERT (R571): PRST_N falling ends every capture and reset in progress and holds the package. -/
  | prstNAssert
  /-- PACKAGE_START (R549): PWROK and PRST_N both high start a cold initialisation or warm reset as the start table gives. -/
  | packageStart (railsOff : Bool) (lowFor : Nat) (chainStrap : BitVec 5) (bootStrap : BitVec 2)
  /-- PWROK_FALL (R551): A fall of PWROK stops every clock and regulator and loses HBM. -/
  | pwrokFall
  /-- READY (R555): The readiness conditions hold and PKG_STATE becomes READY. -/
  | pkgReady
  /-- STARTUP_TIMEOUT (R557): READY not reached within 60 s repeats cold initialisation or enters recovery. -/
  | startupTimeout
  /-- VIN_WARNING (R540): VIN_SET falls below 1.71 V and the setting's clocks stretch by 25 %. -/
  | vinWarning (setting : Setting)
  /-- VIN_RECOVERY (R540): VIN_SET above 1.74 V for 50 µs ends the stretch and releases a power-fail hold. -/
  | vinRecovery (setting : Setting)
  /-- VIN_POWERFAIL (R541): VIN_SET below 1.62 V for more than 2 µs causes a power-fail reset of the setting. -/
  | vinPowerfail (setting : Setting) (chargeHeld : Bool)
  /-- SETPOINT_UPDATE (R539): Every 1 ms each cluster rail set-point is recomputed. -/
  | setpointUpdate (cluster : Cluster) (mv : Nat)
  /-- PMBUS_POLL (R542): Every 10 ms regulator telemetry is read, excursions counted and faults cleared. -/
  | pmbusPoll (rail : Fin 50) (reading : Option RailReading)
  /-- PMBUS_ALERT (R542): PMBUS_ALERT_N asserted causes an immediate read of the bus's regulators. -/
  | pmbusAlert (bus : Rim) (readings : List (Nat × Option RailReading))
  /-- AVS_READ (R542): Every 100 µs each VIN_SET regulator's voltage and current is read over AVSBus. -/
  | avsRead (setting : Setting) (mv : Nat) (ma : Nat)
  /-- POWER_WINDOW_END (R544): Package power is measured and every cluster's power step lowered or raised. -/
  | powerWindowEnd
  /-- SENSOR_SAMPLE (R545): Every 50 µs every on-die sensor and stack readout is sampled. -/
  | sensorSample (readings : List (Nat × Int))
  /-- THERMAL_STEP_DOWN (R546): Every 100 µs at or above the throttle point a unit's thermal step falls by one. -/
  | thermalStepDown (unit : Nat)
  /-- THERMAL_STEP_UP (R546): Every 1 ms after cooling a unit's thermal step rises by one. -/
  | thermalStepUp (unit : Nat)
  /-- PROCHOT_IN_ASSERT (R546): The board holding PROCHOT_N low sets every cluster's PROCHOT step to 8. -/
  | prochotInAssert
  /-- PROCHOT_IN_RELEASE (R546): The board releasing PROCHOT_N returns the PROCHOT step to 16. -/
  | prochotInRelease
  /-- REFCLK_LOSS (R543): REFCLK100 absent for 1 µs makes every generator hold open-loop. -/
  | refclkLoss
  /-- REFCLK_RETURN (R543): REFCLK100 returns and locking resumes. -/
  | refclkReturn
  /-- REFCLK156_LOSS (R543): Loss of a SerDes reference takes down the links of its rim die. -/
  | refclk156Loss (rim : Rim)
  /-- XFL_CRC_ERROR (R343): A frame that fails its CRC, overlaps an uncorrectable RS codeword, holds a reserved value or a reserved CTYPE is discarded, counted and answered by a NAK. -/
  | xflCrcError (link : Link) (frame : Frame)
  /-- FIRMWARE_VERIFICATION_END (R524): The four Nolow instances reach their verdicts, or 400 ms pass, and the image runs, the other slot is tried or recovery is entered; the Chain begins to answer. -/
  | firmwareVerificationEnd (attempt : BootAttempt)
  /-- REFCLK100_LOCK_TIMEOUT (R557): REFCLK100 not locked within 1 s after firmware verification sends the package to recovery with START_FAULT 2. -/
  | refclk100LockTimeout
  /-- QUICK_CHECK_END (R513): The quick check ends: failing cores become failed, dies are fenced or the cluster map is completed, and LAST_CLEAN_STEP is set. -/
  | quickCheckEnd (outcome : QuickOutcome)
  /-- HBM_TRAINING_END (R333): HBM training or warm retraining ends, failing pseudo-channels are marked or taken down, the map and regions are laid out, and the controller accepts requests. -/
  | hbmTrainingEnd (setting : Setting) (identityOk : Bool) (failed : List (Fin 32))
  /-- SWAPPT_COMPLETE (R508): The copy to the spare ends, the cluster map changes to the spare, held arrivals land and SWAPPT returns RD = 1. -/
  | swapptComplete (core : CoreId)
deriving DecidableEq, Repr

end Sys2Proof
end

