-- ==== Sys2Proof/Machine/Types.lean ====
section
/-!
DEFINITION. The parts State is made of: memories, the control unit, the engines, messages, the fabric, memory stacks,
the host port, the Chain, resets, in-field test, security, power and start-up. All plain data.
-/
namespace Sys2Proof.Machine

/-- A dictionary entry: its key 256·index + subindex and its default (R467). -/
structure Ent where
  key  : Nat
  dflt : Nat
deriving DecidableEq, Repr

/-- An addressed memory: `cells` lists, by strictly rising address, every byte that differs from what an unlisted address
reads as. That is 0 for `base = 0` and the free byte `Config.freeByte base a` otherwise (log entry 3). -/
structure Mem where
  base  : Nat
  cells : List Host.Cell
deriving DecidableEq, Repr

/-- What an unlisted address of a memory reads as. -/
def Mem.unlisted (m : Mem) (a : Nat) : Byte := if m.base = 0 then 0 else Config.freeByte m.base a

/-- The memory that reads 0 everywhere. -/
def Mem.zero : Mem := { base := 0, cells := [] }

/-- The state of a control-unit context (R45). -/
inductive CtxState where
  | ready      -- 0: running or ready to run
  | waiting    -- 1: waiting in SCWAIT or QWAIT, or stalled in PUSHD
  | halted     -- 2: halted by HALT or by a CTU fault
  | notLoaded  -- 3: not loaded
deriving DecidableEq, Repr

/-- What holds a context at an instruction that has not finished. -/
inductive Stall where
  /-- SCWAIT on a counter and target (R52). -/
  | sync (ctr : BitVec 8) (target : BitVec 32)
  /-- QWAIT on a queue, with its destination (R52), since the given fabric time (R245). -/
  | queue (q : Fin 17) (rd : Reg) (since : Nat)
  /-- PUSHD of a descriptor to a full queue (R58). -/
  | push (engine : Fin 3) (addr : Nat)
  /-- IFILL copying (R46): source, length and destination. -/
  | ifill (src len dst : Nat)
  /-- DRD waiting for its value (R54). -/
  | drd (index sub : Nat) (rd : Reg)
  /-- SWAPPT copying to a spare (R508). -/
  | swap (rd : Reg)
deriving DecidableEq, Repr

/-- One context of a control unit (R43–R45). Register slot 0 is never read: g0 reads as zero. -/
structure Ctx where
  regs  : Vector Word 32
  pc    : BitVec 16
  st    : CtxState
  stall : Option Stall
deriving DecidableEq, Repr

/-- One channel queue or the event queue (R83): its configuration, its complete entries in queue order, and the slots
claimed by arriving messages. Entries and claims are slot addresses; `next` is the slot index tried first. -/
structure Queue where
  mode      : Nat
  base      : Nat
  slotLog2  : Nat
  countLog2 : Nat
  event     : Bool
  srcNode   : Nat
  srcEp     : Nat
  entries   : List Nat
  claimed   : List Nat
  next      : Nat
deriving DecidableEq, Repr

/-- One entry of the outbound credit table (R87). -/
structure Credit where
  node    : Nat
  ep      : Nat
  credits : Nat
  payload : Nat
deriving DecidableEq, Repr

/-- A started MXE or FGE descriptor with what it makes visible when it completes (R41, R125, R221): its writes, its
scale-context updates as (context, largest magnitude as FP32, saturations, rounding step), its counts, and whether no later
descriptor may start before it has completed (R218). -/
structure Started where
  desc   : Nat
  writes : List (Nat × List Byte)
  ctxUps : List (Nat × Nat × Nat × Nat)
  counts : List (Ent × Nat)
  alone  : Bool
deriving DecidableEq, Repr

/-- The descriptor queue of an engine, whether it is stopped, and for the MXE and FGE its started descriptors (R58–R62). -/
structure Engine where
  queue   : List Nat
  stopped : Bool
  started : List Started
deriving DecidableEq, Repr

/-- A Bushel lane (R224). `last` is none when the lane is empty. -/
structure Lane where
  isOpen : Bool
  base   : Nat
  limit  : Nat
  top    : Nat
  last   : Option Nat
  count  : Nat
deriving DecidableEq, Repr

/-- What a started MSE descriptor is waiting for, beside its messages. -/
inductive MseKind where
  /-- Its messages only; a local operation that has taken effect waits for its completion. -/
  | plain
  /-- A credited SEND that may have to wait for a credit (R87). -/
  | credit
  /-- A FENCE, with the start numbers of the earlier descriptors it waits for (R74, R320). -/
  | fence (earlier : List Nat)
  /-- A lane or bucket operation that waits for an earlier operation on its lane or bytes, or for a controller (R234, R268). -/
  | held
  /-- A BUSHEL_DRAIN: the frames already resident and R_0 (R231, R232). -/
  | drain (done r0 : Nat)
  /-- A BUCKET_STEP held until the open step is finished (R270). -/
  | stepHeld
  /-- A BUCKET_EXCHANGE held by the bucket window (R270). -/
  | windowHeld
  /-- A collective that waits for its Clasp context (R414). -/
  | ctxHeld
  /-- A collective, bucket exchange or agreement that holds the Clasp context named. -/
  | coll (context : Nat)
  /-- An EXPERT_DISPATCH with its sent bytes (R252). -/
  | dispatch (sent : List Nat)
  /-- A descriptor that has stopped the engine after it began and does not complete (R62). -/
  | stuck
deriving DecidableEq, Repr

/-- A message still to be started by a descriptor: its group, the groups that must have completed first, the header its
packets are formed with, its length and payload, the place its payload is still to be read from (R480), and where the data
of a read lands. -/
structure Todo where
  group   : Nat
  after   : List Nat
  head    : Packet
  length  : Nat
  payload : List Byte
  source  : Option (Nat × Nat)
  dst     : Option Nat
deriving DecidableEq, Repr

/-- A started descriptor of a message engine (R72): its start number, its bytes, what it waits for, its messages not yet
started, the IDs of its outstanding messages with their groups, and the completion-record fields formed so far (R81); `fin`
says that a local operation has taken effect; `noted` is what a Bushel operation notes when it starts: the rounding step of a push
(R228), the RELEASE_CTR value R_0 of a drain (R232); `zones` are the ranges of this package, as (endpoint, offset, bytes), that an
expert exchange leaves undefined unless it ends with OK (R257). -/
structure MseOp where
  no       : Nat
  desc     : Nat
  kind     : MseKind
  todo     : List Todo
  msgs     : List (Nat × Nat)
  status   : Nat
  msgId    : Nat
  leaves   : Nat
  excluded : Nat
  fin      : Bool
  noted    : Nat := 0
  zones    : List (Nat × Nat × Nat) := []
deriving DecidableEq, Repr

/-- An outstanding message of this package (R382, R383): the core that owns it (or 65,536 plus a command queue), the start
number of its descriptor, the message as it is to be sent, the order in which it was started, and the state of its recovery.
`landed` holds the offsets of the data that a read has landed; `held` whether it waits for REORDER_BACKOFF; `answered` the
multicast leaves heard from with their statuses (R396), and `excluded` the leaves excluded. -/
structure OutMsg where
  owner    : Nat
  opNo     : Nat
  item     : Todo
  no       : Nat
  landed   : List Nat
  retries  : Nat
  held     : Bool
  answered : List (Nat × Nat)
  excluded : List Nat
deriving DecidableEq, Repr

/-- A reorder context (R380): the message, its target, the offsets of the packets landed, the slot a SEND has claimed, and
the FENCE packet held until every other has landed (R379). -/
structure Reorder where
  srcNode : Nat
  msgId   : Nat
  destEp  : Nat
  channel : Nat
  landed  : List Nat
  slot    : Option Nat
  fence   : Option Packet
deriving DecidableEq, Repr

/-- A duplicate record (R381). -/
structure DupRecord where
  srcNode : Nat
  msgId   : Nat
  status  : Nat
deriving DecidableEq, Repr

/-- The bucket sequencer and the commit barrier (R269, R290). `zones` holds what an abandoned step leaves undefined (R270), as
(bucket, place, address, bytes): place 0 is device memory and place p + 1 the scratchpad of physical core p. `holds` are the buckets
that keep their Clasp context from their first exchange until they are finished (R271). -/
structure Sequencer where
  isOpen   : Bool
  step     : Nat
  first    : Nat
  count    : Nat
  u        : Nat
  fin      : List Nat
  run      : List Nat
  released : Option Nat
  zones    : List (Nat × Nat × Nat × Nat)
  holds    : List Nat := []
deriving DecidableEq, Repr

/-- One arriving stream of a collective (R414–R416, R418): its source, the place of its context (`collKey`) and its KEY, its opener,
whether that was accepted, the packets that wait, and when its latest DATA packet came. -/
structure Stream where
  src    : Nat
  context : Nat
  key    : Nat
  opener : Option Packet
  accepted : Bool
  waiting : List Packet
  last   : Option Nat := none
deriving DecidableEq, Repr

/-- A collective that holds a Clasp context (R414–R423): its owner core, start number and descriptor, the values its opener
carries (R415), its launch (R424), the member's data by byte offset with the offsets of flagged INT128 elements (R408), the
parts received as (phase, first, end) and sent as (phase, first, rank), the status words of an exchange (R272), and the status it
fails with. -/
structure Coll where
  owner    : Nat
  opNo     : Nat
  desc     : Nat
  axis     : Nat
  op       : Nat
  mode     : Nat
  algo     : Nat
  key      : Nat
  step     : Nat
  attempt  : Nat
  group    : Nat
  rank     : Nat
  root     : Nat
  norm     : Bool
  gexp     : Nat
  length   : Nat
  channel  : Nat
  epoch    : Bool
  sig      : Nat
  launch   : Nat
  launched : Bool
  opened   : Bool
  data     : List Byte
  flags    : List Nat
  got      : List (Nat × Nat × Nat)
  sent     : List (Nat × Nat × Nat)
  formed   : Nat
  fail     : Option Nat
deriving DecidableEq, Repr

/-- A Troy unit (R293–R297): its command queue, whose head stays in it while it runs, the program slots and constant tables as
numbers, the status found when the head started, while it runs, and the PUTs held for a slot or table in use. -/
structure Troy where
  queue    : List Nat
  programs : List (Nat × Nat)
  consts   : List (Nat × Nat)
  running  : Option Nat
  heldPuts : List Packet
deriving DecidableEq, Repr

/-- A COMMIT armed at the barrier or held until its step opens (R291). -/
structure HeldCommit where
  setting : Nat
  cmd     : Nat
  armed   : Bool
deriving DecidableEq, Repr

/-- A write-combining buffer entry (R318): its line, its bytes by position, and who wrote them (R320), as
65,536·node + endpoint. Oldest entries come first in the buffer. -/
structure WcbEntry where
  line    : Nat
  bytes   : List (Nat × Byte)
  writers : List Nat
deriving DecidableEq, Repr

/-- An HBM stack and its controller (R315–R331). `active` is ACTIVE; `errors` holds, by line, the symbols of the stored
codeword that differ from the written ones with their differences; `down` the pseudo-channels that failed warm
retraining; `off` says that its setting is fenced (R488). -/
structure Stack where
  mem       : Mem
  active    : List (Fin 32)
  ring      : Nat
  errors    : List (Nat × List (Nat × Byte))
  wcb       : List WcbEntry
  down      : List Nat
  failed    : Bool
  off       : Bool
  accepting : Bool
  training  : Bool
deriving DecidableEq, Repr

/-- A fabric link (R339–R350): its state and the one its neighbour last reported, the next SEQ sent and expected, whether a
NAK is due and the expected value last NAKed, the consecutive retries, the replay buffer with, for each frame, the table
versions of the packets that end in it, the credits in bytes by virtual channel, the credits owed to the neighbour, the
bytes not yet framed by virtual channel and version, the received bytes of packets not yet whole, the accepted record, the times of
R358 and R359 (the last TX_TIME received, when, and the TX_TIMEs sent), and whether it is quarantined alone for another neighbour
than its port's (R353). -/
structure LinkState where
  st       : Nat
  nbState  : Nat
  txSeq    : Nat
  expect   : Nat
  nakDue   : Bool
  nakSent  : Option Nat
  retries  : Nat
  replay   : List (Frame × List Nat)
  credits  : List (Nat × Nat)
  owed     : List (Nat × Nat)
  txq      : List (Nat × Nat × List Byte)
  streams  : List (Nat × List Byte)
  record   : Option NbRecord
  echoTx   : Nat
  echoRx   : Nat
  sentTx   : List Nat
  split    : Bool
  parked   : List (Nat × Packet) := []
deriving DecidableEq, Repr

/-- What a port knows of its neighbour and of time (R353, R357–R360): the accepted record, the last offset, and the
neighbour's hop count, LOCKED and root; `hops` is 0xFF before the first TIME frame. -/
structure PortState where
  record  : Option NbRecord
  offset  : Int
  hops    : Nat
  locked  : Bool
  root    : Nat
deriving DecidableEq, Repr


/-- An accumulator bank (R95, R96): empty, exact (values in units of 2^-n with a 2-bit tag) or FP32 patterns. -/
inductive BankKind where
  | empty | exact | fp32
deriving DecidableEq, Repr

structure Bank where
  kind    : BankKind
  closed  : Bool
  fmt     : Nat
  entries : List (Int × Nat)
deriving DecidableEq, Repr

/-- A staged operand copy of the MXE (R106): the descriptor fields it was loaded under, the element codes row by row, and
the block-scale codes row by row. -/
structure Staged where
  key    : List Nat
  elems  : List (List Nat)
  scales : List (List Nat)
deriving DecidableEq, Repr

/-- A scale context (R151). -/
structure ScaleCtx where
  valid     : Bool
  auto      : Bool
  histLen   : Nat
  target    : Nat
  margin    : Nat
  exp       : Int
  satThresh : Nat
  satCount  : Nat
  amaxCur   : Nat
  histValid : Nat
  hist      : List Nat
deriving DecidableEq, Repr

/-- The lockstep comparison of a core (R511, R512): the CRC-64 of its own scratchpad writes and that of its copy, the octets written
since the last 4 KiB, and whether a comparison has found that the two differ. -/
structure Lockstep where
  own     : Nat := 0
  copy    : Nat := 0
  len     : Nat := 0
  differs : Bool := false
deriving DecidableEq, Repr

/-- One physical core (R25, R40–R92). `crc` is its lockstep comparison (R511). -/
structure Core where
  primary   : Ctx
  companion : Ctx
  onComp    : Bool
  ibuf      : Mem
  sp        : Mem
  ctrs      : List (Nat × Nat)
  mxe       : Engine
  fge       : Engine
  mse       : Engine
  ops       : List MseOp
  nextOp    : Nat
  queues    : List (Nat × Queue)
  credits   : List (Nat × Credit)
  banks     : List (Nat × Bank)
  stageA    : Option Staged
  stageB    : Option Staged
  scales    : List (Nat × ScaleCtx)
  rstep     : Nat
  lanes     : List (Nat × Lane)
  cycles    : Nat
  crc       : Lockstep
deriving DecidableEq, Repr

/-- A CHP session (R432–R437). `unacked` holds the sequenced packets sent and not acknowledged: SEQ, type, payload,
times sent, and whether SACK marks it; `waiting` those that the window holds back; `fastAt` when a packet was last sent again
early; `ended` the requests with data that have been replied to, whose further data is only acknowledged (R436); `sentAt` when each
packet was last sent, by SEQ; `reads` the device addresses of the READs whose data may be sent again, by REQ_ID (R435). -/
structure Session where
  peer     : Nat
  nonce    : List Byte
  hash     : List Byte
  key      : List Byte
  welcome  : List Byte
  hostKey  : List Byte
  finished : Bool
  maxData  : Nat
  txSeq    : Nat
  rxAck    : Nat
  rxSack   : Nat
  unacked  : List (Nat × Nat × List Byte × Nat × Bool)
  waiting  : List (Nat × List Byte)
  ackDue   : Bool
  ceSeen   : Bool
  rate     : Nat
  lastCut  : Option Nat
  fastAt   : List (Nat × Nat)
  ended    : List Nat
  sentAt   : List (Nat × Nat) := []
  reads    : List (Nat × Nat) := []
deriving DecidableEq, Repr

/-- A request in progress on the host port (R436, R439, R440): its session (256 more for a replayed one), its record, the
data landed by offset and length, the data held for a controller that accepts nothing yet, and for a RING_PUT its claim number,
once it has one, and the CONSUMED it read; for a LOAD 1 says that its reset has been absorbed (R486). -/
structure HostReq where
  session : Nat
  record  : Nat
  landed  : List (Nat × Nat)
  held    : List (Nat × List Byte)
  claim   : Option Nat
  detail1 : Nat
deriving DecidableEq, Repr

/-- A command queue (R444): its session, core and channel, its credit entry as (core, credits, payload), and the pushes not
yet sent, oldest first, as (session, REQ_ID, payload). -/
structure CmdQueue where
  session : Nat
  core    : Nat
  channel : Nat
  credits : Option (Nat × Nat × Nat)
  pushes  : List (Nat × Nat × List Byte)
deriving DecidableEq, Repr

/-- An input ring (R445): its configuration, PRODUCED, and the claimed entries in claim order, complete or not. -/
structure Ring where
  enabled   : Bool
  base      : Nat
  entryLog2 : Nat
  countLog2 : Nat
  core      : Nat
  ctr       : Nat
  produced  : Nat
  claims    : List (Nat × Bool)
deriving DecidableEq, Repr

/-- The recording ring (R449): 0 off, 1 wrapping, 2 stop when full, 3 replaying; the records held by ring position,
oldest first, as (position, length, record number, time); and the next position and number. -/
structure Recording where
  st      : Nat
  records : List (Nat × Nat × Nat × Nat)
  next    : Nat
  number  : Nat
deriving DecidableEq, Repr

/-- A replay in progress (R450): the records still to inject, the pacing, the start time, the first record's time,
the records replayed, and the session and REQ_ID to reply to. -/
structure Replay where
  left    : List (Nat × Nat × Nat × Nat)
  paced   : Bool
  start   : Nat
  first   : Nat
  count   : Nat
  session : Nat
  reqId   : Nat
deriving DecidableEq, Repr

/-- The PTP clock of a disciplined root (R429): a two-step Sync that waits for its Follow_Up, as (sequence, own time, correction); the
last whole Sync, as (transmitter's time, own time); the Delay_Req that is out, as (sequence, own time); the mean path delay, once
known; and the sequence of the last Delay_Req. -/
structure PtpClock where
  pending : Option (Nat × Int × Int) := none
  sync    : Option (Int × Int) := none
  request : Option (Nat × Int) := none
  delay   : Option Int := none
  seq     : Nat := 0
deriving DecidableEq, Repr

/-- The host port (R427–R450). For MACsec (R428) it holds the keys by association, the packet number it next expects of each, the
association it sends under and the packet number it next sends. -/
structure HostUnit where
  sessions  : List (Nat × Session)
  stopped   : Bool
  reqs      : List HostReq
  cmdqs     : List (Nat × CmdQueue)
  rings     : List (Nat × Ring)
  recording : Recording
  replay    : Option Replay
  saks      : List (Nat × List Byte)
  ptpHeard  : Option Nat
  rxPns     : List (Nat × Nat) := []
  txAn      : Nat := 0
  txPn      : Nat := 1
  ptp       : PtpClock := {}
deriving DecidableEq, Repr

/-- What the Chain interface is doing about its ID (R455–R458). -/
inductive ClaimState where
  | held                          -- has an ID
  | listening (beacons : Nat)
  | backoff (cycles : Nat)
  | claiming
  | watching (id : Nat) (assigner : Nat) (seq : Nat) (heard : Bool)
deriving DecidableEq, Repr

/-- The Chain interface (R452–R465): whether it answers, its claim, the frames held for its opportunity as (destination, since,
payload, UDP source port or 0), the resets that wait until so many of these frames are gone (R485), the cycles in a row with a collision in its own opportunity, and the answers kept for repeated
requests as (source, SEQ, payload), oldest first. -/
structure Chain where
  answers  : Bool
  claim    : ClaimState
  tx       : List (Nat × Nat × List Byte × Nat)
  resetsDue : List (Nat × Nat × Bool)
  collisions : Nat
  answered : List (Nat × Nat × List Byte)
deriving DecidableEq, Repr

/-- The reset phases of R486–R495. -/
inductive ResetPhase where
  | capture
  | running
deriving DecidableEq, Repr

/-- A reset in progress (R486, R487): domain code of R485, engine, target, cause, phase, capture start, the accesses
that timed out, and the SEQ of its record (R492). -/
structure ResetJob where
  domain  : Nat
  engine  : Nat
  target  : Nat
  cause   : Nat
  phase   : ResetPhase
  start   : Nat
  bad     : List (Nat × Nat)
  runs    : List (Nat × Nat × Nat)
  next    : Option (Nat × Nat × Nat)
  seq     : Nat := 0
deriving DecidableEq, Repr

/-- A Hallmark test of a physical core in progress, which runs at the guardband (R503, R504): the pieces still to run as (slot, piece, table
entry with the image's code and data), the step at which it began, when its piece was started, whether it is the quick check (R513), and the packets
that the core under test has sent to itself and that have not arrived. -/
structure HallTest where
  cluster : Nat
  core    : Nat
  pieces  : List (Nat × Nat × List Byte)
  step    : Nat
  began   : Nat := 0
  quick   : Bool := false
  mail    : List Packet := []
deriving DecidableEq, Repr

/-- The Hallmark bundle store and install in progress (R502), the tests, the cores that have passed one, the core each cluster tested last, the
cores overdue (R509), and those that have failed the quick check in progress (R513). -/
structure Hallmark where
  slots   : List (Nat × List Byte)
  install : Option (Nat × Nat)
  tests   : List HallTest
  passed  : List Nat
  last    : List (Nat × Nat)
  overdue : List Nat
  quickBad : List Nat := []
deriving DecidableEq, Repr

/-- A swap in progress (R508): the cluster, the physical core it leaves, the spare it moves
to, the step of its swap point, the arrivals that wait, and under full redundancy the two cores of the lockstep copy. -/
structure Swap where
  cluster : Nat
  fromPhy : Nat
  toPhy   : Nat
  step    : Nat
  waiting : List Packet
  copy    : Option (Nat × Nat) := none
deriving DecidableEq, Repr

/-- The fuses (R520). The key digests and the serial are values the package was made with. -/
structure Fuses where
  digests : List (List Byte)
  revoked : Nat
  svn     : Nat
  seed    : List Byte
  serial  : Nat
  gradeB  : Bool
deriving DecidableEq, Repr

/-- The firmware side of security (R521–R527): the two slots and the bundle store of the flash, the slot running and its
header facts, the attempts rejected in this boot with whether a service controller was silent, an update in progress as
(source, length, target slot), and whether a commit of fuses is in progress (R526). -/
structure Firmware where
  slotA   : Mem
  slotB   : Mem
  running : Nat
  svn     : Nat
  keySlot : Nat
  revoke  : Nat
  digest  : List Byte
  tried   : List Bool
  update  : Option (Nat × Nat × Nat)
  committing : Bool := false
deriving DecidableEq, Repr

/-- Debug authorisation and Signet state that the dictionary entries do not hold (R530–R533): which of the staged
DEBUG_AUTH parts have arrived. -/
structure Debug where
  parts : List (Nat × List Byte)
deriving DecidableEq, Repr

/-- Supply state of a setting (R540, R541): stretched, failed, or found below 1.74 V by a start (R557). -/
structure Supply where
  stretched : Bool
  powerFail : Bool
  low       : Bool := false
deriving DecidableEq, Repr

/-- Throttling state (R546, R547): since when each sensor has read at least 2 °C below its throttle point, and the sensor that has
tripped. What each read last is its TEMP entry, and the steps of the clusters are CLUSTER_STEPS. -/
structure Thermal where
  coolAt  : List (Nat × Nat)
  tripped : Option Nat
deriving DecidableEq, Repr

/-- Reference clocks and status pins (R543, R546, R547, R549): `lowNs` is how long PRST_N has been low, and `asserted` whether that is
10 µs or more (R571). -/
structure Pins where
  pwrok      : Bool
  prstN      : Bool
  refclk100  : Bool
  prochotIn  : Bool
  chainStrap : Nat
  bootStrap  : Nat
  lowNs      : Nat := 0
  asserted   : Bool := false
deriving DecidableEq, Repr

/-- Progress of a start (R549–R557): whether a start runs, whether it is cold, its cause, the nanoseconds since it began (R559), the conditions of R555 met so
far, links that have left training, consecutive start-up timeouts, and the values marked "next cold" that the cold initialisation
acts on: RECORD_RING_MIB and the marks of each setting (R472). -/
structure Startup where
  running   : Bool
  cold      : Bool
  cause     : Nat
  lead      : Nat
  verified  : Bool
  quickDone : Bool
  hbmDone   : List Nat
  linksOut  : List Nat
  everReady : Bool
  repeats   : Nat
  ringMib   : Nat := 0
  marks     : List (Nat × Nat) := []
deriving DecidableEq, Repr

/-- How a frame leaves the host port (R427, R428, R430): its VLAN (0 untagged), its DSCP, ECN and DF (IPv4) where it is an IP packet,
its UDP source port, and under MACsec its association, secure channel identifier, packet number and ICV. -/
structure HostFrame where
  vlan : Nat
  dscp : Nat
  ecn  : Nat
  df   : Bool
  port : Nat
  sec  : Option (Nat × Nat × Nat × Nat)
deriving DecidableEq, Repr

/-- What the package puts out, in order (the model's own record, log entry 4). -/
inductive Output where
  /-- A packet for an endpoint of this package (`port` none) or onto a port, on a virtual channel (R370). -/
  | packet (port : Option Nat) (vc : Nat) (p : Packet)
  /-- A packet received whole on a port: it comes back as the command of its arrival or of its forwarding (R340). -/
  | received (port : Nat) (p : Packet)
  /-- A credit grant to a bound source from a core of this package (R87). -/
  | grant (node ep core channel credits payload : Nat)
  /-- A credit return to a bound source from a core of this package (R87). -/
  | creditReturn (node ep core channel credits : Nat)
  /-- An XFL frame on a link (R339). -/
  | frame (link : Nat) (f : Frame)
  /-- A CHP packet to a peer: header and payload (R430). -/
  | chp (peer : Nat) (bytes : List Byte) (frame : HostFrame)
  /-- An answer to ARP, Neighbour Discovery or echo (R427): 0, 1 or 2, the asker, the content. -/
  | net (kind : Nat) (dest : Nat) (content : List Byte) (frame : HostFrame)
  /-- A Delay_Req of PTP with its sequence number and domain (R429). -/
  | delayReq (seq domain : Nat) (frame : HostFrame)
  /-- A payload on the Chain to a node from a UDP port (R460), or outside UDP from port 0 (R452). -/
  | chain (dest : Nat) (payload : List Byte) (port : Nat)
  /-- A dictionary answer: item status and value (R463). -/
  | dict (status : Nat) (value : List Byte)
  /-- A PMBus command to a rail's regulator: 0 off, 1 on, 2 CLEAR_FAULTS, 3 read telemetry (R542). -/
  | pmbus (rail cmd : Nat)
  /-- A status pin driven: 0 PROCHOT_N, 1 THERMTRIP_N (R546, R547). -/
  | pin (which : Nat) (low : Bool)
deriving DecidableEq, Repr

/-- Where a router sends a packet next. -/
inductive Route where
  /-- It is at its destination. -/
  | deliver
  /-- Along an axis, in a direction, with the hops still to take. -/
  | along (a d r : Nat)
  /-- By an exception entry or up/down entry: any usable port of a mask, the last flag asking for the detour channel. -/
  | ports (mask : Nat) (detour : Bool)
  /-- In up/down mode on a down port. -/
  | down (mask : Nat)
  /-- No route. -/
  | none
deriving DecidableEq, Repr

end Sys2Proof.Machine
end

