-- ==== Sys2Proof/Machine/DictTable.lean ====
section
/-!
DEFINITION. The object dictionary's entries (R467, R475): the rows of every chapter's entry table, and a name for each
entry's key with its default.
-/
namespace Sys2Proof.Machine

/-- A family of dictionary entries: count indices from index, subs subindices from sub. Type codes are those of
R467, access codes those of R464 (0 RO, 1 RW, 2 WO, 3 RWH, 4 RWB), persistence 0 volatile, 1 retained, 2 flash. A write is
in range from lo to hi in multiples of mul; entries with a rule of their own are checked by that rule as well. -/
structure EntryRow where
  name   : String
  index  : Nat
  count  : Nat
  sub    : Nat
  subs   : Nat
  ty     : Nat
  size   : Nat
  access : Nat
  expert : Bool
  persist : Nat
  dflt   : Nat
  lo     : Int
  hi     : Int
  mul    : Nat
deriving DecidableEq, Repr

/-- Entries of R39. -/
def entriesR39 : List EntryRow := [
  ⟨"LOGICAL_CORES_PER_CLUSTER", 0x2000, 1, 0x01, 1, 0, 1, 0, false, 0, 16, 0, 255, 1⟩,
  ⟨"LOGICAL_CLUSTERS_PER_DIE", 0x2000, 1, 0x02, 1, 0, 1, 0, false, 0, 4, 0, 255, 1⟩,
  ⟨"LOGICAL_CORE_COUNT", 0x2000, 1, 0x03, 1, 2, 4, 0, false, 0, 4608, 0, 4294967295, 1⟩,
  ⟨"CLUSTER_MAP_COUNT", 0x2100, 288, 0x00, 1, 0, 1, 0, true, 1, 0, 0, 255, 1⟩,
  ⟨"CLUSTER_MAP_CORE", 0x2100, 288, 0x01, 16, 0, 1, 0, true, 1, 0, 0, 255, 1⟩,
  ⟨"CLUSTER_SPARE_MASK", 0x2100, 288, 0x11, 1, 2, 4, 0, true, 1, 0, 0, 4294967295, 1⟩,
  ⟨"CLUSTER_DEFECT_MASK", 0x2100, 288, 0x12, 1, 2, 4, 0, true, 2, 0, 0, 4294967295, 1⟩,
  ⟨"MESH_FLITS", 0x1180, 24, 0x01, 1, 3, 8, 0, true, 0, 0, 0, 18446744073709551615, 1⟩,
  ⟨"MESH_CRC_RETRIES", 0x1180, 24, 0x02, 1, 3, 8, 0, true, 0, 0, 0, 18446744073709551615, 1⟩,
  ⟨"MESH_STALL_CYCLES", 0x1180, 24, 0x03, 1, 3, 8, 0, true, 0, 0, 0, 18446744073709551615, 1⟩,
  ⟨"MESH_LINKS_OUT", 0x1180, 24, 0x04, 1, 3, 8, 0, true, 0, 0, 0, 18446744073709551615, 1⟩]

/-- Entries of R92. -/
def entriesR92 : List EntryRow := [
  ⟨"DESC_QUEUE_DEPTH", 0x2010, 1, 0x01, 1, 0, 1, 0, false, 0, 16, 0, 255, 1⟩,
  ⟨"MSE_OUTSTANDING_MAX", 0x2010, 1, 0x02, 1, 0, 1, 0, false, 0, 128, 0, 255, 1⟩,
  ⟨"ARB_AGE_LIMIT", 0x2010, 1, 0x03, 1, 0, 1, 4, true, 2, 64, 8, 255, 1⟩,
  ⟨"ARRIVALS_BAD_ENDPOINT", 0x2020, 1, 0x01, 1, 3, 8, 0, false, 1, 0, 0, 18446744073709551615, 1⟩,
  ⟨"ARRIVALS_BAD_ADDRESS", 0x2020, 1, 0x02, 1, 3, 8, 0, false, 1, 0, 0, 18446744073709551615, 1⟩,
  ⟨"DRD_REFUSED", 0x2020, 1, 0x03, 1, 3, 8, 0, true, 1, 0, 0, 18446744073709551615, 1⟩,
  ⟨"DESC_ISSUED", 0x2400, 288, 0x01, 1, 3, 8, 0, true, 1, 0, 0, 18446744073709551615, 1⟩,
  ⟨"DESC_INVALID", 0x2400, 288, 0x02, 1, 3, 8, 0, false, 1, 0, 0, 18446744073709551615, 1⟩,
  ⟨"ENGINE_STOPS", 0x2400, 288, 0x03, 1, 3, 8, 0, false, 1, 0, 0, 18446744073709551615, 1⟩,
  ⟨"CTU_FAULTS", 0x2400, 288, 0x04, 1, 3, 8, 0, false, 1, 0, 0, 18446744073709551615, 1⟩,
  ⟨"QUEUE_FULL_CLOCKS", 0x2400, 288, 0x05, 1, 3, 8, 0, true, 1, 0, 0, 18446744073709551615, 1⟩,
  ⟨"CREDIT_STALL_CLOCKS", 0x2400, 288, 0x06, 1, 3, 8, 0, true, 1, 0, 0, 18446744073709551615, 1⟩,
  ⟨"ARRIVALS_REFUSED", 0x2400, 288, 0x07, 1, 3, 8, 0, false, 1, 0, 0, 18446744073709551615, 1⟩,
  ⟨"EVENT_DROPS", 0x2400, 288, 0x08, 1, 3, 8, 0, false, 1, 0, 0, 18446744073709551615, 1⟩,
  ⟨"ARB_AGE_PROMOTIONS", 0x2400, 288, 0x09, 1, 3, 8, 0, true, 1, 0, 0, 18446744073709551615, 1⟩,
  ⟨"CORE_STATE", 0x2400, 288, 0x20, 16, 0, 1, 0, false, 0, 15, 0, 255, 1⟩]

/-- Entries of R127. -/
def entriesR127 : List EntryRow := [
  ⟨"MXE_ACC_BANKS", 0x2011, 1, 0x01, 1, 0, 1, 0, false, 0, 4, 0, 255, 1⟩,
  ⟨"MXE_K_LEN_MAX", 0x2011, 1, 0x02, 1, 1, 2, 0, false, 0, 2048, 0, 65535, 1⟩,
  ⟨"MXE_TILES_OUT", 0x2600, 288, 0x01, 1, 3, 8, 0, true, 1, 0, 0, 18446744073709551615, 1⟩,
  ⟨"MXE_TILES_DROPPED", 0x2600, 288, 0x02, 1, 3, 8, 0, false, 1, 0, 0, 18446744073709551615, 1⟩,
  ⟨"MXE_NONFINITE_OUT", 0x2600, 288, 0x03, 1, 3, 8, 0, false, 1, 0, 0, 18446744073709551615, 1⟩,
  ⟨"MXE_SATURATED_OUT", 0x2600, 288, 0x04, 1, 3, 8, 0, false, 1, 0, 0, 18446744073709551615, 1⟩,
  ⟨"MXE_GRAIN_OVERFLOW", 0x2600, 288, 0x05, 1, 3, 8, 0, false, 1, 0, 0, 18446744073709551615, 1⟩,
  ⟨"MXE_STAGE_RELOADS", 0x2600, 288, 0x06, 1, 3, 8, 0, true, 1, 0, 0, 18446744073709551615, 1⟩,
  ⟨"MXE_BUSY_CLOCKS", 0x2600, 288, 0x07, 1, 3, 8, 0, true, 1, 0, 0, 18446744073709551615, 1⟩]

/-- Entries of R160. -/
def entriesR160 : List EntryRow := [
  ⟨"JOB_SEED", 0x3000, 1, 0x01, 1, 8, 16, 4, false, 1, 0, 0, 340282366920938463463374607431768211455, 1⟩,
  ⟨"SCALE_CONTEXTS", 0x3000, 1, 0x02, 1, 0, 1, 0, false, 0, 64, 0, 255, 1⟩,
  ⟨"RGEN_ID", 0x3000, 1, 0x03, 1, 0, 1, 0, false, 0, 1, 0, 255, 1⟩,
  ⟨"SR_FRACTION_BITS", 0x3000, 1, 0x04, 1, 0, 1, 0, true, 0, 16, 0, 255, 1⟩,
  ⟨"CTX_SATURATIONS", 0x3100, 288, 0x01, 1, 3, 8, 0, false, 1, 0, 0, 18446744073709551615, 1⟩,
  ⟨"SAT_EVENTS", 0x3100, 288, 0x02, 1, 3, 8, 0, false, 1, 0, 0, 18446744073709551615, 1⟩,
  ⟨"NONFINITE_FINITE", 0x3100, 288, 0x03, 1, 3, 8, 0, false, 1, 0, 0, 18446744073709551615, 1⟩,
  ⟨"ROLL_NONFINITE", 0x3100, 288, 0x04, 1, 3, 8, 0, false, 1, 0, 0, 18446744073709551615, 1⟩,
  ⟨"SR_CONVERSIONS", 0x3100, 288, 0x05, 1, 3, 8, 0, true, 1, 0, 0, 18446744073709551615, 1⟩,
  ⟨"CTX_ROLLS", 0x3100, 288, 0x06, 1, 3, 8, 0, true, 1, 0, 0, 18446744073709551615, 1⟩]

/-- Entries of R185. -/
def entriesR185 : List EntryRow := [
  ⟨"ORDER_PROFILE", 0x3010, 1, 0x01, 1, 6, 1, 4, false, 1, 0, 0, 1, 1⟩,
  ⟨"ORDER_CORES", 0x3010, 1, 0x02, 1, 0, 1, 0, false, 0, 16, 0, 255, 1⟩,
  ⟨"EXACT_K_MAX", 0x3010, 1, 0x03, 1, 2, 4, 0, false, 0, 16777216, 0, 4294967295, 1⟩,
  ⟨"REF_ORDER_ID", 0x3010, 1, 0x04, 1, 0, 1, 0, false, 0, 1, 0, 255, 1⟩,
  ⟨"ASSAY_ENABLE", 0x3020, 1, 0x01, 1, 5, 1, 4, false, 1, 1, 0, 1, 1⟩,
  ⟨"ASSAY_RATE_LOG2", 0x3020, 1, 0x02, 1, 0, 1, 4, false, 1, 12, 0, 16, 1⟩,
  ⟨"ASSAY_THRESH_EXACT", 0x3020, 1, 0x03, 1, 4, 4, 4, true, 1, 4294967284, -24, 4, 1⟩,
  ⟨"ASSAY_THRESH_MXFP", 0x3020, 1, 0x04, 1, 4, 4, 4, true, 1, 4294967286, -24, 4, 1⟩,
  ⟨"ASSAY_THRESH_BF16", 0x3020, 1, 0x05, 1, 4, 4, 4, true, 1, 4294967286, -24, 4, 1⟩,
  ⟨"ASSAY_THRESH_FP16", 0x3020, 1, 0x06, 1, 4, 4, 4, true, 1, 4294967286, -24, 4, 1⟩,
  ⟨"ASSAY_THRESH_FP32", 0x3020, 1, 0x07, 1, 4, 4, 4, true, 1, 4294967286, -24, 4, 1⟩,
  ⟨"ASSAY_SAMPLED", 0x3100, 288, 0x10, 1, 3, 8, 0, false, 1, 0, 0, 18446744073709551615, 1⟩,
  ⟨"ASSAY_EXCEEDED", 0x3100, 288, 0x11, 1, 3, 8, 0, false, 1, 0, 0, 18446744073709551615, 1⟩,
  ⟨"ASSAY_STALL_CLOCKS", 0x3100, 288, 0x12, 1, 3, 8, 0, true, 1, 0, 0, 18446744073709551615, 1⟩,
  ⟨"EXACT_RANGE_OVERFLOWS", 0x3100, 288, 0x13, 1, 3, 8, 0, false, 1, 0, 0, 18446744073709551615, 1⟩,
  ⟨"ASSAY_HIST", 0x3240, 288, 0x00, 256, 3, 8, 0, true, 1, 0, 0, 18446744073709551615, 1⟩]

/-- Entries of R222. -/
def entriesR222 : List EntryRow := [
  ⟨"FGE_STAGES_MAX", 0x2012, 1, 0x01, 1, 0, 1, 0, false, 0, 8, 0, 255, 1⟩,
  ⟨"FGE_COUNT_MAX", 0x2012, 1, 0x02, 1, 1, 2, 0, false, 0, 16384, 0, 65535, 1⟩,
  ⟨"FGE_IMMEDIATES", 0x2012, 1, 0x03, 1, 0, 1, 0, false, 0, 6, 0, 255, 1⟩,
  ⟨"FGE_ELEMENTS", 0x2800, 288, 0x01, 1, 3, 8, 0, true, 1, 0, 0, 18446744073709551615, 1⟩,
  ⟨"FGE_BUSY_CLOCKS", 0x2800, 288, 0x02, 1, 3, 8, 0, true, 1, 0, 0, 18446744073709551615, 1⟩,
  ⟨"FGE_LANE_RANGE", 0x2800, 288, 0x03, 1, 3, 8, 0, false, 1, 0, 0, 18446744073709551615, 1⟩,
  ⟨"FGE_COMPRESS_OVERFLOW", 0x2800, 288, 0x04, 1, 3, 8, 0, false, 1, 0, 0, 18446744073709551615, 1⟩,
  ⟨"FGE_EXPAND_OVERFLOW", 0x2800, 288, 0x05, 1, 3, 8, 0, false, 1, 0, 0, 18446744073709551615, 1⟩,
  ⟨"FGE_SATURATED_OUT", 0x2800, 288, 0x06, 1, 3, 8, 0, false, 1, 0, 0, 18446744073709551615, 1⟩,
  ⟨"FGE_NONFINITE_OUT", 0x2800, 288, 0x07, 1, 3, 8, 0, false, 1, 0, 0, 18446744073709551615, 1⟩,
  ⟨"FGE_GRAIN_OVERFLOW", 0x2800, 288, 0x08, 1, 3, 8, 0, false, 1, 0, 0, 18446744073709551615, 1⟩]

/-- Entries of R258. -/
def entriesR258 : List EntryRow := [
  ⟨"BUSHEL_SLOTS", 0x3400, 1, 0x01, 1, 0, 1, 0, false, 0, 64, 0, 255, 1⟩,
  ⟨"BUSHEL_PF_DEPTH_MAX", 0x3400, 1, 0x02, 1, 0, 1, 0, false, 0, 4, 0, 255, 1⟩,
  ⟨"DEFER_ENABLE", 0x3410, 1, 0x01, 1, 5, 1, 4, false, 1, 0, 0, 1, 1⟩,
  ⟨"DEFER_RING_ADDR", 0x3410, 1, 0x02, 1, 2, 4, 4, true, 1, 1044480, 0, 2097151, 64⟩,
  ⟨"DEFER_RING_LOG2", 0x3410, 1, 0x03, 1, 0, 1, 4, true, 1, 6, 2, 8, 1⟩,
  ⟨"DEFER_TAIL_CTR", 0x3410, 1, 0x04, 1, 0, 1, 4, true, 1, 254, 0, 255, 1⟩,
  ⟨"DEFER_HEAD_CTR", 0x3410, 1, 0x05, 1, 0, 1, 4, true, 1, 255, 0, 255, 1⟩,
  ⟨"BACKFILL_ENABLE", 0x3420, 1, 0x01, 1, 5, 1, 4, false, 1, 0, 0, 1, 1⟩,
  ⟨"COMPANION_PARTITION", 0x3420, 1, 0x02, 1, 6, 1, 4, false, 1, 0, 0, 4, 1⟩,
  ⟨"BACKFILL_THRESHOLD", 0x3420, 1, 0x03, 1, 2, 4, 4, false, 1, 4000, 250, 1000000, 1⟩,
  ⟨"PIPE_CHANNEL_MASK", 0x3420, 1, 0x04, 1, 1, 2, 4, true, 1, 65535, 0, 65535, 1⟩,
  ⟨"EXPERTS_LOCAL_MAX", 0x3430, 1, 0x01, 1, 0, 1, 0, false, 0, 64, 0, 255, 1⟩,
  ⟨"EXPERT_K_MAX", 0x3430, 1, 0x02, 1, 0, 1, 0, false, 0, 8, 0, 255, 1⟩,
  ⟨"EXPERT_ARRIVALS", 0x3440, 1, 0x01, 64, 3, 8, 0, false, 1, 0, 0, 18446744073709551615, 1⟩,
  ⟨"BUSHEL_PUSHES", 0x3500, 288, 0x01, 1, 3, 8, 0, true, 1, 0, 0, 18446744073709551615, 1⟩,
  ⟨"BUSHEL_FRAMES_DRAINED", 0x3500, 288, 0x02, 1, 3, 8, 0, true, 1, 0, 0, 18446744073709551615, 1⟩,
  ⟨"BUSHEL_OVERFLOWS", 0x3500, 288, 0x03, 1, 3, 8, 0, false, 1, 0, 0, 18446744073709551615, 1⟩,
  ⟨"BUSHEL_UNDERFLOWS", 0x3500, 288, 0x04, 1, 3, 8, 0, false, 1, 0, 0, 18446744073709551615, 1⟩,
  ⟨"BUSHEL_BAD_FRAMES", 0x3500, 288, 0x05, 1, 3, 8, 0, false, 1, 0, 0, 18446744073709551615, 1⟩,
  ⟨"BUSHEL_DISCARDED", 0x3500, 288, 0x06, 1, 3, 8, 0, false, 1, 0, 0, 18446744073709551615, 1⟩,
  ⟨"BUSHEL_RELEASE_WAIT_CLOCKS", 0x3500, 288, 0x07, 1, 3, 8, 0, true, 1, 0, 0, 18446744073709551615, 1⟩,
  ⟨"DEFER_TAKEN", 0x3500, 288, 0x08, 1, 3, 8, 0, true, 1, 0, 0, 18446744073709551615, 1⟩,
  ⟨"PIPE_WAIT_CLOCKS", 0x3500, 288, 0x09, 1, 3, 8, 0, false, 1, 0, 0, 18446744073709551615, 1⟩,
  ⟨"BACKFILL_SWITCHES", 0x3500, 288, 0x0A, 1, 3, 8, 0, false, 1, 0, 0, 18446744073709551615, 1⟩,
  ⟨"BACKFILL_COMPANION_CLOCKS", 0x3500, 288, 0x0B, 1, 3, 8, 0, false, 1, 0, 0, 18446744073709551615, 1⟩,
  ⟨"BACKFILL_LATE_CLOCKS", 0x3500, 288, 0x0C, 1, 3, 8, 0, false, 1, 0, 0, 18446744073709551615, 1⟩,
  ⟨"EXPERT_ROWS_SENT", 0x3500, 288, 0x0D, 1, 3, 8, 0, true, 1, 0, 0, 18446744073709551615, 1⟩,
  ⟨"EXPERT_DROPS", 0x3500, 288, 0x0E, 1, 3, 8, 0, false, 1, 0, 0, 18446744073709551615, 1⟩,
  ⟨"EXPERT_ROWS_RETURNED", 0x3500, 288, 0x0F, 1, 3, 8, 0, true, 1, 0, 0, 18446744073709551615, 1⟩]

/-- Entries of R288. -/
def entriesR288 : List EntryRow := [
  ⟨"BUCKET_WINDOW", 0x3650, 1, 0x01, 1, 1, 2, 0, false, 0, 256, 0, 65535, 1⟩,
  ⟨"BUCKET_PARAMS_MAX", 0x3650, 1, 0x02, 1, 2, 4, 0, false, 0, 16777216, 0, 4294967295, 1⟩,
  ⟨"BUCKET_SLICE_ALIGN", 0x3650, 1, 0x03, 1, 1, 2, 0, false, 0, 4096, 0, 65535, 1⟩,
  ⟨"BUCKET_AXIS", 0x3650, 1, 0x04, 1, 6, 1, 4, false, 1, 3, 0, 3, 1⟩,
  ⟨"BUCKET_HEADROOM", 0x3650, 1, 0x05, 1, 0, 1, 4, false, 1, 8, 1, 62, 1⟩,
  ⟨"BUCKET_OVERFLOW_STEP", 0x3650, 1, 0x06, 1, 0, 1, 4, false, 1, 4, 1, 16, 1⟩,
  ⟨"BUCKET_SEQ_OPEN", 0x3660, 1, 0x01, 1, 5, 1, 0, true, 0, 0, 0, 1, 1⟩,
  ⟨"BUCKET_SEQ_STEP", 0x3660, 1, 0x02, 1, 2, 4, 0, true, 0, 0, 0, 4294967295, 1⟩,
  ⟨"BUCKET_SEQ_FIRST", 0x3660, 1, 0x03, 1, 1, 2, 0, true, 0, 0, 0, 65535, 1⟩,
  ⟨"BUCKET_SEQ_COUNT", 0x3660, 1, 0x04, 1, 2, 4, 0, true, 0, 0, 0, 4294967295, 1⟩,
  ⟨"BUCKET_SEQ_OLDEST", 0x3660, 1, 0x05, 1, 1, 2, 0, true, 0, 0, 0, 65535, 1⟩,
  ⟨"BUCKET_ADDS", 0x3670, 1, 0x01, 1, 3, 8, 0, true, 1, 0, 0, 18446744073709551615, 1⟩,
  ⟨"BUCKET_ADD_OVERFLOWS", 0x3670, 1, 0x02, 1, 3, 8, 0, false, 1, 0, 0, 18446744073709551615, 1⟩,
  ⟨"BUCKET_EXCHANGES", 0x3670, 1, 0x03, 1, 3, 8, 0, true, 1, 0, 0, 18446744073709551615, 1⟩,
  ⟨"BUCKET_CONTRIB_OVERFLOWS", 0x3670, 1, 0x04, 1, 3, 8, 0, false, 1, 0, 0, 18446744073709551615, 1⟩,
  ⟨"BUCKET_CHECKSUM_MISMATCHES", 0x3670, 1, 0x05, 1, 3, 8, 0, false, 1, 0, 0, 18446744073709551615, 1⟩,
  ⟨"BUCKET_WINDOW_STALL_CLOCKS", 0x3670, 1, 0x06, 1, 3, 8, 0, true, 1, 0, 0, 18446744073709551615, 1⟩,
  ⟨"BUCKET_VERDICT_APPLY", 0x3670, 1, 0x07, 1, 3, 8, 0, true, 1, 0, 0, 18446744073709551615, 1⟩,
  ⟨"BUCKET_VERDICT_SKIP_NONFINITE", 0x3670, 1, 0x08, 1, 3, 8, 0, false, 1, 0, 0, 18446744073709551615, 1⟩,
  ⟨"BUCKET_VERDICT_SKIP_OVERFLOW", 0x3670, 1, 0x09, 1, 3, 8, 0, false, 1, 0, 0, 18446744073709551615, 1⟩,
  ⟨"BUCKET_VERDICT_UNVERIFIED", 0x3670, 1, 0x0A, 1, 3, 8, 0, false, 1, 0, 0, 18446744073709551615, 1⟩,
  ⟨"BUCKET_VERDICT_INCOMPLETE", 0x3670, 1, 0x0B, 1, 3, 8, 0, false, 1, 0, 0, 18446744073709551615, 1⟩,
  ⟨"BUCKET_VERDICT_FAILED", 0x3670, 1, 0x0C, 1, 3, 8, 0, false, 1, 0, 0, 18446744073709551615, 1⟩,
  ⟨"BUCKET_NORM_PASSES", 0x3670, 1, 0x0D, 1, 3, 8, 0, true, 1, 0, 0, 18446744073709551615, 1⟩,
  ⟨"SHARDS_GATHERED", 0x3670, 1, 0x0E, 1, 3, 8, 0, true, 1, 0, 0, 18446744073709551615, 1⟩,
  ⟨"STALE_SHARDS", 0x3670, 1, 0x0F, 1, 3, 8, 0, false, 1, 0, 0, 18446744073709551615, 1⟩,
  ⟨"BUCKET_STEPS_ABANDONED", 0x3670, 1, 0x10, 1, 3, 8, 0, false, 1, 0, 0, 18446744073709551615, 1⟩]

/-- Entries of R310. -/
def entriesR310 : List EntryRow := [
  ⟨"TROY_QUEUE_DEPTH", 0x3680, 1, 0x01, 1, 0, 1, 0, false, 0, 64, 0, 255, 1⟩,
  ⟨"TROY_PROGRAM_SLOTS", 0x3680, 1, 0x02, 1, 0, 1, 0, false, 0, 16, 0, 255, 1⟩,
  ⟨"TROY_MICROOPS_MAX", 0x3680, 1, 0x03, 1, 0, 1, 0, false, 0, 32, 0, 255, 1⟩,
  ⟨"TROY_CONST_TABLES", 0x3680, 1, 0x04, 1, 1, 2, 0, false, 0, 256, 0, 65535, 1⟩,
  ⟨"LEDGER_ENTRIES", 0x3680, 1, 0x05, 1, 2, 4, 0, false, 0, 262144, 0, 4294967295, 1⟩,
  ⟨"LEDGER_BLOCK", 0x3680, 1, 0x06, 1, 1, 2, 0, false, 0, 4096, 0, 65535, 1⟩,
  ⟨"COMMIT_RELEASED_VALID", 0x3690, 1, 0x01, 1, 5, 1, 0, false, 0, 0, 0, 1, 1⟩,
  ⟨"COMMIT_RELEASED_STEP", 0x3690, 1, 0x02, 1, 2, 4, 0, false, 0, 0, 0, 4294967295, 1⟩,
  ⟨"COMMIT_RELEASES", 0x3690, 1, 0x03, 1, 3, 8, 0, false, 1, 0, 0, 18446744073709551615, 1⟩,
  ⟨"COMMIT_RERUN_RELEASES", 0x3690, 1, 0x04, 1, 3, 8, 0, false, 1, 0, 0, 18446744073709551615, 1⟩,
  ⟨"COMMIT_REFUSED", 0x3690, 1, 0x05, 1, 3, 8, 0, false, 1, 0, 0, 18446744073709551615, 1⟩,
  ⟨"TROY_COMMANDS", 0x3700, 24, 0x01, 1, 3, 8, 0, true, 1, 0, 0, 18446744073709551615, 1⟩,
  ⟨"TROY_BLOCKS_UPDATED", 0x3700, 24, 0x02, 1, 3, 8, 0, true, 1, 0, 0, 18446744073709551615, 1⟩,
  ⟨"TROY_BLOCKS_LEDGER_SKIPPED", 0x3700, 24, 0x03, 1, 3, 8, 0, false, 1, 0, 0, 18446744073709551615, 1⟩,
  ⟨"TROY_BLOCKS_VERDICT_SKIPPED", 0x3700, 24, 0x04, 1, 3, 8, 0, false, 1, 0, 0, 18446744073709551615, 1⟩,
  ⟨"TROY_LEDGER_ERRORS", 0x3700, 24, 0x05, 1, 3, 8, 0, false, 1, 0, 0, 18446744073709551615, 1⟩,
  ⟨"TROY_NONFINITE_RESULTS", 0x3700, 24, 0x06, 1, 3, 8, 0, false, 1, 0, 0, 18446744073709551615, 1⟩,
  ⟨"TROY_READ_UNCORRECTABLE", 0x3700, 24, 0x07, 1, 3, 8, 0, false, 1, 0, 0, 18446744073709551615, 1⟩,
  ⟨"TROY_REFUSED", 0x3700, 24, 0x08, 1, 3, 8, 0, false, 1, 0, 0, 18446744073709551615, 1⟩,
  ⟨"TROY_QUEUE_FULL", 0x3700, 24, 0x09, 1, 3, 8, 0, false, 1, 0, 0, 18446744073709551615, 1⟩,
  ⟨"COMMIT_WAIT_CLOCKS", 0x3700, 24, 0x0A, 1, 3, 8, 0, true, 1, 0, 0, 18446744073709551615, 1⟩,
  ⟨"TROY_NONFINITE_ENCODED", 0x3700, 24, 0x0B, 1, 3, 8, 0, false, 1, 0, 0, 18446744073709551615, 1⟩]

/-- Entries of R334. -/
def entriesR334 : List EntryRow := [
  ⟨"HBM_STACKS", 0x4000, 1, 0x01, 1, 0, 1, 0, false, 0, 24, 0, 255, 1⟩,
  ⟨"HBM_PC_PER_STACK", 0x4000, 1, 0x02, 1, 0, 1, 0, false, 0, 32, 0, 255, 1⟩,
  ⟨"HBM_PIN_RATE", 0x4000, 1, 0x03, 1, 2, 4, 0, false, 0, 9600, 0, 4294967295, 1⟩,
  ⟨"HBM_REQUESTS_MAX", 0x4000, 1, 0x04, 1, 1, 2, 0, false, 0, 4096, 0, 65535, 1⟩,
  ⟨"WCB_ENTRIES", 0x4000, 1, 0x05, 1, 1, 2, 0, false, 0, 512, 0, 65535, 1⟩,
  ⟨"WCB_TIMEOUT", 0x4010, 1, 0x01, 1, 2, 4, 4, true, 2, 1000, 100, 100000, 1⟩,
  ⟨"SCRUB_PERIOD", 0x4010, 1, 0x02, 1, 1, 2, 1, true, 2, 24, 0, 8760, 1⟩,
  ⟨"RECORD_RING_MIB", 0x4010, 1, 0x03, 1, 1, 2, 1, false, 2, 0, 0, 4096, 64⟩,
  ⟨"PC_RETIRE_UE_LIMIT", 0x4010, 1, 0x04, 1, 0, 1, 1, true, 2, 4, 1, 255, 1⟩,
  ⟨"HBM_ACTIVE_PCS", 0x4100, 24, 0x01, 1, 0, 1, 0, false, 1, 32, 0, 255, 1⟩,
  ⟨"HBM_ACTIVE_MASK", 0x4100, 24, 0x02, 1, 2, 4, 0, true, 1, 4294967295, 0, 4294967295, 1⟩,
  ⟨"HBM_RETIRE_MARK", 0x4100, 24, 0x03, 1, 2, 4, 1, false, 2, 0, 0, 4294967295, 1⟩,
  ⟨"HBM_CAPACITY", 0x4100, 24, 0x04, 1, 3, 8, 0, false, 1, 24000000000, 0, 18446744073709551615, 1⟩,
  ⟨"HBM_USABLE_TOP", 0x4100, 24, 0x05, 1, 3, 8, 0, false, 1, 0, 0, 18446744073709551615, 1⟩,
  ⟨"HBM_RECORD_BASE", 0x4100, 24, 0x06, 1, 3, 8, 0, true, 1, 0, 0, 18446744073709551615, 1⟩,
  ⟨"HBM_LEDGER_BASE", 0x4100, 24, 0x07, 1, 3, 8, 0, true, 1, 0, 0, 18446744073709551615, 1⟩,
  ⟨"HBM_LOCKET_BASE", 0x4100, 24, 0x08, 1, 3, 8, 0, true, 1, 0, 0, 18446744073709551615, 1⟩,
  ⟨"HBM_RETRAIN_BASE", 0x4100, 24, 0x09, 1, 3, 8, 0, true, 1, 0, 0, 18446744073709551615, 1⟩,
  ⟨"HBM_STACK_FAILED", 0x4100, 24, 0x0A, 1, 5, 1, 0, false, 1, 0, 0, 1, 1⟩,
  ⟨"HBM_READS", 0x4100, 24, 0x10, 1, 3, 8, 0, true, 1, 0, 0, 18446744073709551615, 1⟩,
  ⟨"HBM_WRITES", 0x4100, 24, 0x11, 1, 3, 8, 0, true, 1, 0, 0, 18446744073709551615, 1⟩,
  ⟨"HBM_WCB_MERGES", 0x4100, 24, 0x12, 1, 3, 8, 0, true, 1, 0, 0, 18446744073709551615, 1⟩,
  ⟨"HBM_WCB_RMW", 0x4100, 24, 0x13, 1, 3, 8, 0, true, 1, 0, 0, 18446744073709551615, 1⟩,
  ⟨"HBM_WCB_EVICTIONS", 0x4100, 24, 0x14, 1, 3, 8, 0, true, 1, 0, 0, 18446744073709551615, 1⟩,
  ⟨"HBM_WCB_RMW_LOST", 0x4100, 24, 0x15, 1, 3, 8, 0, false, 1, 0, 0, 18446744073709551615, 1⟩,
  ⟨"HBM_WCB_DISCARDED", 0x4100, 24, 0x16, 1, 3, 8, 0, false, 1, 0, 0, 18446744073709551615, 1⟩,
  ⟨"HBM_QUEUE_FULL_CLOCKS", 0x4100, 24, 0x17, 1, 3, 8, 0, true, 1, 0, 0, 18446744073709551615, 1⟩,
  ⟨"HBM_SCRUB_WRITEBACKS", 0x4100, 24, 0x18, 1, 3, 8, 0, true, 1, 0, 0, 18446744073709551615, 1⟩,
  ⟨"HBM_CA_PARITY_RETRIES", 0x4100, 24, 0x19, 1, 3, 8, 0, true, 1, 0, 0, 18446744073709551615, 1⟩,
  ⟨"HBM_PC_DOWN_WRITES", 0x4100, 24, 0x1A, 1, 3, 8, 0, false, 1, 0, 0, 18446744073709551615, 1⟩,
  ⟨"HBM_PC_CORRECTED", 0x4200, 24, 0x00, 32, 3, 8, 0, false, 1, 0, 0, 18446744073709551615, 1⟩,
  ⟨"HBM_PC_LANE_PAIR", 0x4220, 24, 0x00, 32, 3, 8, 0, false, 1, 0, 0, 18446744073709551615, 1⟩,
  ⟨"HBM_PC_UNCORRECTABLE", 0x4240, 24, 0x00, 32, 3, 8, 0, false, 1, 0, 0, 18446744073709551615, 1⟩,
  ⟨"HBM_PC_TRAIN_FAILS", 0x4260, 24, 0x00, 32, 3, 8, 0, false, 1, 0, 0, 18446744073709551615, 1⟩]

/-- Entries of R362. -/
def entriesR362 : List EntryRow := [
  ⟨"FABRIC_LINKS", 0x5000, 1, 0x01, 1, 0, 1, 0, false, 0, 32, 0, 255, 1⟩,
  ⟨"FABRIC_PORTS_MAX", 0x5000, 1, 0x02, 1, 0, 1, 0, false, 0, 16, 0, 255, 1⟩,
  ⟨"XFL_VERSION", 0x5000, 1, 0x03, 1, 1, 2, 0, false, 0, 258, 0, 65535, 1⟩,
  ⟨"TOPO_MODE", 0x5000, 1, 0x04, 1, 6, 1, 1, false, 2, 0, 0, 1, 1⟩,
  ⟨"LINK_RETRAIN_HOLDOFF", 0x5000, 1, 0x05, 1, 2, 4, 1, true, 2, 10, 1, 10000, 1⟩,
  ⟨"XFL_ACK_TIMEOUT", 0x5000, 1, 0x06, 1, 2, 4, 0, true, 0, 2000, 0, 4294967295, 1⟩,
  ⟨"XFL_RETRY_LIMIT", 0x5000, 1, 0x07, 1, 0, 1, 0, true, 0, 16, 0, 255, 1⟩,
  ⟨"XFL_DOWN_TIMEOUT", 0x5000, 1, 0x08, 1, 2, 4, 0, true, 0, 200, 0, 4294967295, 1⟩,
  ⟨"VC_BUFFER_BYTES", 0x5000, 1, 0x09, 1, 2, 4, 0, true, 0, 16384, 0, 4294967295, 1⟩,
  ⟨"PORT_LINK_MASK", 0x5010, 16, 0x01, 1, 2, 4, 3, false, 2, 0, 0, 4294967295, 1⟩,
  ⟨"PORT_AXIS", 0x5010, 16, 0x02, 1, 6, 1, 3, false, 2, 0, 0, 4, 1⟩,
  ⟨"PORT_DIR", 0x5010, 16, 0x03, 1, 0, 1, 3, false, 2, 0, 0, 1, 1⟩,
  ⟨"PORT_EXPECT_SERIAL", 0x5010, 16, 0x04, 1, 3, 8, 1, false, 2, 0, 0, 18446744073709551615, 1⟩,
  ⟨"PORT_EXPECT_PORT", 0x5010, 16, 0x05, 1, 0, 1, 1, false, 2, 255, 0, 255, 1⟩,
  ⟨"PORT_ENABLE", 0x5010, 16, 0x06, 1, 5, 1, 1, false, 1, 1, 0, 1, 1⟩,
  ⟨"PORT_STATE", 0x5010, 16, 0x07, 1, 6, 1, 0, false, 0, 0, 0, 255, 1⟩,
  ⟨"PORT_ACTIVE_LINKS", 0x5010, 16, 0x08, 1, 0, 1, 0, false, 0, 0, 0, 255, 1⟩,
  ⟨"NEIGH_SERIAL", 0x5010, 16, 0x09, 1, 3, 8, 0, false, 0, 0, 0, 18446744073709551615, 1⟩,
  ⟨"NEIGH_PORT", 0x5010, 16, 0x0A, 1, 0, 1, 0, false, 0, 255, 0, 255, 1⟩,
  ⟨"NEIGH_XFL", 0x5010, 16, 0x0B, 1, 1, 2, 0, true, 0, 0, 0, 65535, 1⟩,
  ⟨"NEIGH_FW_BUILD", 0x5010, 16, 0x0C, 1, 2, 4, 0, true, 0, 0, 0, 4294967295, 1⟩,
  ⟨"NEIGH_NODE", 0x5010, 16, 0x0D, 1, 2, 4, 0, false, 0, 0, 0, 4294967295, 1⟩,
  ⟨"NEIGH_EPOCH", 0x5010, 16, 0x0E, 1, 2, 4, 0, true, 0, 0, 0, 4294967295, 1⟩,
  ⟨"NEIGH_SIGNATURE", 0x5010, 16, 0x0F, 1, 8, 16, 0, true, 0, 0, 0, 340282366920938463463374607431768211455, 1⟩,
  ⟨"TIME_SYNCED", 0x5010, 16, 0x10, 1, 5, 1, 0, false, 0, 0, 0, 1, 1⟩,
  ⟨"TIME_OFFSET", 0x5010, 16, 0x11, 1, 4, 4, 0, true, 0, 0, 0, 4294967295, 1⟩,
  ⟨"TIME_DELAY", 0x5010, 16, 0x12, 1, 2, 4, 0, true, 0, 0, 0, 4294967295, 1⟩,
  ⟨"TIME_ASYM_CORR", 0x5010, 16, 0x13, 1, 4, 4, 1, true, 2, 0, -1000, 1000, 1⟩,
  ⟨"PORT_QUARANTINES", 0x5010, 16, 0x20, 1, 3, 8, 0, false, 1, 0, 0, 18446744073709551615, 1⟩,
  ⟨"PORT_VERSION_HOLDS", 0x5010, 16, 0x21, 1, 3, 8, 0, false, 1, 0, 0, 18446744073709551615, 1⟩,
  ⟨"PORT_ADOPTIONS", 0x5010, 16, 0x22, 1, 3, 8, 0, false, 1, 0, 0, 18446744073709551615, 1⟩,
  ⟨"LINK_SPLIT_PORT", 0x5010, 16, 0x23, 1, 3, 8, 0, false, 1, 0, 0, 18446744073709551615, 1⟩,
  ⟨"TIME_UNSYNC_EVENTS", 0x5010, 16, 0x24, 1, 3, 8, 0, false, 1, 0, 0, 18446744073709551615, 1⟩,
  ⟨"TIME_ROOT_MISMATCH", 0x5010, 16, 0x25, 1, 3, 8, 0, false, 1, 0, 0, 18446744073709551615, 1⟩,
  ⟨"LINK_STATE", 0x5100, 32, 0x01, 1, 6, 1, 0, false, 0, 0, 0, 255, 1⟩,
  ⟨"LINK_SKEW", 0x5100, 32, 0x02, 1, 1, 2, 0, true, 0, 0, 0, 65535, 1⟩,
  ⟨"FEC_WORST_CW", 0x5100, 32, 0x03, 1, 0, 1, 0, false, 0, 0, 0, 255, 1⟩,
  ⟨"XFL_FRAMES_TX", 0x5100, 32, 0x10, 1, 3, 8, 0, true, 1, 0, 0, 18446744073709551615, 1⟩,
  ⟨"XFL_FRAMES_RX", 0x5100, 32, 0x11, 1, 3, 8, 0, true, 1, 0, 0, 18446744073709551615, 1⟩,
  ⟨"XFL_CRC_ERRORS", 0x5100, 32, 0x12, 1, 3, 8, 0, false, 1, 0, 0, 18446744073709551615, 1⟩]

/-- Entries of R362. -/
def entriesR362b : List EntryRow := [
  ⟨"XFL_DUPLICATES", 0x5100, 32, 0x13, 1, 3, 8, 0, true, 1, 0, 0, 18446744073709551615, 1⟩,
  ⟨"XFL_NAKS_SENT", 0x5100, 32, 0x14, 1, 3, 8, 0, true, 1, 0, 0, 18446744073709551615, 1⟩,
  ⟨"XFL_RETRIES", 0x5100, 32, 0x15, 1, 3, 8, 0, false, 1, 0, 0, 18446744073709551615, 1⟩,
  ⟨"XFL_ACK_TIMEOUTS", 0x5100, 32, 0x16, 1, 3, 8, 0, false, 1, 0, 0, 18446744073709551615, 1⟩,
  ⟨"XFL_REPLAY_FULL_CLOCKS", 0x5100, 32, 0x17, 1, 3, 8, 0, true, 1, 0, 0, 18446744073709551615, 1⟩,
  ⟨"FEC_CORRECTED_SYMBOLS", 0x5100, 32, 0x18, 1, 3, 8, 0, true, 1, 0, 0, 18446744073709551615, 1⟩,
  ⟨"FEC_UNCORRECTABLE", 0x5100, 32, 0x19, 1, 3, 8, 0, false, 1, 0, 0, 18446744073709551615, 1⟩,
  ⟨"LINK_DOWNS", 0x5100, 32, 0x1A, 1, 3, 8, 0, false, 1, 0, 0, 18446744073709551615, 1⟩,
  ⟨"LINK_TRAIN_FAILS", 0x5100, 32, 0x1B, 1, 3, 8, 0, false, 1, 0, 0, 18446744073709551615, 1⟩,
  ⟨"LINK_SKEW_FAILS", 0x5100, 32, 0x1C, 1, 3, 8, 0, false, 1, 0, 0, 18446744073709551615, 1⟩,
  ⟨"FTIME_NOW", 0x5200, 1, 0x01, 1, 9, 8, 0, false, 0, 0, 0, 18446744073709551615, 1⟩,
  ⟨"TIME_ROLE", 0x5200, 1, 0x02, 1, 6, 1, 1, false, 2, 0, 0, 2, 1⟩,
  ⟨"TIME_PARENT_MASK", 0x5200, 1, 0x03, 1, 1, 2, 1, true, 2, 65535, 0, 65535, 1⟩,
  ⟨"TIME_PARENT_PORT", 0x5200, 1, 0x04, 1, 0, 1, 0, false, 0, 255, 0, 255, 1⟩,
  ⟨"TIME_HOPS", 0x5200, 1, 0x05, 1, 0, 1, 0, false, 0, 255, 0, 255, 1⟩,
  ⟨"TIME_STATE", 0x5200, 1, 0x06, 1, 6, 1, 0, false, 0, 0, 0, 255, 1⟩,
  ⟨"TIME_SYNC_INTERVAL", 0x5200, 1, 0x07, 1, 2, 4, 1, true, 2, 100, 10, 10000, 1⟩,
  ⟨"TIME_UNSYNC_LIMIT", 0x5200, 1, 0x08, 1, 2, 4, 0, false, 0, 1000, 0, 4294967295, 1⟩,
  ⟨"TIME_STEPS", 0x5200, 1, 0x10, 1, 3, 8, 0, false, 1, 0, 0, 18446744073709551615, 1⟩,
  ⟨"TIME_SLEW_EVENTS", 0x5200, 1, 0x11, 1, 3, 8, 0, false, 1, 0, 0, 18446744073709551615, 1⟩,
  ⟨"TIME_PARENT_CHANGES", 0x5200, 1, 0x12, 1, 3, 8, 0, false, 1, 0, 0, 18446744073709551615, 1⟩]

/-- Entries of R403. -/
def entriesR403 : List EntryRow := [
  ⟨"ROUTE_MODE", 0x5800, 1, 0x01, 1, 6, 1, 4, false, 1, 0, 0, 1, 1⟩,
  ⟨"NODE_ADDR", 0x5800, 1, 0x02, 1, 2, 4, 4, false, 1, 0, 0, 4294967295, 1⟩,
  ⟨"AXIS_SIZES", 0x5800, 1, 0x03, 1, 2, 4, 4, false, 1, 16843009, 0, 4294967295, 1⟩,
  ⟨"AXIS_WRAP", 0x5800, 1, 0x04, 1, 0, 1, 4, false, 1, 15, 0, 255, 1⟩,
  ⟨"JOB_TAG", 0x5800, 1, 0x05, 1, 0, 1, 4, false, 1, 0, 0, 255, 1⟩,
  ⟨"HOP_LIMIT", 0x5800, 1, 0x06, 1, 0, 1, 1, true, 2, 192, 16, 255, 1⟩,
  ⟨"MSG_TIMEOUT", 0x5800, 1, 0x07, 1, 2, 4, 4, true, 2, 1000, 100, 100000, 1⟩,
  ⟨"MSG_RETRIES", 0x5800, 1, 0x08, 1, 0, 1, 4, true, 2, 3, 0, 7, 1⟩,
  ⟨"DUP_HOLD", 0x5800, 1, 0x09, 1, 2, 4, 4, true, 2, 5000, 0, 4294967295, 1⟩,
  ⟨"REORDER_BACKOFF", 0x5800, 1, 0x0A, 1, 2, 4, 1, true, 2, 10, 1, 1000, 1⟩,
  ⟨"DETOUR_STALL_LIMIT", 0x5800, 1, 0x0B, 1, 2, 4, 1, true, 2, 100, 10, 10000, 1⟩,
  ⟨"MSG_OUTSTANDING_MAX", 0x5800, 1, 0x0C, 1, 2, 4, 0, false, 0, 65536, 0, 4294967295, 1⟩,
  ⟨"REORDER_CONTEXTS", 0x5800, 1, 0x0D, 1, 1, 2, 0, false, 0, 16384, 0, 65535, 1⟩,
  ⟨"MSG_OUTSTANDING", 0x5800, 1, 0x0E, 1, 2, 4, 0, true, 0, 0, 0, 4294967295, 1⟩,
  ⟨"CLASS_QUANTUM", 0x5800, 1, 0x10, 4, 1, 2, 1, true, 2, 1024, 256, 16384, 1⟩,
  ⟨"TABLE_CMD", 0x5801, 1, 0x01, 1, 6, 1, 2, false, 0, 0, 1, 4, 1⟩,
  ⟨"TABLE_ACTIVE", 0x5801, 1, 0x02, 1, 0, 1, 0, false, 1, 0, 0, 255, 1⟩,
  ⟨"TABLE_STATE", 0x5801, 1, 0x03, 2, 6, 1, 0, false, 1, 0, 0, 255, 1⟩,
  ⟨"TABLE_EPOCH", 0x5801, 1, 0x05, 2, 2, 4, 1, false, 1, 0, 0, 4294967295, 1⟩,
  ⟨"EPOCH_RESIDENT", 0x5801, 1, 0x07, 2, 2, 4, 0, false, 0, 0, 0, 4294967295, 1⟩,
  ⟨"AXIS_ROUTE", 0x5900, 8, 0x00, 256, 1, 2, 1, true, 1, 0, 0, 65535, 1⟩,
  ⟨"EXCEPTION", 0x5A00, 32, 0x00, 256, 3, 8, 1, true, 1, 0, 0, 18446744073709551615, 1⟩,
  ⟨"PORT_DETOUR", 0x5810, 16, 0x01, 1, 0, 1, 1, true, 2, 0, 0, 255, 1⟩,
  ⟨"PORT_FENCE", 0x5810, 16, 0x02, 1, 5, 1, 1, false, 1, 0, 0, 1, 1⟩,
  ⟨"PORT_DETOURING", 0x5810, 16, 0x03, 1, 5, 1, 0, false, 0, 0, 0, 1, 1⟩,
  ⟨"TRANSIT_BYTES", 0x5810, 16, 0x10, 1, 3, 8, 0, true, 1, 0, 0, 18446744073709551615, 1⟩,
  ⟨"FOREIGN_TAG_BYTES", 0x5810, 16, 0x11, 1, 3, 8, 0, true, 1, 0, 0, 18446744073709551615, 1⟩,
  ⟨"DETOURED_PACKETS", 0x5810, 16, 0x12, 1, 3, 8, 0, false, 1, 0, 0, 18446744073709551615, 1⟩,
  ⟨"FENCED_DROPS", 0x5810, 16, 0x13, 1, 3, 8, 0, false, 1, 0, 0, 18446744073709551615, 1⟩,
  ⟨"MSG_RETRANSMITS", 0x5820, 1, 0x01, 1, 3, 8, 0, false, 1, 0, 0, 18446744073709551615, 1⟩,
  ⟨"MSG_TIMEOUTS", 0x5820, 1, 0x02, 1, 3, 8, 0, false, 1, 0, 0, 18446744073709551615, 1⟩,
  ⟨"MSG_UNREACHABLE", 0x5820, 1, 0x03, 1, 3, 8, 0, false, 1, 0, 0, 18446744073709551615, 1⟩,
  ⟨"DUP_DISCARDS", 0x5820, 1, 0x04, 1, 3, 8, 0, true, 1, 0, 0, 18446744073709551615, 1⟩,
  ⟨"E2E_CRC_ERRORS", 0x5820, 1, 0x05, 1, 3, 8, 0, false, 1, 0, 0, 18446744073709551615, 1⟩,
  ⟨"ABORTED_PACKETS", 0x5820, 1, 0x06, 1, 3, 8, 0, false, 1, 0, 0, 18446744073709551615, 1⟩,
  ⟨"ORDER_HOLDS", 0x5820, 1, 0x07, 1, 3, 8, 0, true, 1, 0, 0, 18446744073709551615, 1⟩,
  ⟨"REORDER_BUSY", 0x5820, 1, 0x08, 1, 3, 8, 0, true, 1, 0, 0, 18446744073709551615, 1⟩,
  ⟨"REORDER_EXPIRED", 0x5820, 1, 0x09, 1, 3, 8, 0, false, 1, 0, 0, 18446744073709551615, 1⟩,
  ⟨"DUP_TABLE_BUSY", 0x5820, 1, 0x0A, 1, 3, 8, 0, true, 1, 0, 0, 18446744073709551615, 1⟩,
  ⟨"HOP_LIMIT_DROPS", 0x5820, 1, 0x0B, 1, 3, 8, 0, false, 1, 0, 0, 18446744073709551615, 1⟩]

/-- Entries of R403. -/
def entriesR403b : List EntryRow := [
  ⟨"NO_ROUTE_DROPS", 0x5820, 1, 0x0C, 1, 3, 8, 0, false, 1, 0, 0, 18446744073709551615, 1⟩,
  ⟨"DETOUR_DROPS", 0x5820, 1, 0x0D, 1, 3, 8, 0, false, 1, 0, 0, 18446744073709551615, 1⟩,
  ⟨"DETOUR_STALL_DROPS", 0x5820, 1, 0x0E, 1, 3, 8, 0, false, 1, 0, 0, 18446744073709551615, 1⟩,
  ⟨"STALE_EPOCH_DROPS", 0x5820, 1, 0x0F, 1, 3, 8, 0, false, 1, 0, 0, 18446744073709551615, 1⟩,
  ⟨"TAG_MISMATCH_ARRIVALS", 0x5820, 1, 0x10, 1, 3, 8, 0, false, 1, 0, 0, 18446744073709551615, 1⟩,
  ⟨"MCAST_EXCLUDED_LEAVES", 0x5820, 1, 0x11, 1, 3, 8, 0, false, 1, 0, 0, 18446744073709551615, 1⟩]

/-- Entries of R426. -/
def entriesR426 : List EntryRow := [
  ⟨"CLASP_CONTEXTS", 0x5C00, 1, 0x01, 1, 1, 2, 0, false, 0, 1024, 0, 65535, 1⟩,
  ⟨"CLASP_BUCKET_CONTEXTS", 0x5C00, 1, 0x02, 1, 1, 2, 0, false, 0, 256, 0, 65535, 1⟩,
  ⟨"COLL_TIMEOUT", 0x5C00, 1, 0x03, 1, 2, 4, 1, true, 2, 10000, 100, 1000000, 1⟩,
  ⟨"ADDER_FORWARD_LIMIT", 0x5C00, 1, 0x04, 1, 2, 4, 0, true, 0, 1000, 0, 4294967295, 1⟩,
  ⟨"GROUP_FORMED", 0x5C10, 4, 0x01, 1, 5, 1, 0, false, 0, 0, 0, 1, 1⟩,
  ⟨"GROUP_STEP", 0x5C10, 4, 0x02, 1, 2, 4, 0, false, 0, 0, 0, 4294967295, 1⟩,
  ⟨"GROUP_SIGNATURE", 0x5C10, 4, 0x03, 1, 8, 16, 0, true, 0, 0, 0, 340282366920938463463374607431768211455, 1⟩,
  ⟨"COLL_COMPLETED", 0x5C10, 4, 0x10, 1, 3, 8, 0, true, 1, 0, 0, 18446744073709551615, 1⟩,
  ⟨"COLL_FAILED", 0x5C10, 4, 0x11, 1, 3, 8, 0, false, 1, 0, 0, 18446744073709551615, 1⟩,
  ⟨"GROUP_REFUSALS", 0x5C10, 4, 0x12, 1, 3, 8, 0, false, 1, 0, 0, 18446744073709551615, 1⟩,
  ⟨"COLL_STEP_MISMATCH", 0x5C10, 4, 0x13, 1, 3, 8, 0, false, 1, 0, 0, 18446744073709551615, 1⟩,
  ⟨"COLL_DISAGREE", 0x5C10, 4, 0x14, 1, 3, 8, 0, false, 1, 0, 0, 18446744073709551615, 1⟩,
  ⟨"COLL_PARK_EXPIRED", 0x5C10, 4, 0x15, 1, 3, 8, 0, false, 1, 0, 0, 18446744073709551615, 1⟩,
  ⟨"COLL_EPOCH_DROPS", 0x5C10, 4, 0x16, 1, 3, 8, 0, false, 1, 0, 0, 18446744073709551615, 1⟩,
  ⟨"CLASP_FORWARD_STALLS", 0x5C10, 4, 0x17, 1, 3, 8, 0, true, 1, 0, 0, 18446744073709551615, 1⟩,
  ⟨"COLL_LAUNCH_LATE", 0x5C10, 4, 0x18, 1, 3, 8, 0, true, 1, 0, 0, 18446744073709551615, 1⟩,
  ⟨"COLL_LAUNCH_UNSYNC", 0x5C10, 4, 0x19, 1, 3, 8, 0, false, 1, 0, 0, 18446744073709551615, 1⟩]

/-- Entries of R451. -/
def entriesR451 : List EntryRow := [
  ⟨"HOST_IPV4", 0x6000, 1, 0x01, 1, 2, 4, 1, false, 2, 0, 0, 4294967295, 1⟩,
  ⟨"HOST_IPV6", 0x6000, 1, 0x02, 1, 8, 16, 1, false, 2, 0, 0, 340282366920938463463374607431768211455, 1⟩,
  ⟨"HOST_VLAN", 0x6000, 1, 0x03, 1, 1, 2, 1, false, 2, 0, 0, 4094, 1⟩,
  ⟨"HOST_DSCP", 0x6000, 1, 0x04, 1, 0, 1, 1, true, 2, 0, 0, 63, 1⟩,
  ⟨"CHP_UDP_PORT", 0x6000, 1, 0x05, 1, 1, 2, 1, false, 2, 47000, 1024, 65535, 1⟩,
  ⟨"PTP_DOMAIN", 0x6000, 1, 0x06, 1, 0, 1, 1, true, 2, 0, 0, 255, 1⟩,
  ⟨"MACSEC_ENABLE", 0x6010, 1, 0x01, 1, 5, 1, 1, false, 2, 0, 0, 1, 1⟩,
  ⟨"MACSEC_SAK", 0x6010, 1, 0x02, 1, 8, 45, 2, true, 1, 0, 0, 2348542582773833227889480596789337027375682548908319870707290971532209025114608443463698998384768703031934975, 1⟩,
  ⟨"MACSEC_REPLAY_WINDOW", 0x6010, 1, 0x03, 1, 2, 4, 1, true, 2, 64, 0, 65536, 1⟩,
  ⟨"HOST_KEY_DIGEST", 0x6020, 1, 0x01, 4, 8, 32, 1, false, 2, 0, 0, 115792089237316195423570985008687907853269984665640564039457584007913129639935, 1⟩,
  ⟨"CHP_SESSIONS_OPEN", 0x6020, 1, 0x10, 1, 0, 1, 0, false, 0, 0, 0, 255, 1⟩,
  ⟨"CHP_WINDOW", 0x6030, 1, 0x01, 1, 1, 2, 1, true, 2, 256, 16, 1024, 1⟩,
  ⟨"CHP_RTO", 0x6030, 1, 0x02, 1, 2, 4, 1, true, 2, 200, 20, 100000, 1⟩,
  ⟨"CHP_RETX_LIMIT", 0x6030, 1, 0x03, 1, 0, 1, 1, true, 2, 8, 1, 32, 1⟩,
  ⟨"CHP_ACK_DELAY", 0x6030, 1, 0x04, 1, 2, 4, 1, true, 2, 5, 1, 1000, 1⟩,
  ⟨"CHP_IDLE_TIMEOUT", 0x6030, 1, 0x05, 1, 2, 4, 1, false, 2, 10000, 100, 600000, 1⟩,
  ⟨"RECORD_STATE", 0x6040, 1, 0x01, 1, 6, 1, 0, false, 0, 0, 0, 255, 1⟩,
  ⟨"HOST_RX_DISCARDS", 0x6100, 1, 0x01, 1, 3, 8, 0, false, 1, 0, 0, 18446744073709551615, 1⟩,
  ⟨"MACSEC_DROPS", 0x6100, 1, 0x02, 1, 3, 8, 0, false, 1, 0, 0, 18446744073709551615, 1⟩,
  ⟨"CHP_TAG_FAILURES", 0x6100, 1, 0x03, 1, 3, 8, 0, false, 1, 0, 0, 18446744073709551615, 1⟩,
  ⟨"CHP_SESSIONS_REFUSED", 0x6100, 1, 0x04, 1, 3, 8, 0, false, 1, 0, 0, 18446744073709551615, 1⟩,
  ⟨"CHP_SESSIONS_LOST", 0x6100, 1, 0x05, 1, 3, 8, 0, false, 1, 0, 0, 18446744073709551615, 1⟩,
  ⟨"CHP_RETRANSMITS", 0x6100, 1, 0x06, 1, 3, 8, 0, true, 1, 0, 0, 18446744073709551615, 1⟩,
  ⟨"CHP_DUP_RX", 0x6100, 1, 0x07, 1, 3, 8, 0, true, 1, 0, 0, 18446744073709551615, 1⟩,
  ⟨"CHP_ECN_ECHOES", 0x6100, 1, 0x08, 1, 3, 8, 0, true, 1, 0, 0, 18446744073709551615, 1⟩,
  ⟨"CHP_REQ_FAILED", 0x6100, 1, 0x09, 1, 3, 8, 0, false, 1, 0, 0, 18446744073709551615, 1⟩,
  ⟨"RING_ABANDONED", 0x6100, 1, 0x0A, 1, 3, 8, 0, false, 1, 0, 0, 18446744073709551615, 1⟩,
  ⟨"RECORD_OVERWRITTEN", 0x6100, 1, 0x0B, 1, 3, 8, 0, true, 1, 0, 0, 18446744073709551615, 1⟩,
  ⟨"RECORD_FULL_STOPS", 0x6100, 1, 0x0C, 1, 3, 8, 0, false, 1, 0, 0, 18446744073709551615, 1⟩,
  ⟨"REPLAY_REPLIES_DROPPED", 0x6100, 1, 0x0D, 1, 3, 8, 0, true, 1, 0, 0, 18446744073709551615, 1⟩]

/-- Entries of R476. -/
def entriesR476 : List EntryRow := [
  ⟨"SERIAL", 0x1000, 1, 0x01, 1, 3, 8, 0, false, 1, 0, 0, 18446744073709551615, 1⟩,
  ⟨"PART_NUMBER", 0x1000, 1, 0x02, 1, 7, 32, 0, false, 1, 0, 0, 115792089237316195423570985008687907853269984665640564039457584007913129639935, 1⟩,
  ⟨"GRADE", 0x1000, 1, 0x03, 1, 6, 1, 0, false, 1, 0, 0, 255, 1⟩,
  ⟨"STEPPING", 0x1000, 1, 0x04, 1, 0, 1, 0, false, 1, 176, 0, 255, 1⟩,
  ⟨"FW_BUILD", 0x1000, 1, 0x05, 1, 2, 4, 0, false, 0, 0, 0, 4294967295, 1⟩,
  ⟨"FW_SLOT", 0x1000, 1, 0x06, 1, 6, 1, 0, false, 0, 0, 0, 255, 1⟩,
  ⟨"ROM_VERSION", 0x1000, 1, 0x07, 1, 1, 2, 0, true, 1, 0, 0, 65535, 1⟩,
  ⟨"CHAIN_MAC", 0x1000, 1, 0x08, 1, 8, 6, 0, true, 1, 0, 0, 281474976710655, 1⟩,
  ⟨"JOB_STATE", 0x1100, 1, 0x01, 1, 6, 1, 0, false, 1, 0, 0, 255, 1⟩,
  ⟨"JOB_CMD", 0x1100, 1, 0x02, 1, 6, 1, 2, false, 0, 0, 1, 2, 1⟩,
  ⟨"JOB_START_TIME", 0x1100, 1, 0x03, 1, 9, 8, 0, false, 1, 0, 0, 18446744073709551615, 1⟩,
  ⟨"JOB_SIGNATURE_STEP", 0x1110, 1, 0x01, 1, 2, 4, 1, true, 0, 0, 0, 4294967295, 1⟩,
  ⟨"JOB_SIGNATURE", 0x1110, 1, 0x02, 1, 8, 16, 0, false, 0, 0, 0, 340282366920938463463374607431768211455, 1⟩,
  ⟨"CHAIN_ID", 0x7000, 1, 0x01, 1, 0, 1, 0, false, 1, 0, 0, 255, 1⟩,
  ⟨"CHAIN_STRAP", 0x7000, 1, 0x02, 1, 0, 1, 0, false, 0, 0, 0, 255, 1⟩,
  ⟨"CHAIN_ID_SOURCE", 0x7000, 1, 0x03, 1, 6, 1, 0, false, 1, 2, 0, 255, 1⟩,
  ⟨"PLCA_TO_TIMER", 0x7000, 1, 0x04, 1, 0, 1, 1, true, 2, 32, 1, 255, 1⟩,
  ⟨"PLCA_MAX_BURST", 0x7000, 1, 0x05, 1, 0, 1, 1, true, 2, 0, 0, 255, 1⟩,
  ⟨"PLCA_BURST_TIMER", 0x7000, 1, 0x06, 1, 0, 1, 1, true, 2, 128, 1, 255, 1⟩,
  ⟨"AHM_UDP_PORT", 0x7000, 1, 0x07, 1, 1, 2, 1, false, 2, 47100, 1024, 65535, 1⟩,
  ⟨"AHM_ANSWER_LIMIT", 0x7000, 1, 0x08, 1, 2, 4, 0, false, 0, 2000, 0, 4294967295, 1⟩,
  ⟨"DICT_FLASH_RESTORE", 0x7001, 1, 0x01, 1, 5, 1, 2, false, 0, 0, 0, 1, 1⟩,
  ⟨"AHM_REQUESTS", 0x7010, 1, 0x01, 1, 3, 8, 0, true, 1, 0, 0, 18446744073709551615, 1⟩,
  ⟨"AHM_DISCARDS", 0x7010, 1, 0x02, 1, 3, 8, 0, false, 1, 0, 0, 18446744073709551615, 1⟩,
  ⟨"AHM_DUPLICATES", 0x7010, 1, 0x03, 1, 3, 8, 0, true, 1, 0, 0, 18446744073709551615, 1⟩,
  ⟨"CHAIN_TX_DISCARDS", 0x7010, 1, 0x04, 1, 3, 8, 0, false, 1, 0, 0, 18446744073709551615, 1⟩,
  ⟨"CHAIN_CLAIMS", 0x7010, 1, 0x05, 1, 3, 8, 0, false, 1, 0, 0, 18446744073709551615, 1⟩,
  ⟨"CHAIN_CLAIM_COLLISIONS", 0x7010, 1, 0x06, 1, 3, 8, 0, false, 1, 0, 0, 18446744073709551615, 1⟩,
  ⟨"CHAIN_ID_CONFLICTS", 0x7010, 1, 0x07, 1, 3, 8, 0, false, 1, 0, 0, 18446744073709551615, 1⟩,
  ⟨"CHAIN_STRAP_INVALID", 0x7010, 1, 0x08, 1, 3, 8, 0, false, 1, 0, 0, 18446744073709551615, 1⟩,
  ⟨"DICT_WRITES", 0x7010, 1, 0x09, 1, 3, 8, 0, true, 1, 0, 0, 18446744073709551615, 1⟩,
  ⟨"DICT_WRITES_REFUSED", 0x7010, 1, 0x0A, 1, 3, 8, 0, false, 1, 0, 0, 18446744073709551615, 1⟩,
  ⟨"DICT_FLASH_COMMITS", 0x7010, 1, 0x0B, 1, 3, 8, 0, true, 1, 0, 0, 18446744073709551615, 1⟩]

/-- Entries of R497. -/
def entriesR497 : List EntryRow := [
  ⟨"ENGINE_WDT", 0x8000, 1, 0x01, 1, 2, 4, 1, true, 2, 50, 5, 10000, 1⟩,
  ⟨"CORE_WDT", 0x8000, 1, 0x02, 1, 2, 4, 1, true, 2, 100, 10, 10000, 1⟩,
  ⟨"HEARTBEAT_PERIOD", 0x8000, 1, 0x03, 1, 1, 2, 0, true, 0, 1000, 0, 65535, 1⟩,
  ⟨"HEARTBEAT_MISS_LIMIT", 0x8000, 1, 0x04, 1, 0, 1, 0, true, 0, 10, 0, 255, 1⟩,
  ⟨"WDT_ENABLE", 0x8000, 1, 0x05, 1, 5, 1, 1, true, 1, 1, 0, 1, 1⟩,
  ⟨"RESET_REQUEST", 0x8010, 1, 0x01, 1, 2, 4, 2, false, 0, 0, 0, 4294967295, 1⟩,
  ⟨"RESET_LIMIT", 0x8011, 1, 0x01, 7, 2, 4, 0, true, 0, 0, 0, 4294967295, 1⟩,
  ⟨"FENCED_DIES", 0x8020, 1, 0x01, 1, 8, 9, 0, false, 0, 0, 0, 4722366482869645213695, 1⟩,
  ⟨"FENCED_SETTINGS", 0x8020, 1, 0x02, 1, 2, 4, 0, false, 0, 0, 0, 4294967295, 1⟩,
  ⟨"FENCED_RIMS", 0x8020, 1, 0x03, 1, 0, 1, 0, false, 0, 0, 0, 255, 1⟩,
  ⟨"RESETS", 0x8030, 1, 0x01, 7, 3, 8, 0, false, 1, 0, 0, 18446744073709551615, 1⟩,
  ⟨"ESCALATIONS", 0x8031, 1, 0x01, 7, 3, 8, 0, false, 1, 0, 0, 18446744073709551615, 1⟩,
  ⟨"DIES_FENCED_TOTAL", 0x8032, 1, 0x01, 1, 3, 8, 0, false, 1, 0, 0, 18446744073709551615, 1⟩,
  ⟨"SETTINGS_FENCED_TOTAL", 0x8032, 1, 0x02, 1, 3, 8, 0, false, 1, 0, 0, 18446744073709551615, 1⟩,
  ⟨"RIMS_FENCED_TOTAL", 0x8032, 1, 0x03, 1, 3, 8, 0, false, 1, 0, 0, 18446744073709551615, 1⟩,
  ⟨"RESET_REQUESTS_MERGED", 0x8033, 1, 0x01, 1, 3, 8, 0, true, 1, 0, 0, 18446744073709551615, 1⟩,
  ⟨"LOCKETS_CAPTURED", 0x8040, 1, 0x01, 1, 3, 8, 0, false, 1, 0, 0, 18446744073709551615, 1⟩,
  ⟨"LOCKET_ACCESS_TIMEOUTS", 0x8040, 1, 0x02, 1, 3, 8, 0, false, 1, 0, 0, 18446744073709551615, 1⟩,
  ⟨"LOCKET_ACCESSES_SKIPPED", 0x8040, 1, 0x03, 1, 3, 8, 0, true, 1, 0, 0, 18446744073709551615, 1⟩,
  ⟨"LOCKETS_TRUNCATED", 0x8040, 1, 0x04, 1, 3, 8, 0, false, 1, 0, 0, 18446744073709551615, 1⟩,
  ⟨"LOCKETS_ABANDONED", 0x8040, 1, 0x05, 1, 3, 8, 0, false, 1, 0, 0, 18446744073709551615, 1⟩,
  ⟨"LOCKET_CAPTURE_LIMIT", 0x8041, 1, 0x01, 1, 2, 4, 0, true, 0, 200, 0, 4294967295, 1⟩,
  ⟨"LOCKET_ACCESS_TIMEOUT", 0x8041, 1, 0x02, 1, 2, 4, 0, true, 0, 20, 0, 4294967295, 1⟩,
  ⟨"LOCKET_LAYOUT", 0x8041, 1, 0x03, 1, 0, 1, 0, true, 0, 1, 0, 255, 1⟩,
  ⟨"LOCKET_WINDOW_SETTING", 0x8042, 1, 0x01, 1, 0, 1, 1, false, 0, 0, 0, 23, 1⟩,
  ⟨"LOCKET_WINDOW_OFFSET", 0x8042, 1, 0x02, 1, 2, 4, 1, false, 0, 0, 0, 67108863, 64⟩,
  ⟨"LOCKET_WINDOW_DATA", 0x8042, 1, 0x03, 1, 8, 64, 0, false, 0, 0, 0, 13407807929942597099574024998205846127479365820592393377723561443721764030073546976801874298166903427690031858186486050853753882811946569946433649006084095, 1⟩,
  ⟨"LOCKET_LAST", 0x8050, 24, 0x01, 1, 2, 4, 0, false, 1, 4294967295, 0, 4294967295, 1⟩,
  ⟨"LOCKET_NEXT", 0x8050, 24, 0x02, 1, 2, 4, 0, true, 1, 0, 0, 4294967295, 1⟩,
  ⟨"ENGINE_WDT_EXPIRIES", 0x8400, 288, 0x01, 1, 3, 8, 0, false, 1, 0, 0, 18446744073709551615, 1⟩,
  ⟨"CORE_WDT_EXPIRIES", 0x8400, 288, 0x02, 1, 3, 8, 0, false, 1, 0, 0, 18446744073709551615, 1⟩,
  ⟨"HEARTBEAT_MISSES", 0x8600, 72, 0x01, 1, 3, 8, 0, true, 1, 0, 0, 18446744073709551615, 1⟩,
  ⟨"DIE_HANGS", 0x8600, 72, 0x02, 1, 3, 8, 0, false, 1, 0, 0, 18446744073709551615, 1⟩,
  ⟨"HEARTBEAT_MISSES", 0x8660, 24, 0x01, 1, 3, 8, 0, true, 1, 0, 0, 18446744073709551615, 1⟩,
  ⟨"DIE_HANGS", 0x8660, 24, 0x02, 1, 3, 8, 0, false, 1, 0, 0, 18446744073709551615, 1⟩,
  ⟨"HEARTBEAT_MISSES", 0x8680, 4, 0x01, 1, 3, 8, 0, true, 1, 0, 0, 18446744073709551615, 1⟩,
  ⟨"DIE_HANGS", 0x8680, 4, 0x02, 1, 3, 8, 0, false, 1, 0, 0, 18446744073709551615, 1⟩]

/-- Entries of R515. -/
def entriesR515 : List EntryRow := [
  ⟨"REDUNDANCY_ENABLE", 0x2030, 1, 0x01, 1, 5, 1, 4, false, 1, 0, 0, 1, 1⟩,
  ⟨"ROTATION_ENABLE", 0x2030, 1, 0x02, 1, 5, 1, 4, false, 1, 1, 0, 1, 1⟩,
  ⟨"ROTATION_PERIOD", 0x2030, 1, 0x03, 1, 2, 4, 4, false, 1, 500, 16, 1000000, 1⟩,
  ⟨"HALLMARK_TESTS", 0x2A00, 288, 0x01, 1, 3, 8, 0, true, 1, 0, 0, 18446744073709551615, 1⟩,
  ⟨"HALLMARK_PASSES", 0x2A00, 288, 0x02, 1, 3, 8, 0, true, 1, 0, 0, 18446744073709551615, 1⟩,
  ⟨"HALLMARK_FAILS", 0x2A00, 288, 0x03, 1, 3, 8, 0, false, 1, 0, 0, 18446744073709551615, 1⟩,
  ⟨"SWAPS", 0x2A00, 288, 0x04, 1, 3, 8, 0, true, 1, 0, 0, 18446744073709551615, 1⟩,
  ⟨"SWAP_NOT_QUIESCENT", 0x2A00, 288, 0x05, 1, 3, 8, 0, false, 1, 0, 0, 18446744073709551615, 1⟩,
  ⟨"TESTS_DEFERRED_NO_SPARE", 0x2A00, 288, 0x06, 1, 3, 8, 0, false, 1, 0, 0, 18446744073709551615, 1⟩,
  ⟨"TESTS_OVERDUE", 0x2A00, 288, 0x07, 1, 3, 8, 0, false, 1, 0, 0, 18446744073709551615, 1⟩,
  ⟨"ASSAY_SUSPECTS", 0x2A00, 288, 0x08, 1, 3, 8, 0, false, 1, 0, 0, 18446744073709551615, 1⟩,
  ⟨"LOCKSTEP_MISMATCHES", 0x2A00, 288, 0x09, 1, 3, 8, 0, false, 1, 0, 0, 18446744073709551615, 1⟩,
  ⟨"QUICK_CHECK_FAILS", 0x2A00, 288, 0x0A, 1, 3, 8, 0, false, 1, 0, 0, 18446744073709551615, 1⟩,
  ⟨"HALLMARK_ABANDONED", 0x2A00, 288, 0x0B, 1, 3, 8, 0, true, 1, 0, 0, 18446744073709551615, 1⟩,
  ⟨"LAST_CLEAN_STEP", 0x2C00, 288, 0x01, 17, 2, 4, 0, false, 1, 4294967295, 0, 4294967295, 1⟩,
  ⟨"SUSPECT_MASK", 0x2C00, 288, 0x20, 1, 2, 4, 0, false, 1, 0, 0, 4294967295, 1⟩,
  ⟨"FAILED_MASK", 0x2C00, 288, 0x21, 1, 2, 4, 1, false, 2, 0, 0, 4294967295, 1⟩,
  ⟨"NEXT_DUE_STEP", 0x2C00, 288, 0x22, 1, 2, 4, 0, true, 1, 0, 0, 4294967295, 1⟩,
  ⟨"SWAP_STEP", 0x2C00, 288, 0x23, 1, 2, 4, 0, true, 1, 0, 0, 4294967295, 1⟩,
  ⟨"TEST_TARGET", 0x2C00, 288, 0x24, 1, 0, 1, 0, true, 1, 255, 0, 255, 1⟩,
  ⟨"UNDER_TEST", 0x2C00, 288, 0x25, 1, 0, 1, 0, true, 0, 255, 0, 255, 1⟩,
  ⟨"HALLMARK_INSTALL", 0x8100, 1, 0x01, 1, 3, 8, 2, false, 0, 0, 0, 18446744073709551615, 1⟩,
  ⟨"HALLMARK_INSTALL_STATUS", 0x8100, 1, 0x02, 1, 6, 1, 0, false, 0, 0, 0, 255, 1⟩,
  ⟨"HALLMARK_REMOVE", 0x8100, 1, 0x03, 1, 2, 4, 2, false, 0, 0, 0, 4294967295, 1⟩,
  ⟨"HALLMARK_GUARD_VOLT", 0x8100, 1, 0x04, 1, 4, 4, 0, true, 0, 4294967266, 0, 4294967295, 1⟩,
  ⟨"HALLMARK_GUARD_CLOCK", 0x8100, 1, 0x05, 1, 4, 4, 0, true, 0, 50, 0, 4294967295, 1⟩,
  ⟨"HALLMARK_QUICK_LIMIT", 0x8100, 1, 0x06, 1, 2, 4, 0, true, 0, 600, 0, 4294967295, 1⟩,
  ⟨"HALLMARK_BUNDLE_ID", 0x8110, 1, 0x01, 8, 2, 4, 0, false, 2, 0, 0, 4294967295, 1⟩,
  ⟨"HALLMARK_BUNDLE_VERSION", 0x8111, 1, 0x01, 8, 2, 4, 0, true, 2, 0, 0, 4294967295, 1⟩,
  ⟨"HALLMARK_INSTALLS", 0x8120, 1, 0x01, 1, 3, 8, 0, true, 1, 0, 0, 18446744073709551615, 1⟩,
  ⟨"HALLMARK_INSTALL_REFUSED", 0x8120, 1, 0x02, 1, 3, 8, 0, false, 1, 0, 0, 18446744073709551615, 1⟩]

/-- Entries of R534. -/
def entriesR534 : List EntryRow := [
  ⟨"KEY_DIGEST", 0xA000, 1, 0x01, 4, 8, 32, 0, true, 1, 0, 0, 115792089237316195423570985008687907853269984665640564039457584007913129639935, 1⟩,
  ⟨"KEY_REVOKED", 0xA001, 1, 0x01, 1, 0, 1, 0, false, 1, 0, 0, 255, 1⟩,
  ⟨"FUSED_SVN", 0xA001, 1, 0x02, 1, 0, 1, 0, false, 1, 0, 0, 255, 1⟩,
  ⟨"RUNNING_SVN", 0xA001, 1, 0x03, 1, 0, 1, 0, false, 0, 0, 0, 255, 1⟩,
  ⟨"FW_KEY_SLOT", 0xA001, 1, 0x04, 1, 0, 1, 0, false, 0, 0, 0, 255, 1⟩,
  ⟨"FW_NEXT_SLOT", 0xA001, 1, 0x05, 1, 6, 1, 1, false, 2, 0, 0, 1, 1⟩,
  ⟨"BOOT_MODE_STRAP", 0xA001, 1, 0x06, 1, 0, 1, 0, true, 0, 0, 0, 255, 1⟩,
  ⟨"ROLLBACK_COMMIT", 0xA001, 1, 0x07, 1, 5, 1, 2, false, 0, 0, 0, 1, 1⟩,
  ⟨"FW_UPDATE", 0xA002, 1, 0x01, 1, 3, 8, 2, false, 0, 0, 0, 18446744073709551615, 1⟩,
  ⟨"FW_UPDATE_STATUS", 0xA002, 1, 0x02, 1, 6, 1, 0, false, 0, 0, 0, 255, 1⟩,
  ⟨"FW_STAGE_OFFSET", 0xA002, 1, 0x03, 1, 2, 4, 1, true, 0, 0, 0, 16777215, 32⟩,
  ⟨"FW_STAGE_DATA", 0xA002, 1, 0x04, 1, 8, 32, 2, true, 0, 0, 0, 115792089237316195423570985008687907853269984665640564039457584007913129639935, 1⟩,
  ⟨"DEVICE_ID_PUBKEY", 0xA010, 1, 0x01, 1, 8, 57, 0, false, 1, 0, 0, 186070713419675363980626894819329160794532188335953423432061490990243657757029868371504908982723472783555205531204141550984858016925351935, 1⟩,
  ⟨"DEVICE_CERT", 0xA011, 1, 0x01, 5, 8, 64, 0, false, 2, 0, 0, 13407807929942597099574024998205846127479365820592393377723561443721764030073546976801874298166903427690031858186486050853753882811946569946433649006084095, 1⟩,
  ⟨"SIGNET_NONCE", 0xA020, 1, 0x01, 1, 8, 32, 2, false, 0, 0, 0, 115792089237316195423570985008687907853269984665640564039457584007913129639935, 1⟩,
  ⟨"SIGNET_REPORT", 0xA020, 1, 0x02, 5, 8, 64, 0, false, 0, 0, 0, 13407807929942597099574024998205846127479365820592393377723561443721764030073546976801874298166903427690031858186486050853753882811946569946433649006084095, 1⟩,
  ⟨"DEBUG_CHALLENGE", 0xA030, 1, 0x01, 1, 8, 32, 0, false, 0, 0, 0, 115792089237316195423570985008687907853269984665640564039457584007913129639935, 1⟩,
  ⟨"DEBUG_AUTH", 0xA030, 1, 0x02, 4, 8, 64, 2, false, 0, 0, 0, 13407807929942597099574024998205846127479365820592393377723561443721764030073546976801874298166903427690031858186486050853753882811946569946433649006084095, 1⟩,
  ⟨"DEBUG_STATE", 0xA030, 1, 0x06, 1, 0, 1, 0, false, 0, 0, 0, 255, 1⟩,
  ⟨"DEBUG_LOCK", 0xA030, 1, 0x07, 1, 5, 1, 2, false, 0, 0, 0, 1, 1⟩,
  ⟨"BOOT_IMAGE_INVALID", 0xA100, 1, 0x01, 1, 3, 8, 0, false, 1, 0, 0, 18446744073709551615, 1⟩,
  ⟨"BOOT_VERIFY_FAILS", 0xA100, 1, 0x02, 1, 3, 8, 0, false, 1, 0, 0, 18446744073709551615, 1⟩,
  ⟨"BOOT_REVOKED_REFUSED", 0xA100, 1, 0x03, 1, 3, 8, 0, false, 1, 0, 0, 18446744073709551615, 1⟩,
  ⟨"BOOT_ROLLBACK_REFUSED", 0xA100, 1, 0x04, 1, 3, 8, 0, false, 1, 0, 0, 18446744073709551615, 1⟩,
  ⟨"BOOT_FALLBACKS", 0xA100, 1, 0x05, 1, 3, 8, 0, false, 1, 0, 0, 18446744073709551615, 1⟩,
  ⟨"BOOT_VERIFY_DISAGREE", 0xA100, 1, 0x06, 1, 3, 8, 0, false, 1, 0, 0, 18446744073709551615, 1⟩,
  ⟨"BOOT_RECOVERY_ENTRIES", 0xA100, 1, 0x07, 1, 3, 8, 0, false, 1, 0, 0, 18446744073709551615, 1⟩,
  ⟨"BOOT_STRAP_INVALID", 0xA100, 1, 0x08, 1, 3, 8, 0, false, 1, 0, 0, 18446744073709551615, 1⟩,
  ⟨"FW_UPDATE_REFUSED", 0xA100, 1, 0x09, 1, 3, 8, 0, false, 1, 0, 0, 18446744073709551615, 1⟩,
  ⟨"SIGNET_REPORTS", 0xA100, 1, 0x0A, 1, 3, 8, 0, true, 1, 0, 0, 18446744073709551615, 1⟩,
  ⟨"DEBUG_AUTH_GRANTS", 0xA100, 1, 0x0B, 1, 3, 8, 0, false, 1, 0, 0, 18446744073709551615, 1⟩,
  ⟨"DEBUG_AUTH_REFUSED", 0xA100, 1, 0x0C, 1, 3, 8, 0, false, 1, 0, 0, 18446744073709551615, 1⟩]

/-- Entries of R548. -/
def entriesR548 : List EntryRow := [
  ⟨"PKG_POWER_LIMIT", 0x9000, 1, 0x01, 1, 2, 4, 1, false, 2, 8000, 2000, 8000, 1⟩,
  ⟨"PKG_POWER", 0x9000, 1, 0x02, 1, 2, 4, 0, false, 0, 0, 0, 4294967295, 1⟩,
  ⟨"POWER_WINDOW", 0x9000, 1, 0x03, 1, 1, 2, 0, true, 0, 10, 0, 65535, 1⟩,
  ⟨"THERMTRIP_SENSOR", 0x9000, 1, 0x04, 1, 1, 2, 0, false, 2, 65535, 0, 65535, 1⟩,
  ⟨"POWER_LIMIT_WINDOWS", 0x9000, 1, 0x10, 1, 3, 8, 0, false, 1, 0, 0, 18446744073709551615, 1⟩,
  ⟨"PROCHOT_IN_ASSERTIONS", 0x9000, 1, 0x11, 1, 3, 8, 0, false, 1, 0, 0, 18446744073709551615, 1⟩,
  ⟨"REFCLK_LOSS", 0x9000, 1, 0x12, 1, 3, 8, 0, false, 1, 0, 0, 18446744073709551615, 1⟩,
  ⟨"REFCLK156_LOSS", 0x9001, 1, 0x01, 4, 3, 8, 0, false, 1, 0, 0, 18446744073709551615, 1⟩,
  ⟨"SETTING_POWER", 0x9010, 24, 0x01, 1, 2, 4, 0, false, 0, 0, 0, 4294967295, 1⟩,
  ⟨"VIN_STRETCHED", 0x9010, 24, 0x02, 1, 5, 1, 0, true, 0, 0, 0, 1, 1⟩,
  ⟨"VIN_WARNINGS", 0x9010, 24, 0x10, 1, 3, 8, 0, false, 1, 0, 0, 18446744073709551615, 1⟩,
  ⟨"VIN_POWERFAILS", 0x9010, 24, 0x11, 1, 3, 8, 0, false, 1, 0, 0, 18446744073709551615, 1⟩,
  ⟨"HBM_POWERFAIL_LOST", 0x9010, 24, 0x12, 1, 3, 8, 0, false, 1, 0, 0, 18446744073709551615, 1⟩,
  ⟨"VIN_STRETCH_NS", 0x9010, 24, 0x13, 1, 3, 8, 0, true, 1, 0, 0, 18446744073709551615, 1⟩,
  ⟨"CLUSTER_MV", 0x9100, 288, 0x01, 1, 1, 2, 0, true, 0, 0, 0, 65535, 1⟩,
  ⟨"CLUSTER_MHZ", 0x9100, 288, 0x02, 1, 1, 2, 0, false, 0, 1700, 0, 65535, 1⟩,
  ⟨"CLUSTER_STEPS", 0x9100, 288, 0x03, 1, 2, 4, 0, true, 0, 1052688, 0, 4294967295, 1⟩,
  ⟨"THERMAL_THROTTLE_US", 0x9100, 288, 0x10, 1, 3, 8, 0, false, 1, 0, 0, 18446744073709551615, 1⟩,
  ⟨"RAIL_VR", 0x9300, 50, 0x01, 1, 2, 4, 1, false, 2, 0, 0, 4294967295, 1⟩,
  ⟨"RAIL_MV", 0x9300, 50, 0x02, 1, 1, 2, 0, false, 0, 0, 0, 65535, 1⟩,
  ⟨"RAIL_MA", 0x9300, 50, 0x03, 1, 2, 4, 0, false, 0, 0, 0, 4294967295, 1⟩,
  ⟨"RAIL_VR_TEMP", 0x9300, 50, 0x04, 1, 4, 4, 0, true, 0, 0, 0, 4294967295, 1⟩,
  ⟨"RAIL_EXCURSIONS", 0x9300, 50, 0x10, 1, 3, 8, 0, false, 1, 0, 0, 18446744073709551615, 1⟩,
  ⟨"RAIL_FAULTS", 0x9300, 50, 0x11, 1, 3, 8, 0, false, 1, 0, 0, 18446744073709551615, 1⟩,
  ⟨"TEMP", 0x9500, 2, 0x00, 256, 4, 4, 0, false, 0, 0, 0, 4294967295, 1⟩,
  ⟨"OVER_LIMIT_SAMPLES", 0x9510, 1, 0x01, 1, 3, 8, 0, false, 1, 0, 0, 18446744073709551615, 1⟩,
  ⟨"HBM_THROTTLE_US", 0x9520, 24, 0x01, 1, 3, 8, 0, false, 1, 0, 0, 18446744073709551615, 1⟩,
  ⟨"PMBUS_ERRORS", 0x9600, 4, 0x01, 1, 3, 8, 0, false, 1, 0, 0, 18446744073709551615, 1⟩,
  ⟨"PMBUS_ALERTS", 0x9600, 4, 0x02, 1, 3, 8, 0, true, 1, 0, 0, 18446744073709551615, 1⟩]

/-- Entries of R559. -/
def entriesR559 : List EntryRow := [
  ⟨"PKG_STATE", 0x1000, 1, 0x10, 1, 6, 1, 0, false, 0, 0, 0, 255, 1⟩,
  ⟨"START_FAULT", 0x1000, 1, 0x11, 1, 6, 1, 0, false, 0, 0, 0, 255, 1⟩,
  ⟨"COLD_INIT_COUNT", 0x1000, 1, 0x12, 1, 2, 4, 0, false, 2, 0, 0, 4294967295, 1⟩,
  ⟨"COLD_INIT_CAUSE", 0x1000, 1, 0x13, 1, 6, 1, 0, false, 2, 0, 0, 255, 1⟩,
  ⟨"READY_TIME", 0x1000, 1, 0x14, 1, 2, 4, 0, true, 0, 0, 0, 4294967295, 1⟩]

/-- Every entry of the dictionary, family by family. -/
def dictRows : List EntryRow :=
  entriesR39 ++
  entriesR92 ++
  entriesR127 ++
  entriesR160 ++
  entriesR185 ++
  entriesR222 ++
  entriesR258 ++
  entriesR288 ++
  entriesR310 ++
  entriesR334 ++
  entriesR362 ++
  entriesR362b ++
  entriesR403 ++
  entriesR403b ++
  entriesR426 ++
  entriesR451 ++
  entriesR476 ++
  entriesR497 ++
  entriesR515 ++
  entriesR534 ++
  entriesR548 ++
  entriesR559

namespace Key

/-- 0x2000.01 (R39). -/
def logicalCoresPerCluster : Ent := ⟨0x2000 * 256 + 0x01, 16⟩
/-- 0x2000.02 (R39). -/
def logicalClustersPerDie : Ent := ⟨0x2000 * 256 + 0x02, 4⟩
/-- 0x2000.03 (R39). -/
def logicalCoreCount : Ent := ⟨0x2000 * 256 + 0x03, 4608⟩
/-- 0x2100+n .00 (R39). -/
def clusterMapCount (n : Nat) : Ent := ⟨(0x2100 + n) * 256 + 0x00, 0⟩
/-- 0x2100+n .01–.10 (R39). -/
def clusterMapCore (n k : Nat) : Ent := ⟨(0x2100 + n) * 256 + 0x01 + k, 0⟩
/-- 0x2100+n .11 (R39). -/
def clusterSpareMask (n : Nat) : Ent := ⟨(0x2100 + n) * 256 + 0x11, 0⟩
/-- 0x2100+n .12 (R39). -/
def clusterDefectMask (n : Nat) : Ent := ⟨(0x2100 + n) * 256 + 0x12, 0⟩
/-- 0x1180+s .01 (R39). -/
def meshFlits (s : Nat) : Ent := ⟨(0x1180 + s) * 256 + 0x01, 0⟩
/-- 0x1180+s .02 (R39). -/
def meshCrcRetries (s : Nat) : Ent := ⟨(0x1180 + s) * 256 + 0x02, 0⟩
/-- 0x1180+s .03 (R39). -/
def meshStallCycles (s : Nat) : Ent := ⟨(0x1180 + s) * 256 + 0x03, 0⟩
/-- 0x1180+s .04 (R39). -/
def meshLinksOut (s : Nat) : Ent := ⟨(0x1180 + s) * 256 + 0x04, 0⟩
/-- 0x2010.01 (R92). -/
def descQueueDepth : Ent := ⟨0x2010 * 256 + 0x01, 16⟩
/-- 0x2010.02 (R92). -/
def mseOutstandingMax : Ent := ⟨0x2010 * 256 + 0x02, 128⟩
/-- 0x2010.03 (R92). -/
def arbAgeLimit : Ent := ⟨0x2010 * 256 + 0x03, 64⟩
/-- 0x2020.01 (R92). -/
def arrivalsBadEndpoint : Ent := ⟨0x2020 * 256 + 0x01, 0⟩
/-- 0x2020.02 (R92). -/
def arrivalsBadAddress : Ent := ⟨0x2020 * 256 + 0x02, 0⟩
/-- 0x2020.03 (R92). -/
def drdRefused : Ent := ⟨0x2020 * 256 + 0x03, 0⟩
/-- 0x2400+n .01 (R92). -/
def descIssued (n : Nat) : Ent := ⟨(0x2400 + n) * 256 + 0x01, 0⟩
/-- 0x2400+n .02 (R92). -/
def descInvalid (n : Nat) : Ent := ⟨(0x2400 + n) * 256 + 0x02, 0⟩
/-- 0x2400+n .03 (R92). -/
def engineStops (n : Nat) : Ent := ⟨(0x2400 + n) * 256 + 0x03, 0⟩
/-- 0x2400+n .04 (R92). -/
def ctuFaults (n : Nat) : Ent := ⟨(0x2400 + n) * 256 + 0x04, 0⟩
/-- 0x2400+n .05 (R92). -/
def queueFullClocks (n : Nat) : Ent := ⟨(0x2400 + n) * 256 + 0x05, 0⟩
/-- 0x2400+n .06 (R92). -/
def creditStallClocks (n : Nat) : Ent := ⟨(0x2400 + n) * 256 + 0x06, 0⟩
/-- 0x2400+n .07 (R92). -/
def arrivalsRefused (n : Nat) : Ent := ⟨(0x2400 + n) * 256 + 0x07, 0⟩
/-- 0x2400+n .08 (R92). -/
def eventDrops (n : Nat) : Ent := ⟨(0x2400 + n) * 256 + 0x08, 0⟩
/-- 0x2400+n .09 (R92). -/
def arbAgePromotions (n : Nat) : Ent := ⟨(0x2400 + n) * 256 + 0x09, 0⟩
/-- 0x2400+n .20–.2F (R92). -/
def coreState (n k : Nat) : Ent := ⟨(0x2400 + n) * 256 + 0x20 + k, 15⟩
/-- 0x2011.01 (R127). -/
def mxeAccBanks : Ent := ⟨0x2011 * 256 + 0x01, 4⟩
/-- 0x2011.02 (R127). -/
def mxeKLenMax : Ent := ⟨0x2011 * 256 + 0x02, 2048⟩
/-- 0x2600+n .01 (R127). -/
def mxeTilesOut (n : Nat) : Ent := ⟨(0x2600 + n) * 256 + 0x01, 0⟩
/-- 0x2600+n .02 (R127). -/
def mxeTilesDropped (n : Nat) : Ent := ⟨(0x2600 + n) * 256 + 0x02, 0⟩
/-- 0x2600+n .03 (R127). -/
def mxeNonfiniteOut (n : Nat) : Ent := ⟨(0x2600 + n) * 256 + 0x03, 0⟩
/-- 0x2600+n .04 (R127). -/
def mxeSaturatedOut (n : Nat) : Ent := ⟨(0x2600 + n) * 256 + 0x04, 0⟩
/-- 0x2600+n .05 (R127). -/
def mxeGrainOverflow (n : Nat) : Ent := ⟨(0x2600 + n) * 256 + 0x05, 0⟩
/-- 0x2600+n .06 (R127). -/
def mxeStageReloads (n : Nat) : Ent := ⟨(0x2600 + n) * 256 + 0x06, 0⟩
/-- 0x2600+n .07 (R127). -/
def mxeBusyClocks (n : Nat) : Ent := ⟨(0x2600 + n) * 256 + 0x07, 0⟩
/-- 0x3000.01 (R160). -/
def jobSeed : Ent := ⟨0x3000 * 256 + 0x01, 0⟩
/-- 0x3000.02 (R160). -/
def scaleContexts : Ent := ⟨0x3000 * 256 + 0x02, 64⟩
/-- 0x3000.03 (R160). -/
def rgenId : Ent := ⟨0x3000 * 256 + 0x03, 1⟩
/-- 0x3000.04 (R160). -/
def srFractionBits : Ent := ⟨0x3000 * 256 + 0x04, 16⟩
/-- 0x3100+n .01 (R160). -/
def ctxSaturations (n : Nat) : Ent := ⟨(0x3100 + n) * 256 + 0x01, 0⟩
/-- 0x3100+n .02 (R160). -/
def satEvents (n : Nat) : Ent := ⟨(0x3100 + n) * 256 + 0x02, 0⟩
/-- 0x3100+n .03 (R160). -/
def nonfiniteFinite (n : Nat) : Ent := ⟨(0x3100 + n) * 256 + 0x03, 0⟩
/-- 0x3100+n .04 (R160). -/
def rollNonfinite (n : Nat) : Ent := ⟨(0x3100 + n) * 256 + 0x04, 0⟩
/-- 0x3100+n .05 (R160). -/
def srConversions (n : Nat) : Ent := ⟨(0x3100 + n) * 256 + 0x05, 0⟩
/-- 0x3100+n .06 (R160). -/
def ctxRolls (n : Nat) : Ent := ⟨(0x3100 + n) * 256 + 0x06, 0⟩
/-- 0x3010.01 (R185). -/
def orderProfile : Ent := ⟨0x3010 * 256 + 0x01, 0⟩
/-- 0x3010.02 (R185). -/
def orderCores : Ent := ⟨0x3010 * 256 + 0x02, 16⟩
/-- 0x3010.03 (R185). -/
def exactKMax : Ent := ⟨0x3010 * 256 + 0x03, 16777216⟩
/-- 0x3010.04 (R185). -/
def refOrderId : Ent := ⟨0x3010 * 256 + 0x04, 1⟩
/-- 0x3020.01 (R185). -/
def assayEnable : Ent := ⟨0x3020 * 256 + 0x01, 1⟩
/-- 0x3020.02 (R185). -/
def assayRateLog2 : Ent := ⟨0x3020 * 256 + 0x02, 12⟩
/-- 0x3020.03 (R185). -/
def assayThreshExact : Ent := ⟨0x3020 * 256 + 0x03, 4294967284⟩
/-- 0x3020.04 (R185). -/
def assayThreshMxfp : Ent := ⟨0x3020 * 256 + 0x04, 4294967286⟩
/-- 0x3020.05 (R185). -/
def assayThreshBf16 : Ent := ⟨0x3020 * 256 + 0x05, 4294967286⟩
/-- 0x3020.06 (R185). -/
def assayThreshFp16 : Ent := ⟨0x3020 * 256 + 0x06, 4294967286⟩
/-- 0x3020.07 (R185). -/
def assayThreshFp32 : Ent := ⟨0x3020 * 256 + 0x07, 4294967286⟩
/-- 0x3100+n .10 (R185). -/
def assaySampled (n : Nat) : Ent := ⟨(0x3100 + n) * 256 + 0x10, 0⟩
/-- 0x3100+n .11 (R185). -/
def assayExceeded (n : Nat) : Ent := ⟨(0x3100 + n) * 256 + 0x11, 0⟩
/-- 0x3100+n .12 (R185). -/
def assayStallClocks (n : Nat) : Ent := ⟨(0x3100 + n) * 256 + 0x12, 0⟩
/-- 0x3100+n .13 (R185). -/
def exactRangeOverflows (n : Nat) : Ent := ⟨(0x3100 + n) * 256 + 0x13, 0⟩
/-- 0x3240+n .00–.FF (R185). -/
def assayHist (n k : Nat) : Ent := ⟨(0x3240 + n) * 256 + 0x00 + k, 0⟩
/-- 0x2012.01 (R222). -/
def fgeStagesMax : Ent := ⟨0x2012 * 256 + 0x01, 8⟩
/-- 0x2012.02 (R222). -/
def fgeCountMax : Ent := ⟨0x2012 * 256 + 0x02, 16384⟩
/-- 0x2012.03 (R222). -/
def fgeImmediates : Ent := ⟨0x2012 * 256 + 0x03, 6⟩
/-- 0x2800+n .01 (R222). -/
def fgeElements (n : Nat) : Ent := ⟨(0x2800 + n) * 256 + 0x01, 0⟩
/-- 0x2800+n .02 (R222). -/
def fgeBusyClocks (n : Nat) : Ent := ⟨(0x2800 + n) * 256 + 0x02, 0⟩
/-- 0x2800+n .03 (R222). -/
def fgeLaneRange (n : Nat) : Ent := ⟨(0x2800 + n) * 256 + 0x03, 0⟩
/-- 0x2800+n .04 (R222). -/
def fgeCompressOverflow (n : Nat) : Ent := ⟨(0x2800 + n) * 256 + 0x04, 0⟩
/-- 0x2800+n .05 (R222). -/
def fgeExpandOverflow (n : Nat) : Ent := ⟨(0x2800 + n) * 256 + 0x05, 0⟩
/-- 0x2800+n .06 (R222). -/
def fgeSaturatedOut (n : Nat) : Ent := ⟨(0x2800 + n) * 256 + 0x06, 0⟩
/-- 0x2800+n .07 (R222). -/
def fgeNonfiniteOut (n : Nat) : Ent := ⟨(0x2800 + n) * 256 + 0x07, 0⟩
/-- 0x2800+n .08 (R222). -/
def fgeGrainOverflow (n : Nat) : Ent := ⟨(0x2800 + n) * 256 + 0x08, 0⟩
/-- 0x3400.01 (R258). -/
def bushelSlots : Ent := ⟨0x3400 * 256 + 0x01, 64⟩
/-- 0x3400.02 (R258). -/
def bushelPfDepthMax : Ent := ⟨0x3400 * 256 + 0x02, 4⟩
/-- 0x3410.01 (R258). -/
def deferEnable : Ent := ⟨0x3410 * 256 + 0x01, 0⟩
/-- 0x3410.02 (R258). -/
def deferRingAddr : Ent := ⟨0x3410 * 256 + 0x02, 1044480⟩
/-- 0x3410.03 (R258). -/
def deferRingLog2 : Ent := ⟨0x3410 * 256 + 0x03, 6⟩
/-- 0x3410.04 (R258). -/
def deferTailCtr : Ent := ⟨0x3410 * 256 + 0x04, 254⟩
/-- 0x3410.05 (R258). -/
def deferHeadCtr : Ent := ⟨0x3410 * 256 + 0x05, 255⟩
/-- 0x3420.01 (R258). -/
def backfillEnable : Ent := ⟨0x3420 * 256 + 0x01, 0⟩
/-- 0x3420.02 (R258). -/
def companionPartition : Ent := ⟨0x3420 * 256 + 0x02, 0⟩
/-- 0x3420.03 (R258). -/
def backfillThreshold : Ent := ⟨0x3420 * 256 + 0x03, 4000⟩
/-- 0x3420.04 (R258). -/
def pipeChannelMask : Ent := ⟨0x3420 * 256 + 0x04, 65535⟩
/-- 0x3430.01 (R258). -/
def expertsLocalMax : Ent := ⟨0x3430 * 256 + 0x01, 64⟩
/-- 0x3430.02 (R258). -/
def expertKMax : Ent := ⟨0x3430 * 256 + 0x02, 8⟩
/-- 0x3440.01–.40 (R258). -/
def expertArrivals (k : Nat) : Ent := ⟨0x3440 * 256 + 0x01 + k, 0⟩
/-- 0x3500+n .01 (R258). -/
def bushelPushes (n : Nat) : Ent := ⟨(0x3500 + n) * 256 + 0x01, 0⟩
/-- 0x3500+n .02 (R258). -/
def bushelFramesDrained (n : Nat) : Ent := ⟨(0x3500 + n) * 256 + 0x02, 0⟩
/-- 0x3500+n .03 (R258). -/
def bushelOverflows (n : Nat) : Ent := ⟨(0x3500 + n) * 256 + 0x03, 0⟩
/-- 0x3500+n .04 (R258). -/
def bushelUnderflows (n : Nat) : Ent := ⟨(0x3500 + n) * 256 + 0x04, 0⟩
/-- 0x3500+n .05 (R258). -/
def bushelBadFrames (n : Nat) : Ent := ⟨(0x3500 + n) * 256 + 0x05, 0⟩
/-- 0x3500+n .06 (R258). -/
def bushelDiscarded (n : Nat) : Ent := ⟨(0x3500 + n) * 256 + 0x06, 0⟩
/-- 0x3500+n .07 (R258). -/
def bushelReleaseWaitClocks (n : Nat) : Ent := ⟨(0x3500 + n) * 256 + 0x07, 0⟩
/-- 0x3500+n .08 (R258). -/
def deferTaken (n : Nat) : Ent := ⟨(0x3500 + n) * 256 + 0x08, 0⟩
/-- 0x3500+n .09 (R258). -/
def pipeWaitClocks (n : Nat) : Ent := ⟨(0x3500 + n) * 256 + 0x09, 0⟩
/-- 0x3500+n .0A (R258). -/
def backfillSwitches (n : Nat) : Ent := ⟨(0x3500 + n) * 256 + 0x0A, 0⟩
/-- 0x3500+n .0B (R258). -/
def backfillCompanionClocks (n : Nat) : Ent := ⟨(0x3500 + n) * 256 + 0x0B, 0⟩
/-- 0x3500+n .0C (R258). -/
def backfillLateClocks (n : Nat) : Ent := ⟨(0x3500 + n) * 256 + 0x0C, 0⟩
/-- 0x3500+n .0D (R258). -/
def expertRowsSent (n : Nat) : Ent := ⟨(0x3500 + n) * 256 + 0x0D, 0⟩
/-- 0x3500+n .0E (R258). -/
def expertDrops (n : Nat) : Ent := ⟨(0x3500 + n) * 256 + 0x0E, 0⟩
/-- 0x3500+n .0F (R258). -/
def expertRowsReturned (n : Nat) : Ent := ⟨(0x3500 + n) * 256 + 0x0F, 0⟩
/-- 0x3650.01 (R288). -/
def bucketWindow : Ent := ⟨0x3650 * 256 + 0x01, 256⟩
/-- 0x3650.02 (R288). -/
def bucketParamsMax : Ent := ⟨0x3650 * 256 + 0x02, 16777216⟩
/-- 0x3650.03 (R288). -/
def bucketSliceAlign : Ent := ⟨0x3650 * 256 + 0x03, 4096⟩
/-- 0x3650.04 (R288). -/
def bucketAxis : Ent := ⟨0x3650 * 256 + 0x04, 3⟩
/-- 0x3650.05 (R288). -/
def bucketHeadroom : Ent := ⟨0x3650 * 256 + 0x05, 8⟩
/-- 0x3650.06 (R288). -/
def bucketOverflowStep : Ent := ⟨0x3650 * 256 + 0x06, 4⟩
/-- 0x3660.01 (R288). -/
def bucketSeqOpen : Ent := ⟨0x3660 * 256 + 0x01, 0⟩
/-- 0x3660.02 (R288). -/
def bucketSeqStep : Ent := ⟨0x3660 * 256 + 0x02, 0⟩
/-- 0x3660.03 (R288). -/
def bucketSeqFirst : Ent := ⟨0x3660 * 256 + 0x03, 0⟩
/-- 0x3660.04 (R288). -/
def bucketSeqCount : Ent := ⟨0x3660 * 256 + 0x04, 0⟩
/-- 0x3660.05 (R288). -/
def bucketSeqOldest : Ent := ⟨0x3660 * 256 + 0x05, 0⟩
/-- 0x3670.01 (R288). -/
def bucketAdds : Ent := ⟨0x3670 * 256 + 0x01, 0⟩
/-- 0x3670.02 (R288). -/
def bucketAddOverflows : Ent := ⟨0x3670 * 256 + 0x02, 0⟩
/-- 0x3670.03 (R288). -/
def bucketExchanges : Ent := ⟨0x3670 * 256 + 0x03, 0⟩
/-- 0x3670.04 (R288). -/
def bucketContribOverflows : Ent := ⟨0x3670 * 256 + 0x04, 0⟩
/-- 0x3670.05 (R288). -/
def bucketChecksumMismatches : Ent := ⟨0x3670 * 256 + 0x05, 0⟩
/-- 0x3670.06 (R288). -/
def bucketWindowStallClocks : Ent := ⟨0x3670 * 256 + 0x06, 0⟩
/-- 0x3670.07 (R288). -/
def bucketVerdictApply : Ent := ⟨0x3670 * 256 + 0x07, 0⟩
/-- 0x3670.08 (R288). -/
def bucketVerdictSkipNonfinite : Ent := ⟨0x3670 * 256 + 0x08, 0⟩
/-- 0x3670.09 (R288). -/
def bucketVerdictSkipOverflow : Ent := ⟨0x3670 * 256 + 0x09, 0⟩
/-- 0x3670.0A (R288). -/
def bucketVerdictUnverified : Ent := ⟨0x3670 * 256 + 0x0A, 0⟩
/-- 0x3670.0B (R288). -/
def bucketVerdictIncomplete : Ent := ⟨0x3670 * 256 + 0x0B, 0⟩
/-- 0x3670.0C (R288). -/
def bucketVerdictFailed : Ent := ⟨0x3670 * 256 + 0x0C, 0⟩
/-- 0x3670.0D (R288). -/
def bucketNormPasses : Ent := ⟨0x3670 * 256 + 0x0D, 0⟩
/-- 0x3670.0E (R288). -/
def shardsGathered : Ent := ⟨0x3670 * 256 + 0x0E, 0⟩
/-- 0x3670.0F (R288). -/
def staleShards : Ent := ⟨0x3670 * 256 + 0x0F, 0⟩
/-- 0x3670.10 (R288). -/
def bucketStepsAbandoned : Ent := ⟨0x3670 * 256 + 0x10, 0⟩
/-- 0x3680.01 (R310). -/
def troyQueueDepth : Ent := ⟨0x3680 * 256 + 0x01, 64⟩
/-- 0x3680.02 (R310). -/
def troyProgramSlots : Ent := ⟨0x3680 * 256 + 0x02, 16⟩
/-- 0x3680.03 (R310). -/
def troyMicroopsMax : Ent := ⟨0x3680 * 256 + 0x03, 32⟩
/-- 0x3680.04 (R310). -/
def troyConstTables : Ent := ⟨0x3680 * 256 + 0x04, 256⟩
/-- 0x3680.05 (R310). -/
def ledgerEntries : Ent := ⟨0x3680 * 256 + 0x05, 262144⟩
/-- 0x3680.06 (R310). -/
def ledgerBlock : Ent := ⟨0x3680 * 256 + 0x06, 4096⟩
/-- 0x3690.01 (R310). -/
def commitReleasedValid : Ent := ⟨0x3690 * 256 + 0x01, 0⟩
/-- 0x3690.02 (R310). -/
def commitReleasedStep : Ent := ⟨0x3690 * 256 + 0x02, 0⟩
/-- 0x3690.03 (R310). -/
def commitReleases : Ent := ⟨0x3690 * 256 + 0x03, 0⟩
/-- 0x3690.04 (R310). -/
def commitRerunReleases : Ent := ⟨0x3690 * 256 + 0x04, 0⟩
/-- 0x3690.05 (R310). -/
def commitRefused : Ent := ⟨0x3690 * 256 + 0x05, 0⟩
/-- 0x3700+s .01 (R310). -/
def troyCommands (s : Nat) : Ent := ⟨(0x3700 + s) * 256 + 0x01, 0⟩
/-- 0x3700+s .02 (R310). -/
def troyBlocksUpdated (s : Nat) : Ent := ⟨(0x3700 + s) * 256 + 0x02, 0⟩
/-- 0x3700+s .03 (R310). -/
def troyBlocksLedgerSkipped (s : Nat) : Ent := ⟨(0x3700 + s) * 256 + 0x03, 0⟩
/-- 0x3700+s .04 (R310). -/
def troyBlocksVerdictSkipped (s : Nat) : Ent := ⟨(0x3700 + s) * 256 + 0x04, 0⟩
/-- 0x3700+s .05 (R310). -/
def troyLedgerErrors (s : Nat) : Ent := ⟨(0x3700 + s) * 256 + 0x05, 0⟩
/-- 0x3700+s .06 (R310). -/
def troyNonfiniteResults (s : Nat) : Ent := ⟨(0x3700 + s) * 256 + 0x06, 0⟩
/-- 0x3700+s .07 (R310). -/
def troyReadUncorrectable (s : Nat) : Ent := ⟨(0x3700 + s) * 256 + 0x07, 0⟩
/-- 0x3700+s .08 (R310). -/
def troyRefused (s : Nat) : Ent := ⟨(0x3700 + s) * 256 + 0x08, 0⟩
/-- 0x3700+s .09 (R310). -/
def troyQueueFull (s : Nat) : Ent := ⟨(0x3700 + s) * 256 + 0x09, 0⟩
/-- 0x3700+s .0A (R310). -/
def commitWaitClocks (s : Nat) : Ent := ⟨(0x3700 + s) * 256 + 0x0A, 0⟩
/-- 0x3700+s .0B (R310). -/
def troyNonfiniteEncoded (s : Nat) : Ent := ⟨(0x3700 + s) * 256 + 0x0B, 0⟩
/-- 0x4000.01 (R334). -/
def hbmStacks : Ent := ⟨0x4000 * 256 + 0x01, 24⟩
/-- 0x4000.02 (R334). -/
def hbmPcPerStack : Ent := ⟨0x4000 * 256 + 0x02, 32⟩
/-- 0x4000.03 (R334). -/
def hbmPinRate : Ent := ⟨0x4000 * 256 + 0x03, 9600⟩
/-- 0x4000.04 (R334). -/
def hbmRequestsMax : Ent := ⟨0x4000 * 256 + 0x04, 4096⟩
/-- 0x4000.05 (R334). -/
def wcbEntries : Ent := ⟨0x4000 * 256 + 0x05, 512⟩
/-- 0x4010.01 (R334). -/
def wcbTimeout : Ent := ⟨0x4010 * 256 + 0x01, 1000⟩
/-- 0x4010.02 (R334). -/
def scrubPeriod : Ent := ⟨0x4010 * 256 + 0x02, 24⟩
/-- 0x4010.03 (R334). -/
def recordRingMib : Ent := ⟨0x4010 * 256 + 0x03, 0⟩
/-- 0x4010.04 (R334). -/
def pcRetireUeLimit : Ent := ⟨0x4010 * 256 + 0x04, 4⟩
/-- 0x4100+s .01 (R334). -/
def hbmActivePcs (s : Nat) : Ent := ⟨(0x4100 + s) * 256 + 0x01, 32⟩
/-- 0x4100+s .02 (R334). -/
def hbmActiveMask (s : Nat) : Ent := ⟨(0x4100 + s) * 256 + 0x02, 4294967295⟩
/-- 0x4100+s .03 (R334). -/
def hbmRetireMark (s : Nat) : Ent := ⟨(0x4100 + s) * 256 + 0x03, 0⟩
/-- 0x4100+s .04 (R334). -/
def hbmCapacity (s : Nat) : Ent := ⟨(0x4100 + s) * 256 + 0x04, 24000000000⟩
/-- 0x4100+s .05 (R334). -/
def hbmUsableTop (s : Nat) : Ent := ⟨(0x4100 + s) * 256 + 0x05, 0⟩
/-- 0x4100+s .06 (R334). -/
def hbmRecordBase (s : Nat) : Ent := ⟨(0x4100 + s) * 256 + 0x06, 0⟩
/-- 0x4100+s .07 (R334). -/
def hbmLedgerBase (s : Nat) : Ent := ⟨(0x4100 + s) * 256 + 0x07, 0⟩
/-- 0x4100+s .08 (R334). -/
def hbmLocketBase (s : Nat) : Ent := ⟨(0x4100 + s) * 256 + 0x08, 0⟩
/-- 0x4100+s .09 (R334). -/
def hbmRetrainBase (s : Nat) : Ent := ⟨(0x4100 + s) * 256 + 0x09, 0⟩
/-- 0x4100+s .0A (R334). -/
def hbmStackFailed (s : Nat) : Ent := ⟨(0x4100 + s) * 256 + 0x0A, 0⟩
/-- 0x4100+s .10 (R334). -/
def hbmReads (s : Nat) : Ent := ⟨(0x4100 + s) * 256 + 0x10, 0⟩
/-- 0x4100+s .11 (R334). -/
def hbmWrites (s : Nat) : Ent := ⟨(0x4100 + s) * 256 + 0x11, 0⟩
/-- 0x4100+s .12 (R334). -/
def hbmWcbMerges (s : Nat) : Ent := ⟨(0x4100 + s) * 256 + 0x12, 0⟩
/-- 0x4100+s .13 (R334). -/
def hbmWcbRmw (s : Nat) : Ent := ⟨(0x4100 + s) * 256 + 0x13, 0⟩
/-- 0x4100+s .14 (R334). -/
def hbmWcbEvictions (s : Nat) : Ent := ⟨(0x4100 + s) * 256 + 0x14, 0⟩
/-- 0x4100+s .15 (R334). -/
def hbmWcbRmwLost (s : Nat) : Ent := ⟨(0x4100 + s) * 256 + 0x15, 0⟩
/-- 0x4100+s .16 (R334). -/
def hbmWcbDiscarded (s : Nat) : Ent := ⟨(0x4100 + s) * 256 + 0x16, 0⟩
/-- 0x4100+s .17 (R334). -/
def hbmQueueFullClocks (s : Nat) : Ent := ⟨(0x4100 + s) * 256 + 0x17, 0⟩
/-- 0x4100+s .18 (R334). -/
def hbmScrubWritebacks (s : Nat) : Ent := ⟨(0x4100 + s) * 256 + 0x18, 0⟩
/-- 0x4100+s .19 (R334). -/
def hbmCaParityRetries (s : Nat) : Ent := ⟨(0x4100 + s) * 256 + 0x19, 0⟩
/-- 0x4100+s .1A (R334). -/
def hbmPcDownWrites (s : Nat) : Ent := ⟨(0x4100 + s) * 256 + 0x1A, 0⟩
/-- 0x4200+s .p (R334). -/
def hbmPcCorrected (s p : Nat) : Ent := ⟨(0x4200 + s) * 256 + p, 0⟩
/-- 0x4220+s .p (R334). -/
def hbmPcLanePair (s p : Nat) : Ent := ⟨(0x4220 + s) * 256 + p, 0⟩
/-- 0x4240+s .p (R334). -/
def hbmPcUncorrectable (s p : Nat) : Ent := ⟨(0x4240 + s) * 256 + p, 0⟩
/-- 0x4260+s .p (R334). -/
def hbmPcTrainFails (s p : Nat) : Ent := ⟨(0x4260 + s) * 256 + p, 0⟩
/-- 0x5000.01 (R362). -/
def fabricLinks : Ent := ⟨0x5000 * 256 + 0x01, 32⟩
/-- 0x5000.02 (R362). -/
def fabricPortsMax : Ent := ⟨0x5000 * 256 + 0x02, 16⟩
/-- 0x5000.03 (R362). -/
def xflVersion : Ent := ⟨0x5000 * 256 + 0x03, 258⟩
/-- 0x5000.04 (R362). -/
def topoMode : Ent := ⟨0x5000 * 256 + 0x04, 0⟩
/-- 0x5000.05 (R362). -/
def linkRetrainHoldoff : Ent := ⟨0x5000 * 256 + 0x05, 10⟩
/-- 0x5000.06 (R362). -/
def xflAckTimeout : Ent := ⟨0x5000 * 256 + 0x06, 2000⟩
/-- 0x5000.07 (R362). -/
def xflRetryLimit : Ent := ⟨0x5000 * 256 + 0x07, 16⟩
/-- 0x5000.08 (R362). -/
def xflDownTimeout : Ent := ⟨0x5000 * 256 + 0x08, 200⟩
/-- 0x5000.09 (R362). -/
def vcBufferBytes : Ent := ⟨0x5000 * 256 + 0x09, 16384⟩
/-- 0x5010+p .01 (R362). -/
def portLinkMask (p : Nat) : Ent := ⟨(0x5010 + p) * 256 + 0x01, 0⟩
/-- 0x5010+p .02 (R362). -/
def portAxis (p : Nat) : Ent := ⟨(0x5010 + p) * 256 + 0x02, 0⟩
/-- 0x5010+p .03 (R362). -/
def portDir (p : Nat) : Ent := ⟨(0x5010 + p) * 256 + 0x03, 0⟩
/-- 0x5010+p .04 (R362). -/
def portExpectSerial (p : Nat) : Ent := ⟨(0x5010 + p) * 256 + 0x04, 0⟩
/-- 0x5010+p .05 (R362). -/
def portExpectPort (p : Nat) : Ent := ⟨(0x5010 + p) * 256 + 0x05, 255⟩
/-- 0x5010+p .06 (R362). -/
def portEnable (p : Nat) : Ent := ⟨(0x5010 + p) * 256 + 0x06, 1⟩
/-- 0x5010+p .07 (R362). -/
def portState (p : Nat) : Ent := ⟨(0x5010 + p) * 256 + 0x07, 0⟩
/-- 0x5010+p .08 (R362). -/
def portActiveLinks (p : Nat) : Ent := ⟨(0x5010 + p) * 256 + 0x08, 0⟩
/-- 0x5010+p .09 (R362). -/
def neighSerial (p : Nat) : Ent := ⟨(0x5010 + p) * 256 + 0x09, 0⟩
/-- 0x5010+p .0A (R362). -/
def neighPort (p : Nat) : Ent := ⟨(0x5010 + p) * 256 + 0x0A, 255⟩
/-- 0x5010+p .0B (R362). -/
def neighXfl (p : Nat) : Ent := ⟨(0x5010 + p) * 256 + 0x0B, 0⟩
/-- 0x5010+p .0C (R362). -/
def neighFwBuild (p : Nat) : Ent := ⟨(0x5010 + p) * 256 + 0x0C, 0⟩
/-- 0x5010+p .0D (R362). -/
def neighNode (p : Nat) : Ent := ⟨(0x5010 + p) * 256 + 0x0D, 0⟩
/-- 0x5010+p .0E (R362). -/
def neighEpoch (p : Nat) : Ent := ⟨(0x5010 + p) * 256 + 0x0E, 0⟩
/-- 0x5010+p .0F (R362). -/
def neighSignature (p : Nat) : Ent := ⟨(0x5010 + p) * 256 + 0x0F, 0⟩
/-- 0x5010+p .10 (R362). -/
def timeSynced (p : Nat) : Ent := ⟨(0x5010 + p) * 256 + 0x10, 0⟩
/-- 0x5010+p .11 (R362). -/
def timeOffset (p : Nat) : Ent := ⟨(0x5010 + p) * 256 + 0x11, 0⟩
/-- 0x5010+p .12 (R362). -/
def timeDelay (p : Nat) : Ent := ⟨(0x5010 + p) * 256 + 0x12, 0⟩
/-- 0x5010+p .13 (R362). -/
def timeAsymCorr (p : Nat) : Ent := ⟨(0x5010 + p) * 256 + 0x13, 0⟩
/-- 0x5010+p .20 (R362). -/
def portQuarantines (p : Nat) : Ent := ⟨(0x5010 + p) * 256 + 0x20, 0⟩
/-- 0x5010+p .21 (R362). -/
def portVersionHolds (p : Nat) : Ent := ⟨(0x5010 + p) * 256 + 0x21, 0⟩
/-- 0x5010+p .22 (R362). -/
def portAdoptions (p : Nat) : Ent := ⟨(0x5010 + p) * 256 + 0x22, 0⟩
/-- 0x5010+p .23 (R362). -/
def linkSplitPort (p : Nat) : Ent := ⟨(0x5010 + p) * 256 + 0x23, 0⟩
/-- 0x5010+p .24 (R362). -/
def timeUnsyncEvents (p : Nat) : Ent := ⟨(0x5010 + p) * 256 + 0x24, 0⟩
/-- 0x5010+p .25 (R362). -/
def timeRootMismatch (p : Nat) : Ent := ⟨(0x5010 + p) * 256 + 0x25, 0⟩
/-- 0x5100+l .01 (R362). -/
def linkState (l : Nat) : Ent := ⟨(0x5100 + l) * 256 + 0x01, 0⟩
/-- 0x5100+l .02 (R362). -/
def linkSkew (l : Nat) : Ent := ⟨(0x5100 + l) * 256 + 0x02, 0⟩
/-- 0x5100+l .03 (R362). -/
def fecWorstCw (l : Nat) : Ent := ⟨(0x5100 + l) * 256 + 0x03, 0⟩
/-- 0x5100+l .10 (R362). -/
def xflFramesTx (l : Nat) : Ent := ⟨(0x5100 + l) * 256 + 0x10, 0⟩
/-- 0x5100+l .11 (R362). -/
def xflFramesRx (l : Nat) : Ent := ⟨(0x5100 + l) * 256 + 0x11, 0⟩
/-- 0x5100+l .12 (R362). -/
def xflCrcErrors (l : Nat) : Ent := ⟨(0x5100 + l) * 256 + 0x12, 0⟩
/-- 0x5100+l .13 (R362). -/
def xflDuplicates (l : Nat) : Ent := ⟨(0x5100 + l) * 256 + 0x13, 0⟩
/-- 0x5100+l .14 (R362). -/
def xflNaksSent (l : Nat) : Ent := ⟨(0x5100 + l) * 256 + 0x14, 0⟩
/-- 0x5100+l .15 (R362). -/
def xflRetries (l : Nat) : Ent := ⟨(0x5100 + l) * 256 + 0x15, 0⟩
/-- 0x5100+l .16 (R362). -/
def xflAckTimeouts (l : Nat) : Ent := ⟨(0x5100 + l) * 256 + 0x16, 0⟩
/-- 0x5100+l .17 (R362). -/
def xflReplayFullClocks (l : Nat) : Ent := ⟨(0x5100 + l) * 256 + 0x17, 0⟩
/-- 0x5100+l .18 (R362). -/
def fecCorrectedSymbols (l : Nat) : Ent := ⟨(0x5100 + l) * 256 + 0x18, 0⟩
/-- 0x5100+l .19 (R362). -/
def fecUncorrectable (l : Nat) : Ent := ⟨(0x5100 + l) * 256 + 0x19, 0⟩
/-- 0x5100+l .1A (R362). -/
def linkDowns (l : Nat) : Ent := ⟨(0x5100 + l) * 256 + 0x1A, 0⟩
/-- 0x5100+l .1B (R362). -/
def linkTrainFails (l : Nat) : Ent := ⟨(0x5100 + l) * 256 + 0x1B, 0⟩
/-- 0x5100+l .1C (R362). -/
def linkSkewFails (l : Nat) : Ent := ⟨(0x5100 + l) * 256 + 0x1C, 0⟩
/-- 0x5200.01 (R362). -/
def ftimeNow : Ent := ⟨0x5200 * 256 + 0x01, 0⟩
/-- 0x5200.02 (R362). -/
def timeRole : Ent := ⟨0x5200 * 256 + 0x02, 0⟩
/-- 0x5200.03 (R362). -/
def timeParentMask : Ent := ⟨0x5200 * 256 + 0x03, 65535⟩
/-- 0x5200.04 (R362). -/
def timeParentPort : Ent := ⟨0x5200 * 256 + 0x04, 255⟩
/-- 0x5200.05 (R362). -/
def timeHops : Ent := ⟨0x5200 * 256 + 0x05, 255⟩
/-- 0x5200.06 (R362). -/
def timeState : Ent := ⟨0x5200 * 256 + 0x06, 0⟩
/-- 0x5200.07 (R362). -/
def timeSyncInterval : Ent := ⟨0x5200 * 256 + 0x07, 100⟩
/-- 0x5200.08 (R362). -/
def timeUnsyncLimit : Ent := ⟨0x5200 * 256 + 0x08, 1000⟩
/-- 0x5200.10 (R362). -/
def timeSteps : Ent := ⟨0x5200 * 256 + 0x10, 0⟩
/-- 0x5200.11 (R362). -/
def timeSlewEvents : Ent := ⟨0x5200 * 256 + 0x11, 0⟩
/-- 0x5200.12 (R362). -/
def timeParentChanges : Ent := ⟨0x5200 * 256 + 0x12, 0⟩
/-- 0x5800.01 (R403). -/
def routeMode : Ent := ⟨0x5800 * 256 + 0x01, 0⟩
/-- 0x5800.02 (R403). -/
def nodeAddr : Ent := ⟨0x5800 * 256 + 0x02, 0⟩
/-- 0x5800.03 (R403). -/
def axisSizes : Ent := ⟨0x5800 * 256 + 0x03, 16843009⟩
/-- 0x5800.04 (R403). -/
def axisWrap : Ent := ⟨0x5800 * 256 + 0x04, 15⟩
/-- 0x5800.05 (R403). -/
def jobTag : Ent := ⟨0x5800 * 256 + 0x05, 0⟩
/-- 0x5800.06 (R403). -/
def hopLimit : Ent := ⟨0x5800 * 256 + 0x06, 192⟩
/-- 0x5800.07 (R403). -/
def msgTimeout : Ent := ⟨0x5800 * 256 + 0x07, 1000⟩
/-- 0x5800.08 (R403). -/
def msgRetries : Ent := ⟨0x5800 * 256 + 0x08, 3⟩
/-- 0x5800.09 (R403). -/
def dupHold : Ent := ⟨0x5800 * 256 + 0x09, 5000⟩
/-- 0x5800.0A (R403). -/
def reorderBackoff : Ent := ⟨0x5800 * 256 + 0x0A, 10⟩
/-- 0x5800.0B (R403). -/
def detourStallLimit : Ent := ⟨0x5800 * 256 + 0x0B, 100⟩
/-- 0x5800.0C (R403). -/
def msgOutstandingMax : Ent := ⟨0x5800 * 256 + 0x0C, 65536⟩
/-- 0x5800.0D (R403). -/
def reorderContexts : Ent := ⟨0x5800 * 256 + 0x0D, 16384⟩
/-- 0x5800.0E (R403). -/
def msgOutstanding : Ent := ⟨0x5800 * 256 + 0x0E, 0⟩
/-- 0x5800.10–.13 (R403). -/
def classQuantum (k : Nat) : Ent := ⟨0x5800 * 256 + 0x10 + k, 1024⟩
/-- 0x5801.01 (R403). -/
def tableCmd : Ent := ⟨0x5801 * 256 + 0x01, 0⟩
/-- 0x5801.02 (R403). -/
def tableActive : Ent := ⟨0x5801 * 256 + 0x02, 0⟩
/-- 0x5801.03–.04 (R403). -/
def tableState (k : Nat) : Ent := ⟨0x5801 * 256 + 0x03 + k, 0⟩
/-- 0x5801.05–.06 (R403). -/
def tableEpoch (k : Nat) : Ent := ⟨0x5801 * 256 + 0x05 + k, 0⟩
/-- 0x5801.07–.08 (R403). -/
def epochResident (k : Nat) : Ent := ⟨0x5801 * 256 + 0x07 + k, 0⟩
/-- 0x5900+4v+a .00–.FF (R403). -/
def axisRoute (v a c : Nat) : Ent := ⟨(0x5900 + 4 * v + a) * 256 + c, 0⟩
/-- 0x5A00+16v+(i div 256) .(i mod 256) (R403). -/
def exception (v i : Nat) : Ent := ⟨(0x5A00 + 16 * v + i / 256) * 256 + i % 256, 0⟩
/-- 0x5810+p .01 (R403). -/
def portDetour (p : Nat) : Ent := ⟨(0x5810 + p) * 256 + 0x01, 0⟩
/-- 0x5810+p .02 (R403). -/
def portFence (p : Nat) : Ent := ⟨(0x5810 + p) * 256 + 0x02, 0⟩
/-- 0x5810+p .03 (R403). -/
def portDetouring (p : Nat) : Ent := ⟨(0x5810 + p) * 256 + 0x03, 0⟩
/-- 0x5810+p .10 (R403). -/
def transitBytes (p : Nat) : Ent := ⟨(0x5810 + p) * 256 + 0x10, 0⟩
/-- 0x5810+p .11 (R403). -/
def foreignTagBytes (p : Nat) : Ent := ⟨(0x5810 + p) * 256 + 0x11, 0⟩
/-- 0x5810+p .12 (R403). -/
def detouredPackets (p : Nat) : Ent := ⟨(0x5810 + p) * 256 + 0x12, 0⟩
/-- 0x5810+p .13 (R403). -/
def fencedDrops (p : Nat) : Ent := ⟨(0x5810 + p) * 256 + 0x13, 0⟩
/-- 0x5820.01 (R403). -/
def msgRetransmits : Ent := ⟨0x5820 * 256 + 0x01, 0⟩
/-- 0x5820.02 (R403). -/
def msgTimeouts : Ent := ⟨0x5820 * 256 + 0x02, 0⟩
/-- 0x5820.03 (R403). -/
def msgUnreachable : Ent := ⟨0x5820 * 256 + 0x03, 0⟩
/-- 0x5820.04 (R403). -/
def dupDiscards : Ent := ⟨0x5820 * 256 + 0x04, 0⟩
/-- 0x5820.05 (R403). -/
def e2eCrcErrors : Ent := ⟨0x5820 * 256 + 0x05, 0⟩
/-- 0x5820.06 (R403). -/
def abortedPackets : Ent := ⟨0x5820 * 256 + 0x06, 0⟩
/-- 0x5820.07 (R403). -/
def orderHolds : Ent := ⟨0x5820 * 256 + 0x07, 0⟩
/-- 0x5820.08 (R403). -/
def reorderBusy : Ent := ⟨0x5820 * 256 + 0x08, 0⟩
/-- 0x5820.09 (R403). -/
def reorderExpired : Ent := ⟨0x5820 * 256 + 0x09, 0⟩
/-- 0x5820.0A (R403). -/
def dupTableBusy : Ent := ⟨0x5820 * 256 + 0x0A, 0⟩
/-- 0x5820.0B (R403). -/
def hopLimitDrops : Ent := ⟨0x5820 * 256 + 0x0B, 0⟩
/-- 0x5820.0C (R403). -/
def noRouteDrops : Ent := ⟨0x5820 * 256 + 0x0C, 0⟩
/-- 0x5820.0D (R403). -/
def detourDrops : Ent := ⟨0x5820 * 256 + 0x0D, 0⟩
/-- 0x5820.0E (R403). -/
def detourStallDrops : Ent := ⟨0x5820 * 256 + 0x0E, 0⟩
/-- 0x5820.0F (R403). -/
def staleEpochDrops : Ent := ⟨0x5820 * 256 + 0x0F, 0⟩
/-- 0x5820.10 (R403). -/
def tagMismatchArrivals : Ent := ⟨0x5820 * 256 + 0x10, 0⟩
/-- 0x5820.11 (R403). -/
def mcastExcludedLeaves : Ent := ⟨0x5820 * 256 + 0x11, 0⟩
/-- 0x5C00.01 (R426). -/
def claspContexts : Ent := ⟨0x5C00 * 256 + 0x01, 1024⟩
/-- 0x5C00.02 (R426). -/
def claspBucketContexts : Ent := ⟨0x5C00 * 256 + 0x02, 256⟩
/-- 0x5C00.03 (R426). -/
def collTimeout : Ent := ⟨0x5C00 * 256 + 0x03, 10000⟩
/-- 0x5C00.04 (R426). -/
def adderForwardLimit : Ent := ⟨0x5C00 * 256 + 0x04, 1000⟩
/-- 0x5C10+a .01 (R426). -/
def groupFormed (a : Nat) : Ent := ⟨(0x5C10 + a) * 256 + 0x01, 0⟩
/-- 0x5C10+a .02 (R426). -/
def groupStep (a : Nat) : Ent := ⟨(0x5C10 + a) * 256 + 0x02, 0⟩
/-- 0x5C10+a .03 (R426). -/
def groupSignature (a : Nat) : Ent := ⟨(0x5C10 + a) * 256 + 0x03, 0⟩
/-- 0x5C10+a .10 (R426). -/
def collCompleted (a : Nat) : Ent := ⟨(0x5C10 + a) * 256 + 0x10, 0⟩
/-- 0x5C10+a .11 (R426). -/
def collFailed (a : Nat) : Ent := ⟨(0x5C10 + a) * 256 + 0x11, 0⟩
/-- 0x5C10+a .12 (R426). -/
def groupRefusals (a : Nat) : Ent := ⟨(0x5C10 + a) * 256 + 0x12, 0⟩
/-- 0x5C10+a .13 (R426). -/
def collStepMismatch (a : Nat) : Ent := ⟨(0x5C10 + a) * 256 + 0x13, 0⟩
/-- 0x5C10+a .14 (R426). -/
def collDisagree (a : Nat) : Ent := ⟨(0x5C10 + a) * 256 + 0x14, 0⟩
/-- 0x5C10+a .15 (R426). -/
def collParkExpired (a : Nat) : Ent := ⟨(0x5C10 + a) * 256 + 0x15, 0⟩
/-- 0x5C10+a .16 (R426). -/
def collEpochDrops (a : Nat) : Ent := ⟨(0x5C10 + a) * 256 + 0x16, 0⟩
/-- 0x5C10+a .17 (R426). -/
def claspForwardStalls (a : Nat) : Ent := ⟨(0x5C10 + a) * 256 + 0x17, 0⟩
/-- 0x5C10+a .18 (R426). -/
def collLaunchLate (a : Nat) : Ent := ⟨(0x5C10 + a) * 256 + 0x18, 0⟩
/-- 0x5C10+a .19 (R426). -/
def collLaunchUnsync (a : Nat) : Ent := ⟨(0x5C10 + a) * 256 + 0x19, 0⟩
/-- 0x6000.01 (R451). -/
def hostIpv4 : Ent := ⟨0x6000 * 256 + 0x01, 0⟩
/-- 0x6000.02 (R451). -/
def hostIpv6 : Ent := ⟨0x6000 * 256 + 0x02, 0⟩
/-- 0x6000.03 (R451). -/
def hostVlan : Ent := ⟨0x6000 * 256 + 0x03, 0⟩
/-- 0x6000.04 (R451). -/
def hostDscp : Ent := ⟨0x6000 * 256 + 0x04, 0⟩
/-- 0x6000.05 (R451). -/
def chpUdpPort : Ent := ⟨0x6000 * 256 + 0x05, 47000⟩
/-- 0x6000.06 (R451). -/
def ptpDomain : Ent := ⟨0x6000 * 256 + 0x06, 0⟩
/-- 0x6010.01 (R451). -/
def macsecEnable : Ent := ⟨0x6010 * 256 + 0x01, 0⟩
/-- 0x6010.02 (R451). -/
def macsecSak : Ent := ⟨0x6010 * 256 + 0x02, 0⟩
/-- 0x6010.03 (R451). -/
def macsecReplayWindow : Ent := ⟨0x6010 * 256 + 0x03, 64⟩
/-- 0x6020.01–.04 (R451). -/
def hostKeyDigest (k : Nat) : Ent := ⟨0x6020 * 256 + 0x01 + k, 0⟩
/-- 0x6020.10 (R451). -/
def chpSessionsOpen : Ent := ⟨0x6020 * 256 + 0x10, 0⟩
/-- 0x6030.01 (R451). -/
def chpWindow : Ent := ⟨0x6030 * 256 + 0x01, 256⟩
/-- 0x6030.02 (R451). -/
def chpRto : Ent := ⟨0x6030 * 256 + 0x02, 200⟩
/-- 0x6030.03 (R451). -/
def chpRetxLimit : Ent := ⟨0x6030 * 256 + 0x03, 8⟩
/-- 0x6030.04 (R451). -/
def chpAckDelay : Ent := ⟨0x6030 * 256 + 0x04, 5⟩
/-- 0x6030.05 (R451). -/
def chpIdleTimeout : Ent := ⟨0x6030 * 256 + 0x05, 10000⟩
/-- 0x6040.01 (R451). -/
def recordState : Ent := ⟨0x6040 * 256 + 0x01, 0⟩
/-- 0x6100.01 (R451). -/
def hostRxDiscards : Ent := ⟨0x6100 * 256 + 0x01, 0⟩
/-- 0x6100.02 (R451). -/
def macsecDrops : Ent := ⟨0x6100 * 256 + 0x02, 0⟩
/-- 0x6100.03 (R451). -/
def chpTagFailures : Ent := ⟨0x6100 * 256 + 0x03, 0⟩
/-- 0x6100.04 (R451). -/
def chpSessionsRefused : Ent := ⟨0x6100 * 256 + 0x04, 0⟩
/-- 0x6100.05 (R451). -/
def chpSessionsLost : Ent := ⟨0x6100 * 256 + 0x05, 0⟩
/-- 0x6100.06 (R451). -/
def chpRetransmits : Ent := ⟨0x6100 * 256 + 0x06, 0⟩
/-- 0x6100.07 (R451). -/
def chpDupRx : Ent := ⟨0x6100 * 256 + 0x07, 0⟩
/-- 0x6100.08 (R451). -/
def chpEcnEchoes : Ent := ⟨0x6100 * 256 + 0x08, 0⟩
/-- 0x6100.09 (R451). -/
def chpReqFailed : Ent := ⟨0x6100 * 256 + 0x09, 0⟩
/-- 0x6100.0A (R451). -/
def ringAbandoned : Ent := ⟨0x6100 * 256 + 0x0A, 0⟩
/-- 0x6100.0B (R451). -/
def recordOverwritten : Ent := ⟨0x6100 * 256 + 0x0B, 0⟩
/-- 0x6100.0C (R451). -/
def recordFullStops : Ent := ⟨0x6100 * 256 + 0x0C, 0⟩
/-- 0x6100.0D (R451). -/
def replayRepliesDropped : Ent := ⟨0x6100 * 256 + 0x0D, 0⟩
/-- 0x1000.01 (R476). -/
def serial : Ent := ⟨0x1000 * 256 + 0x01, 0⟩
/-- 0x1000.02 (R476). -/
def partNumber : Ent := ⟨0x1000 * 256 + 0x02, 0⟩
/-- 0x1000.03 (R476). -/
def grade : Ent := ⟨0x1000 * 256 + 0x03, 0⟩
/-- 0x1000.04 (R476). -/
def stepping : Ent := ⟨0x1000 * 256 + 0x04, 176⟩
/-- 0x1000.05 (R476). -/
def fwBuild : Ent := ⟨0x1000 * 256 + 0x05, 0⟩
/-- 0x1000.06 (R476). -/
def fwSlot : Ent := ⟨0x1000 * 256 + 0x06, 0⟩
/-- 0x1000.07 (R476). -/
def romVersion : Ent := ⟨0x1000 * 256 + 0x07, 0⟩
/-- 0x1000.08 (R476). -/
def chainMac : Ent := ⟨0x1000 * 256 + 0x08, 0⟩
/-- 0x1100.01 (R476). -/
def jobState : Ent := ⟨0x1100 * 256 + 0x01, 0⟩
/-- 0x1100.02 (R476). -/
def jobCmd : Ent := ⟨0x1100 * 256 + 0x02, 0⟩
/-- 0x1100.03 (R476). -/
def jobStartTime : Ent := ⟨0x1100 * 256 + 0x03, 0⟩
/-- 0x1110.01 (R476). -/
def jobSignatureStep : Ent := ⟨0x1110 * 256 + 0x01, 0⟩
/-- 0x1110.02 (R476). -/
def jobSignature : Ent := ⟨0x1110 * 256 + 0x02, 0⟩
/-- 0x7000.01 (R476). -/
def chainId : Ent := ⟨0x7000 * 256 + 0x01, 0⟩
/-- 0x7000.02 (R476). -/
def chainStrap : Ent := ⟨0x7000 * 256 + 0x02, 0⟩
/-- 0x7000.03 (R476). -/
def chainIdSource : Ent := ⟨0x7000 * 256 + 0x03, 2⟩
/-- 0x7000.04 (R476). -/
def plcaToTimer : Ent := ⟨0x7000 * 256 + 0x04, 32⟩
/-- 0x7000.05 (R476). -/
def plcaMaxBurst : Ent := ⟨0x7000 * 256 + 0x05, 0⟩
/-- 0x7000.06 (R476). -/
def plcaBurstTimer : Ent := ⟨0x7000 * 256 + 0x06, 128⟩
/-- 0x7000.07 (R476). -/
def ahmUdpPort : Ent := ⟨0x7000 * 256 + 0x07, 47100⟩
/-- 0x7000.08 (R476). -/
def ahmAnswerLimit : Ent := ⟨0x7000 * 256 + 0x08, 2000⟩
/-- 0x7001.01 (R476). -/
def dictFlashRestore : Ent := ⟨0x7001 * 256 + 0x01, 0⟩
/-- 0x7010.01 (R476). -/
def ahmRequests : Ent := ⟨0x7010 * 256 + 0x01, 0⟩
/-- 0x7010.02 (R476). -/
def ahmDiscards : Ent := ⟨0x7010 * 256 + 0x02, 0⟩
/-- 0x7010.03 (R476). -/
def ahmDuplicates : Ent := ⟨0x7010 * 256 + 0x03, 0⟩
/-- 0x7010.04 (R476). -/
def chainTxDiscards : Ent := ⟨0x7010 * 256 + 0x04, 0⟩
/-- 0x7010.05 (R476). -/
def chainClaims : Ent := ⟨0x7010 * 256 + 0x05, 0⟩
/-- 0x7010.06 (R476). -/
def chainClaimCollisions : Ent := ⟨0x7010 * 256 + 0x06, 0⟩
/-- 0x7010.07 (R476). -/
def chainIdConflicts : Ent := ⟨0x7010 * 256 + 0x07, 0⟩
/-- 0x7010.08 (R476). -/
def chainStrapInvalid : Ent := ⟨0x7010 * 256 + 0x08, 0⟩
/-- 0x7010.09 (R476). -/
def dictWrites : Ent := ⟨0x7010 * 256 + 0x09, 0⟩
/-- 0x7010.0A (R476). -/
def dictWritesRefused : Ent := ⟨0x7010 * 256 + 0x0A, 0⟩
/-- 0x7010.0B (R476). -/
def dictFlashCommits : Ent := ⟨0x7010 * 256 + 0x0B, 0⟩
/-- 0x8000.01 (R497). -/
def engineWdt : Ent := ⟨0x8000 * 256 + 0x01, 50⟩
/-- 0x8000.02 (R497). -/
def coreWdt : Ent := ⟨0x8000 * 256 + 0x02, 100⟩
/-- 0x8000.03 (R497). -/
def heartbeatPeriod : Ent := ⟨0x8000 * 256 + 0x03, 1000⟩
/-- 0x8000.04 (R497). -/
def heartbeatMissLimit : Ent := ⟨0x8000 * 256 + 0x04, 10⟩
/-- 0x8000.05 (R497). -/
def wdtEnable : Ent := ⟨0x8000 * 256 + 0x05, 1⟩
/-- 0x8010.01 (R497). -/
def resetRequest : Ent := ⟨0x8010 * 256 + 0x01, 0⟩
/-- 0x8011.01–.07 (R497). -/
def resetLimit (k : Nat) : Ent := ⟨0x8011 * 256 + 0x01 + k, 0⟩
/-- 0x8020.01 (R497). -/
def fencedDies : Ent := ⟨0x8020 * 256 + 0x01, 0⟩
/-- 0x8020.02 (R497). -/
def fencedSettings : Ent := ⟨0x8020 * 256 + 0x02, 0⟩
/-- 0x8020.03 (R497). -/
def fencedRims : Ent := ⟨0x8020 * 256 + 0x03, 0⟩
/-- 0x8030.01–.07 (R497). -/
def resets (k : Nat) : Ent := ⟨0x8030 * 256 + 0x01 + k, 0⟩
/-- 0x8031.01–.07 (R497). -/
def escalations (k : Nat) : Ent := ⟨0x8031 * 256 + 0x01 + k, 0⟩
/-- 0x8032.01 (R497). -/
def diesFencedTotal : Ent := ⟨0x8032 * 256 + 0x01, 0⟩
/-- 0x8032.02 (R497). -/
def settingsFencedTotal : Ent := ⟨0x8032 * 256 + 0x02, 0⟩
/-- 0x8032.03 (R497). -/
def rimsFencedTotal : Ent := ⟨0x8032 * 256 + 0x03, 0⟩
/-- 0x8033.01 (R497). -/
def resetRequestsMerged : Ent := ⟨0x8033 * 256 + 0x01, 0⟩
/-- 0x8040.01 (R497). -/
def locketsCaptured : Ent := ⟨0x8040 * 256 + 0x01, 0⟩
/-- 0x8040.02 (R497). -/
def locketAccessTimeouts : Ent := ⟨0x8040 * 256 + 0x02, 0⟩
/-- 0x8040.03 (R497). -/
def locketAccessesSkipped : Ent := ⟨0x8040 * 256 + 0x03, 0⟩
/-- 0x8040.04 (R497). -/
def locketsTruncated : Ent := ⟨0x8040 * 256 + 0x04, 0⟩
/-- 0x8040.05 (R497). -/
def locketsAbandoned : Ent := ⟨0x8040 * 256 + 0x05, 0⟩
/-- 0x8041.01 (R497). -/
def locketCaptureLimit : Ent := ⟨0x8041 * 256 + 0x01, 200⟩
/-- 0x8041.02 (R497). -/
def locketAccessTimeout : Ent := ⟨0x8041 * 256 + 0x02, 20⟩
/-- 0x8041.03 (R497). -/
def locketLayout : Ent := ⟨0x8041 * 256 + 0x03, 1⟩
/-- 0x8042.01 (R497). -/
def locketWindowSetting : Ent := ⟨0x8042 * 256 + 0x01, 0⟩
/-- 0x8042.02 (R497). -/
def locketWindowOffset : Ent := ⟨0x8042 * 256 + 0x02, 0⟩
/-- 0x8042.03 (R497). -/
def locketWindowData : Ent := ⟨0x8042 * 256 + 0x03, 0⟩
/-- 0x8050+s .01 (R497). -/
def locketLast (s : Nat) : Ent := ⟨(0x8050 + s) * 256 + 0x01, 4294967295⟩
/-- 0x8050+s .02 (R497). -/
def locketNext (s : Nat) : Ent := ⟨(0x8050 + s) * 256 + 0x02, 0⟩
/-- 0x8400+n .01 (R497). -/
def engineWdtExpiries (n : Nat) : Ent := ⟨(0x8400 + n) * 256 + 0x01, 0⟩
/-- 0x8400+n .02 (R497). -/
def coreWdtExpiries (n : Nat) : Ent := ⟨(0x8400 + n) * 256 + 0x02, 0⟩
/-- 0x8600+d .01 (R497). -/
def heartbeatMissesDie (d : Nat) : Ent := ⟨(0x8600 + d) * 256 + 0x01, 0⟩
/-- 0x8600+d .02 (R497). -/
def dieHangsDie (d : Nat) : Ent := ⟨(0x8600 + d) * 256 + 0x02, 0⟩
/-- 0x8660+s .01 (R497). -/
def heartbeatMissesBase (s : Nat) : Ent := ⟨(0x8660 + s) * 256 + 0x01, 0⟩
/-- 0x8660+s .02 (R497). -/
def dieHangsBase (s : Nat) : Ent := ⟨(0x8660 + s) * 256 + 0x02, 0⟩
/-- 0x8680+r .01 (R497). -/
def heartbeatMissesRim (r : Nat) : Ent := ⟨(0x8680 + r) * 256 + 0x01, 0⟩
/-- 0x8680+r .02 (R497). -/
def dieHangsRim (r : Nat) : Ent := ⟨(0x8680 + r) * 256 + 0x02, 0⟩
/-- 0x2030.01 (R515). -/
def redundancyEnable : Ent := ⟨0x2030 * 256 + 0x01, 0⟩
/-- 0x2030.02 (R515). -/
def rotationEnable : Ent := ⟨0x2030 * 256 + 0x02, 1⟩
/-- 0x2030.03 (R515). -/
def rotationPeriod : Ent := ⟨0x2030 * 256 + 0x03, 500⟩
/-- 0x2A00+n .01 (R515). -/
def hallmarkTests (n : Nat) : Ent := ⟨(0x2A00 + n) * 256 + 0x01, 0⟩
/-- 0x2A00+n .02 (R515). -/
def hallmarkPasses (n : Nat) : Ent := ⟨(0x2A00 + n) * 256 + 0x02, 0⟩
/-- 0x2A00+n .03 (R515). -/
def hallmarkFails (n : Nat) : Ent := ⟨(0x2A00 + n) * 256 + 0x03, 0⟩
/-- 0x2A00+n .04 (R515). -/
def swaps (n : Nat) : Ent := ⟨(0x2A00 + n) * 256 + 0x04, 0⟩
/-- 0x2A00+n .05 (R515). -/
def swapNotQuiescent (n : Nat) : Ent := ⟨(0x2A00 + n) * 256 + 0x05, 0⟩
/-- 0x2A00+n .06 (R515). -/
def testsDeferredNoSpare (n : Nat) : Ent := ⟨(0x2A00 + n) * 256 + 0x06, 0⟩
/-- 0x2A00+n .07 (R515). -/
def testsOverdue (n : Nat) : Ent := ⟨(0x2A00 + n) * 256 + 0x07, 0⟩
/-- 0x2A00+n .08 (R515). -/
def assaySuspects (n : Nat) : Ent := ⟨(0x2A00 + n) * 256 + 0x08, 0⟩
/-- 0x2A00+n .09 (R515). -/
def lockstepMismatches (n : Nat) : Ent := ⟨(0x2A00 + n) * 256 + 0x09, 0⟩
/-- 0x2A00+n .0A (R515). -/
def quickCheckFails (n : Nat) : Ent := ⟨(0x2A00 + n) * 256 + 0x0A, 0⟩
/-- 0x2A00+n .0B (R515). -/
def hallmarkAbandoned (n : Nat) : Ent := ⟨(0x2A00 + n) * 256 + 0x0B, 0⟩
/-- 0x2C00+n .01–.11 (R515). -/
def lastCleanStep (n k : Nat) : Ent := ⟨(0x2C00 + n) * 256 + 0x01 + k, 4294967295⟩
/-- 0x2C00+n .20 (R515). -/
def suspectMask (n : Nat) : Ent := ⟨(0x2C00 + n) * 256 + 0x20, 0⟩
/-- 0x2C00+n .21 (R515). -/
def failedMask (n : Nat) : Ent := ⟨(0x2C00 + n) * 256 + 0x21, 0⟩
/-- 0x2C00+n .22 (R515). -/
def nextDueStep (n : Nat) : Ent := ⟨(0x2C00 + n) * 256 + 0x22, 0⟩
/-- 0x2C00+n .23 (R515). -/
def swapStep (n : Nat) : Ent := ⟨(0x2C00 + n) * 256 + 0x23, 0⟩
/-- 0x2C00+n .24 (R515). -/
def testTarget (n : Nat) : Ent := ⟨(0x2C00 + n) * 256 + 0x24, 255⟩
/-- 0x2C00+n .25 (R515). -/
def underTest (n : Nat) : Ent := ⟨(0x2C00 + n) * 256 + 0x25, 255⟩
/-- 0x8100.01 (R515). -/
def hallmarkInstall : Ent := ⟨0x8100 * 256 + 0x01, 0⟩
/-- 0x8100.02 (R515). -/
def hallmarkInstallStatus : Ent := ⟨0x8100 * 256 + 0x02, 0⟩
/-- 0x8100.03 (R515). -/
def hallmarkRemove : Ent := ⟨0x8100 * 256 + 0x03, 0⟩
/-- 0x8100.04 (R515). -/
def hallmarkGuardVolt : Ent := ⟨0x8100 * 256 + 0x04, 4294967266⟩
/-- 0x8100.05 (R515). -/
def hallmarkGuardClock : Ent := ⟨0x8100 * 256 + 0x05, 50⟩
/-- 0x8100.06 (R515). -/
def hallmarkQuickLimit : Ent := ⟨0x8100 * 256 + 0x06, 600⟩
/-- 0x8110.01–.08 (R515). -/
def hallmarkBundleId (k : Nat) : Ent := ⟨0x8110 * 256 + 0x01 + k, 0⟩
/-- 0x8111.01–.08 (R515). -/
def hallmarkBundleVersion (k : Nat) : Ent := ⟨0x8111 * 256 + 0x01 + k, 0⟩
/-- 0x8120.01 (R515). -/
def hallmarkInstalls : Ent := ⟨0x8120 * 256 + 0x01, 0⟩
/-- 0x8120.02 (R515). -/
def hallmarkInstallRefused : Ent := ⟨0x8120 * 256 + 0x02, 0⟩
/-- 0xA000.01–.04 (R534). -/
def keyDigest (k : Nat) : Ent := ⟨0xA000 * 256 + 0x01 + k, 0⟩
/-- 0xA001.01 (R534). -/
def keyRevoked : Ent := ⟨0xA001 * 256 + 0x01, 0⟩
/-- 0xA001.02 (R534). -/
def fusedSvn : Ent := ⟨0xA001 * 256 + 0x02, 0⟩
/-- 0xA001.03 (R534). -/
def runningSvn : Ent := ⟨0xA001 * 256 + 0x03, 0⟩
/-- 0xA001.04 (R534). -/
def fwKeySlot : Ent := ⟨0xA001 * 256 + 0x04, 0⟩
/-- 0xA001.05 (R534). -/
def fwNextSlot : Ent := ⟨0xA001 * 256 + 0x05, 0⟩
/-- 0xA001.06 (R534). -/
def bootModeStrap : Ent := ⟨0xA001 * 256 + 0x06, 0⟩
/-- 0xA001.07 (R534). -/
def rollbackCommit : Ent := ⟨0xA001 * 256 + 0x07, 0⟩
/-- 0xA002.01 (R534). -/
def fwUpdate : Ent := ⟨0xA002 * 256 + 0x01, 0⟩
/-- 0xA002.02 (R534). -/
def fwUpdateStatus : Ent := ⟨0xA002 * 256 + 0x02, 0⟩
/-- 0xA002.03 (R534). -/
def fwStageOffset : Ent := ⟨0xA002 * 256 + 0x03, 0⟩
/-- 0xA002.04 (R534). -/
def fwStageData : Ent := ⟨0xA002 * 256 + 0x04, 0⟩
/-- 0xA010.01 (R534). -/
def deviceIdPubkey : Ent := ⟨0xA010 * 256 + 0x01, 0⟩
/-- 0xA011.01–.05 (R534). -/
def deviceCert (k : Nat) : Ent := ⟨0xA011 * 256 + 0x01 + k, 0⟩
/-- 0xA020.01 (R534). -/
def signetNonce : Ent := ⟨0xA020 * 256 + 0x01, 0⟩
/-- 0xA020.02–.06 (R534). -/
def signetReport (k : Nat) : Ent := ⟨0xA020 * 256 + 0x02 + k, 0⟩
/-- 0xA030.01 (R534). -/
def debugChallenge : Ent := ⟨0xA030 * 256 + 0x01, 0⟩
/-- 0xA030.02–.05 (R534). -/
def debugAuth (k : Nat) : Ent := ⟨0xA030 * 256 + 0x02 + k, 0⟩
/-- 0xA030.06 (R534). -/
def debugState : Ent := ⟨0xA030 * 256 + 0x06, 0⟩
/-- 0xA030.07 (R534). -/
def debugLock : Ent := ⟨0xA030 * 256 + 0x07, 0⟩
/-- 0xA100.01 (R534). -/
def bootImageInvalid : Ent := ⟨0xA100 * 256 + 0x01, 0⟩
/-- 0xA100.02 (R534). -/
def bootVerifyFails : Ent := ⟨0xA100 * 256 + 0x02, 0⟩
/-- 0xA100.03 (R534). -/
def bootRevokedRefused : Ent := ⟨0xA100 * 256 + 0x03, 0⟩
/-- 0xA100.04 (R534). -/
def bootRollbackRefused : Ent := ⟨0xA100 * 256 + 0x04, 0⟩
/-- 0xA100.05 (R534). -/
def bootFallbacks : Ent := ⟨0xA100 * 256 + 0x05, 0⟩
/-- 0xA100.06 (R534). -/
def bootVerifyDisagree : Ent := ⟨0xA100 * 256 + 0x06, 0⟩
/-- 0xA100.07 (R534). -/
def bootRecoveryEntries : Ent := ⟨0xA100 * 256 + 0x07, 0⟩
/-- 0xA100.08 (R534). -/
def bootStrapInvalid : Ent := ⟨0xA100 * 256 + 0x08, 0⟩
/-- 0xA100.09 (R534). -/
def fwUpdateRefused : Ent := ⟨0xA100 * 256 + 0x09, 0⟩
/-- 0xA100.0A (R534). -/
def signetReports : Ent := ⟨0xA100 * 256 + 0x0A, 0⟩
/-- 0xA100.0B (R534). -/
def debugAuthGrants : Ent := ⟨0xA100 * 256 + 0x0B, 0⟩
/-- 0xA100.0C (R534). -/
def debugAuthRefused : Ent := ⟨0xA100 * 256 + 0x0C, 0⟩
/-- 0x9000.01 (R548). -/
def pkgPowerLimit : Ent := ⟨0x9000 * 256 + 0x01, 8000⟩
/-- 0x9000.02 (R548). -/
def pkgPower : Ent := ⟨0x9000 * 256 + 0x02, 0⟩
/-- 0x9000.03 (R548). -/
def powerWindow : Ent := ⟨0x9000 * 256 + 0x03, 10⟩
/-- 0x9000.04 (R548). -/
def thermtripSensor : Ent := ⟨0x9000 * 256 + 0x04, 65535⟩
/-- 0x9000.10 (R548). -/
def powerLimitWindows : Ent := ⟨0x9000 * 256 + 0x10, 0⟩
/-- 0x9000.11 (R548). -/
def prochotInAssertions : Ent := ⟨0x9000 * 256 + 0x11, 0⟩
/-- 0x9000.12 (R548). -/
def refclkLoss : Ent := ⟨0x9000 * 256 + 0x12, 0⟩
/-- 0x9001.01–.04 (R548). -/
def refclk156Loss (k : Nat) : Ent := ⟨0x9001 * 256 + 0x01 + k, 0⟩
/-- 0x9010+s .01 (R548). -/
def settingPower (s : Nat) : Ent := ⟨(0x9010 + s) * 256 + 0x01, 0⟩
/-- 0x9010+s .02 (R548). -/
def vinStretched (s : Nat) : Ent := ⟨(0x9010 + s) * 256 + 0x02, 0⟩
/-- 0x9010+s .10 (R548). -/
def vinWarnings (s : Nat) : Ent := ⟨(0x9010 + s) * 256 + 0x10, 0⟩
/-- 0x9010+s .11 (R548). -/
def vinPowerfails (s : Nat) : Ent := ⟨(0x9010 + s) * 256 + 0x11, 0⟩
/-- 0x9010+s .12 (R548). -/
def hbmPowerfailLost (s : Nat) : Ent := ⟨(0x9010 + s) * 256 + 0x12, 0⟩
/-- 0x9010+s .13 (R548). -/
def vinStretchNs (s : Nat) : Ent := ⟨(0x9010 + s) * 256 + 0x13, 0⟩
/-- 0x9100+n .01 (R548). -/
def clusterMv (n : Nat) : Ent := ⟨(0x9100 + n) * 256 + 0x01, 0⟩
/-- 0x9100+n .02 (R548). -/
def clusterMhz (n : Nat) : Ent := ⟨(0x9100 + n) * 256 + 0x02, 1700⟩
/-- 0x9100+n .03 (R548). -/
def clusterSteps (n : Nat) : Ent := ⟨(0x9100 + n) * 256 + 0x03, 1052688⟩
/-- 0x9100+n .10 (R548). -/
def thermalThrottleUs (n : Nat) : Ent := ⟨(0x9100 + n) * 256 + 0x10, 0⟩
/-- 0x9300+k .01 (R548). -/
def railVr (k : Nat) : Ent := ⟨(0x9300 + k) * 256 + 0x01, 0⟩
/-- 0x9300+k .02 (R548). -/
def railMv (k : Nat) : Ent := ⟨(0x9300 + k) * 256 + 0x02, 0⟩
/-- 0x9300+k .03 (R548). -/
def railMa (k : Nat) : Ent := ⟨(0x9300 + k) * 256 + 0x03, 0⟩
/-- 0x9300+k .04 (R548). -/
def railVrTemp (k : Nat) : Ent := ⟨(0x9300 + k) * 256 + 0x04, 0⟩
/-- 0x9300+k .10 (R548). -/
def railExcursions (k : Nat) : Ent := ⟨(0x9300 + k) * 256 + 0x10, 0⟩
/-- 0x9300+k .11 (R548). -/
def railFaults (k : Nat) : Ent := ⟨(0x9300 + k) * 256 + 0x11, 0⟩
/-- 0x9500+(i div 256) .(i mod 256) (R548). -/
def temp (i : Nat) : Ent := ⟨0x9500 * 256 + i, 0⟩
/-- 0x9510.01 (R548). -/
def overLimitSamples : Ent := ⟨0x9510 * 256 + 0x01, 0⟩
/-- 0x9520+s .01 (R548). -/
def hbmThrottleUs (s : Nat) : Ent := ⟨(0x9520 + s) * 256 + 0x01, 0⟩
/-- 0x9600+b .01 (R548). -/
def pmbusErrors (b : Nat) : Ent := ⟨(0x9600 + b) * 256 + 0x01, 0⟩
/-- 0x9600+b .02 (R548). -/
def pmbusAlerts (b : Nat) : Ent := ⟨(0x9600 + b) * 256 + 0x02, 0⟩
/-- 0x1000.10 (R559). -/
def pkgState : Ent := ⟨0x1000 * 256 + 0x10, 0⟩
/-- 0x1000.11 (R559). -/
def startFault : Ent := ⟨0x1000 * 256 + 0x11, 0⟩
/-- 0x1000.12 (R559). -/
def coldInitCount : Ent := ⟨0x1000 * 256 + 0x12, 0⟩
/-- 0x1000.13 (R559). -/
def coldInitCause : Ent := ⟨0x1000 * 256 + 0x13, 0⟩
/-- 0x1000.14 (R559). -/
def readyTime : Ent := ⟨0x1000 * 256 + 0x14, 0⟩

end Key

end Sys2Proof.Machine
end

