-- ==== Sys2Proof/Machine/Fresh.lean ====
section
/-!
DEFINITION. Units in their reset state.
-/
namespace Sys2Proof.Machine

/-- A context that is not loaded, its registers 0 (R443, log entry 7). -/
def Ctx.fresh : Ctx := { regs := Vector.replicate 32 0, pc := 0, st := .notLoaded, stall := none }

/-- An engine with an empty queue. -/
def Engine.fresh : Engine := { queue := [], stopped := false, started := [] }

/-- A disabled queue (R83). -/
def Queue.fresh : Queue :=
  { mode := 0, base := 0, slotLog2 := 0, countLog2 := 0, event := false, srcNode := 0, srcEp := 0, entries := [],
    claimed := [], next := 0 }

/-- A closed lane (R224). -/
def Lane.fresh : Lane := { isOpen := false, base := 0, limit := 0, top := 0, last := none, count := 0 }

/-- A bank in its program-load state (R96). -/
def Bank.fresh : Bank := { kind := .empty, closed := false, fmt := 0, entries := [] }

/-- A scale context that is not valid (R150). -/
def ScaleCtx.fresh : ScaleCtx :=
  { valid := false, auto := false, histLen := 0, target := 0, margin := 0, exp := 0, satThresh := 0, satCount := 0,
    amaxCur := 0, histValid := 0, hist := [] }

/-- A physical core at reset (R45, R63, R83, R96, R146, R150, R224; log entry 7). -/
def Core.fresh : Core :=
  { primary := Ctx.fresh, companion := Ctx.fresh, onComp := false, ibuf := Mem.zero, sp := Mem.zero, ctrs := [],
    mxe := Engine.fresh, fge := Engine.fresh, mse := Engine.fresh, ops := [], nextOp := 0, queues := [], credits := [],
    banks := [], stageA := none, stageB := none, scales := [], rstep := 0, lanes := [], cycles := 0, crc := {} }

/-- The bucket sequencer after a cold initialisation (R269): no step open. -/
def Sequencer.fresh : Sequencer :=
  { isOpen := false, step := 0, first := 0, count := 0, u := 0, fin := [], run := [], released := none,
    zones := [] }

/-- A Troy unit with nothing queued. Program slots and constant tables hold what R293 gives at reset. -/
def Troy.fresh : Troy := { queue := [], programs := [], consts := [], running := none, heldPuts := [] }

/-- An HBM stack before its training ends (R333): it accepts no request. -/
def Stack.fresh : Stack :=
  { mem := Mem.zero, active := List.finRange 32, ring := 0, errors := [], wcb := [], down := [], failed := false, off := false, accepting := false,
    training := true }

/-- The host port with no session (R432, R444, R445, R449). -/
def HostUnit.fresh : HostUnit :=
  { sessions := [], stopped := false, reqs := [], cmdqs := [], rings := [],
    recording := { st := 0, records := [], next := 0, number := 0 }, replay := none, saks := [], ptpHeard := none }

/-- The host port as a reset leaves it: the keys of MACsec, the packet numbers under them and the records in HBM stay (R478). -/
def HostUnit.restarted (h : HostUnit) : HostUnit :=
  { HostUnit.fresh with saks := h.saks, rxPns := h.rxPns, txAn := h.txAn, txPn := h.txPn, recording := { h.recording with st := 0 } }

/-- The Chain interface before step 2 of R553 ends: it does not answer. -/
def Chain.fresh : Chain :=
  { answers := false, claim := .held, tx := [], resetsDue := [], collisions := 0, answered := [] }

/-- No Hallmark bundle installed (R502). -/
def Hallmark.fresh : Hallmark := { slots := [], install := none, tests := [], passed := [], last := [], overdue := [] }

/-- The fuses the package was made with (R520): constants of Config. -/
def Fuses.made : Fuses :=
  { digests := (List.range 4).map (fun k => (List.range 32).map (Config.fuseDigest k)), revoked := Config.fuseRevoked.toNat,
    svn := Config.fuseSvn.val, seed := (List.range 32).map Config.fuseSeed, serial := Config.fuseSerial.toNat, gradeB := Config.fuseGradeB }

/-- The flash as the package was made, no image running yet (R524): what the slots hold is not the manual's to say, so it is the
free contents 1 and 2 (log entry 2). -/
def Firmware.fresh : Firmware :=
  { slotA := { base := 1, cells := [] }, slotB := { base := 2, cells := [] }, running := 0, svn := 0, keySlot := 0, revoke := 0,
    digest := [], tried := [], update := none }

/-- No part of an authorisation staged (R533). -/
def Debug.fresh : Debug := { parts := [] }

/-- A supply in order (R540, R541). -/
def Supply.fresh : Supply := { stretched := false, powerFail := false }

/-- Every sensor cool (R545–R547). -/
def Thermal.fresh : Thermal := { coolAt := [], tripped := none }

/-- The pins of a package whose power sequence is done (R549, R550): PWROK and PRST_N high, clocks present, straps low. -/
def Pins.fresh : Pins :=
  { pwrok := true, prstN := true, refclk100 := true, prochotIn := false,
    chainStrap := 0, bootStrap := 0 }

/-- A cold initialisation with cause power-up that has just begun (R549, R553). -/
def Startup.fresh : Startup :=
  { running := true, cold := true, cause := 0, lead := 0, verified := false, quickDone := false,
    hbmDone := [], linksOut := [], everReady := false, repeats := 0 }

/-- A DISABLED link (R350). -/
def LinkState.fresh : LinkState :=
  { st := 0, nbState := 0, txSeq := 0, expect := 0, nakDue := false, nakSent := none, retries := 0, replay := [],
    credits := [], owed := [], txq := [], streams := [], record := none, echoTx := 0, echoRx := 0, sentTx := [],
    split := false }

/-- A port that has heard nothing (R357, R362). -/
def PortState.fresh : PortState := { record := none, offset := 0, hops := 0xFF, locked := false, root := 0 }

end Sys2Proof.Machine
end

