-- ==== Sys2Proof/Machine/State.lean ====
section
/-!
DEFINITION. State: everything the manual gives the package, as plain data, and the state after reset.
-/
namespace Sys2Proof.Machine

/-- Why the machine stops: never. Every command of every row has an effect, or none, in every state (log entry 19), so there is no
reason to name. -/
inductive Fault where
deriving DecidableEq, Repr

/-- Why a command is refused. -/
inductive Refusal where
  /-- No meaning yet for the command named. Raised by an arm of exec only. Safe: nothing is claimed. -/
  | notModelled (mnemonic : String)
deriving DecidableEq, Repr

/-- The package. Lists of pairs are keyed by unit number with rising keys; a unit not listed is in its reset state.
Dictionary entries with no other home are in `dict`, keyed by 256·index + subindex, as the number their octets hold;
an entry not listed has its default (R467). -/
structure State where
  /-- The commands waiting, first in, first out. -/
  pending   : List Instr
  /-- The model's own: which free value comes next (log entry 2). -/
  freeCtr   : Nat
  /-- The model's own: what the package has put out, oldest first (log entry 4). -/
  out       : List Output
  /-- Fabric time in ns (R355). -/
  ftime     : Nat
  dict      : List (Nat × Nat)
  staging   : List (Nat × List Byte)
  /-- Flash entries written and not yet stored, with what the flash holds, none for a default (R473). -/
  flashDue  : List (Nat × Option Nat)
  flashRestore : Bool
  cmap      : List (Nat × List (Fin 17))
  cores     : List (Nat × Core)
  /-- The content number of the scratchpads and instruction buffers of cores not listed: 0 for zeros. -/
  spBase    : Nat
  meshOut   : List (Nat × Nat)
  /-- The model's own: how much of `out` the mesh has counted (log entry 57). -/
  meshSeen  : Nat
  seq       : Sequencer
  commits   : List HeldCommit
  colls     : List (Nat × Coll)
  streams   : List Stream
  msgs      : List (Nat × OutMsg)
  nextMsg   : Nat
  msgNo     : Nat
  retired   : List (Nat × Nat)
  reorders  : List Reorder
  dups      : List DupRecord
  /-- Packets that wait for a port: the port, the virtual channel, the packet as it goes out, the packet as it was before this hop, and the
  route that it took. -/
  waiting   : List (Nat × Nat × Packet × Packet × Route)
  /-- Packets that links have received, each with its port, until they are delivered or sent on (R390). -/
  inbound   : List (Nat × Packet)
  hbms      : List (Nat × Stack)
  troys     : List (Nat × Troy)
  links     : List (Nat × LinkState)
  ports     : List (Nat × PortState)
  everLocked : Bool
  timeRoot  : Nat
  slew      : Nat
  /-- The offset that the rate of fabric time is still to remove, and when it last did so (R361). -/
  rateLeft  : Int
  rateAt    : Nat
  host      : HostUnit
  chain     : Chain
  resets    : List ResetJob
  missed    : List (Nat × Nat)
  hall      : Hallmark
  swaps     : List Swap
  fuses     : Fuses
  fw        : Firmware
  dbg       : Debug
  supplies  : List (Nat × Supply)
  thermal   : Thermal
  hbmSteps  : List (Nat × Nat)
  pins      : Pins
  startup   : Startup
deriving DecidableEq, Repr

/-- The package at the start of a cold initialisation with cause power-up (R549, R553, R555): the queue is empty, every
dictionary entry reads its default, PKG_STATE reads INITIALISING, fabric time is 0 and no unit has been loaded. Values
the manual does not give are named in log entry 7. -/
def State.reset : State :=
  { pending := [], freeCtr := 16, out := [], ftime := 0, dict := [], staging := [], flashDue := [], flashRestore := false,
    cmap := [], cores := [], spBase := 0, meshOut := [], meshSeen := 0, seq := Sequencer.fresh, commits := [], colls := [], streams := [], msgs := [],
    nextMsg := 0, msgNo := 0, retired := [], reorders := [], dups := [], waiting := [], inbound := [], hbms := [], troys := [],
    links := [], ports := [], everLocked := false, timeRoot := 0, slew := 0, rateLeft := 0, rateAt := 0, host := HostUnit.fresh, chain := Chain.fresh, resets := [],
    missed := [], hall := Hallmark.fresh, swaps := [], fuses := Fuses.made, fw := Firmware.fresh, dbg := Debug.fresh,
    supplies := [], thermal := Thermal.fresh, hbmSteps := [], pins := Pins.fresh, startup := Startup.fresh }

end Sys2Proof.Machine
end

