-- ==== Sys2Proof/Machine/Ops.lean ====
section
/-!
DEFINITION. The named operations over memories, keyed lists, the dictionary store, free values and output that every
meaning is written with.
-/
namespace Sys2Proof.Machine

/-! ## Keyed lists: rising keys, one entry a key -/

/-- The entry of key `k`. -/
def look {α : Type} (k : Nat) : List (Nat × α) → Option α
  | [] => none
  | (j, v) :: t => if j = k then some v else look k t

/-- The list with the entry of key `k` set, keys kept rising. -/
def put {α : Type} (k : Nat) (v : α) : List (Nat × α) → List (Nat × α)
  | [] => [(k, v)]
  | (j, w) :: t => if k < j then (k, v) :: (j, w) :: t else if j = k then (k, v) :: t else (j, w) :: put k v t

/-- The list without an entry of key `k`. -/
def drop' {α : Type} (k : Nat) : List (Nat × α) → List (Nat × α)
  | [] => []
  | (j, w) :: t => if j = k then t else (j, w) :: drop' k t

/-! ## Memories -/

/-- The cell list with byte `b` at address `a`, in canonical form for the unlisted values `u`. -/
def cellsSet (u : Nat → Byte) (a : Nat) (b : Byte) : List Host.Cell → List Host.Cell
  | [] => if b = u a then [] else [(a, b)]
  | (a', b') :: t =>
    if a < a' then (if b = u a then (a', b') :: t else (a, b) :: (a', b') :: t)
    else if a' = a then (if b = u a then t else (a, b) :: t)
    else (a', b') :: cellsSet u a b t

/-- The byte at an address. -/
def Mem.read (m : Mem) (a : Nat) : Byte := (look a m.cells).getD (m.unlisted a)

/-- A memory with one byte written. -/
def Mem.write (m : Mem) (a : Nat) (b : Byte) : Mem := { m with cells := cellsSet m.unlisted a b m.cells }

/-- `n` bytes from an address on, lowest first. -/
def Mem.readN (m : Mem) (a : Nat) : Nat → List Byte
  | 0 => []
  | n + 1 => m.read a :: Mem.readN m (a + 1) n

/-- A memory with the bytes written from an address on. -/
def Mem.writeN (m : Mem) (a : Nat) : List Byte → Mem
  | [] => m
  | b :: bs => Mem.writeN (m.write a b) (a + 1) bs

/-- The number in `n` bytes from an address on (R9). -/
def Mem.num (m : Mem) (a n : Nat) : Nat := leNat (m.readN a n)

/-- The cell list is strictly rising from above `lo` and lists no byte equal to its unlisted value. -/
def cellsWf (u : Nat → Byte) : Option Nat → List Host.Cell → Bool
  | _, [] => true
  | lo, (a, b) :: t =>
    (match lo with | none => true | some l => decide (l < a)) && decide (b ≠ u a) && cellsWf u (some a) t

/-- The canonical form of a memory. -/
def Mem.wf (m : Mem) : Bool := cellsWf m.unlisted none m.cells

/-! ## Free values -/

/-- The next free value (log entry 2). -/
def State.free (s : State) : Nat := Config.freeNat s.freeCtr

/-- The state once a free value has been taken. -/
def State.tick (s : State) : State := { s with freeCtr := s.freeCtr + 1 }

/-- `n` free bytes from the current free value on: byte i is a free byte of its own. -/
def State.freeBytes (s : State) (n : Nat) : List Byte := (List.range n).map (Config.freeByte (s.freeCtr + 1))

/-- A memory whose every byte is undefined: the free content of the current free value. -/
def State.undefMem (s : State) : Mem := { base := s.freeCtr + 1, cells := [] }

/-! ## The dictionary store -/

/-- The value an entry holds (R467). -/
def State.get (s : State) (e : Ent) : Nat := (look e.key s.dict).getD e.dflt

/-- The state with an entry's value set by the device. -/
def State.set (s : State) (e : Ent) (v : Nat) : State := { s with dict := put e.key v s.dict }

/-- The state with a flash entry written: in effect at once, and due to be stored (R473). -/
def State.setFlash (s : State) (e : Ent) (v : Nat) : State :=
  let due := if (look e.key s.flashDue).isSome then s.flashDue else put e.key (look e.key s.dict) s.flashDue
  { s.set e v with flashDue := due }

/-- The value `n` above `v` in a U64 counter, which never decreases (R474): it stays at 2^64 − 1 (log entry 5). -/
def satAdd64 (v n : Nat) : Nat := min (v + n) (2 ^ 64 - 1)

/-- The state with a counter advanced by `n` (R6, R474). -/
def State.count (s : State) (e : Ent) (n : Nat) : State :=
  if n = 0 then s else s.set e (satAdd64 (s.get e) n)

/-- The state with a clock counter advanced by a free amount: the manual promises no timing (R20 note, log entry 6). -/
def State.countClocks (s : State) (e : Ent) : State := (s.set e (satAdd64 (s.get e) s.free)).tick

/-- DEBUG_CHALLENGE: drawn from the entropy source at each reset; before the first the model's draw is the free content 5 (R533, log
entry 2). -/
def State.challenge (s : State) : Nat := (look Key.debugChallenge.key s.dict).getD (leNat ((List.range 32).map (Config.freeByte 5)))

/-- An entry read as a truth value. -/
def State.flag (s : State) (e : Ent) : Bool := s.get e != 0

/-- The state with one more thing put out. -/
def State.emit (s : State) (o : Output) : State := { s with out := s.out ++ [o] }

/-! ## Cores -/

/-- A core not listed: at reset, its scratchpad and instruction buffer as `spBase` says. -/
def State.blankCore (s : State) (p : Nat) : Core :=
  if s.spBase = 0 then Core.fresh
  else { Core.fresh with sp := { base := s.spBase + p, cells := [] }, ibuf := { base := s.spBase + 4896 + p, cells := [] } }

/-- The physical core numbered `p` = 17·cluster + core. -/
def State.core (s : State) (p : Nat) : Core := (look p s.cores).getD (s.blankCore p)

/-- The state with a physical core replaced. -/
def State.setCore (s : State) (p : Nat) (c : Core) : State := { s with cores := put p c s.cores }

/-- The state with a physical core changed. -/
def State.updCore (s : State) (p : Nat) (f : Core → Core) : State := s.setCore p (f (s.core p))

/-- Engine `e` of a core: 0 MXE, 1 FGE, 2 MSE (R52). -/
def Core.engine (c : Core) (e : Nat) : Engine := if e = 0 then c.mxe else if e = 1 then c.fge else c.mse

/-- The core with an engine replaced. -/
def Core.setEngine (c : Core) (e : Nat) (x : Engine) : Core :=
  if e = 0 then { c with mxe := x } else if e = 1 then { c with fge := x } else { c with mse := x }

/-! ## Cluster map (R26–R32) -/

/-- A bit mask as a number of the cores 0–16 for which `p` holds. -/
def maskOf (n : Nat) (p : Nat → Bool) : Nat := (List.range n).foldl (fun m i => if p i then m + 2 ^ i else m) 0

/-- Whether a compute die is fenced (R488). -/
def State.dieFenced (s : State) (d : Nat) : Bool :=
  bit (s.get Key.fencedDies) d || bit (s.get Key.fencedSettings) (d / 3)

/-- A setting is fenced (R488). -/
def State.settingFenced (s : State) (n : Nat) : Bool := bit (s.get Key.fencedSettings) n

/-- A rim die is fenced (R488). -/
def State.rimFenced (s : State) (r : Nat) : Bool := bit (s.get Key.fencedRims) r

/-- The rim die whose service controller supervises a setting (R23, R24). -/
def supervisor (n : Nat) : Nat := n / 6

/-- The service controller of a rim die works: its die is neither fenced nor under reset. -/
def State.rimWorks (s : State) (r : Nat) : Bool := !s.rimFenced r && !s.resets.any (fun j => j.domain == 5 && j.target == r)

/-- A setting is supervised (R24). -/
def State.watches (s : State) (n : Nat) : Bool := s.rimWorks (supervisor n)

/-- Logical cores of a global cluster as the list of physical cores that hold them (R32). A cluster not listed has the
map of a cluster with 17 good cores in P16. -/
def State.clusterMap (s : State) (n : Nat) : List (Fin 17) := (look n s.cmap).getD ((List.finRange 17).take 16)

/-- The global cluster of a physical core. -/
def physCluster (p : Nat) : Nat := p / 17

/-- The global cluster that a logical core ID names, whatever its validity (R26, R28). -/
def coreCluster (cid : Nat) : Nat := 12 * (cid / 256) + 4 * (cid / 64 % 4) + cid / 16 % 4

/-- Full redundancy is active (R31); it is applied at job start (R470). -/
def State.redundant (s : State) : Bool := s.get Key.logicalClustersPerDie == 2

/-- Logical cores a cluster presents (R30): fixed at job start, before that by the grade's default profile. -/
def State.coresPerCluster (s : State) : Nat :=
  (look Key.logicalCoresPerCluster.key s.dict).getD (if s.fuses.gradeB then 15 else 16)

/-- ORDER_PROFILE: 0 P16, 1 P15; its default follows the grade (R171, R185). -/
def State.orderProfile (s : State) : Nat := (look Key.orderProfile.key s.dict).getD (b2n s.fuses.gradeB)

/-- The physical core number that holds a logical core, or none when the ID is invalid (R28, R29). -/
def State.physOf (s : State) (cid : Nat) : Option Nat :=
  let n := coreCluster cid
  if cid / 256 < 24 ∧ cid < 8192 ∧ cid / 64 % 4 < 3 ∧ ¬ s.dieFenced (n / 4)
      ∧ ¬ (s.redundant ∧ cid / 16 % 2 = 1) ∧ cid % 16 < s.coresPerCluster then
    ((s.clusterMap n)[cid % 16]?).map (fun p => 17 * n + p.val)
  else none

/-- The logical core ID held by a physical core, if any. -/
def State.logicalOf (s : State) (p : Nat) : Option Nat :=
  let n := p / 17
  let base := 256 * (n / 12) + 64 * (n / 4 % 3) + 16 * (n % 4)
  ((List.range 16).find? (fun k => s.physOf (base + k) == some p)).map (base + ·)

/-- The setting of a physical core (R26). -/
def physSetting (p : Nat) : Nat := p / 17 / 12

/-- The own node address (R363). -/
def State.node (s : State) : Nat := s.get Key.nodeAddr

/-! ## Cores in the field (R27, R31, R504, R509) -/

/-- A core is defective or failed (R27, R504). -/
def State.badCore (s : State) (n q : Nat) : Bool :=
  bit (s.get (Key.clusterDefectMask n)) q || bit (s.get (Key.failedMask n)) q

/-- The good cores of a cluster (R509). -/
def State.goodCores (s : State) (n : Nat) : List (Fin 17) := (List.finRange 17).filter (fun q => !s.badCore n q.val)

/-- The target of a cluster's next test (R509): the lowest suspect good core, or the next good core after the last one tested. -/
def State.testTarget (s : State) (n : Nat) : Option Nat :=
  let good := (s.goodCores n).map Fin.val
  match good.find? (bit (s.get (Key.suspectMask n))) with
  | some q => some q
  | none =>
    match look n s.hall.last with
    | none => good.head?
    | some l => ((good.filter (fun q => decide (l < q))) ++ good).head?

/-- TEST_TARGET of a cluster follows what makes its target another core (R505, R509, R510). -/
def State.noteTarget (s : State) (n : Nat) : State := s.set (Key.testTarget n) ((s.testTarget n).getD 0xFF)

/-- The physical core of the paired cluster that holds the lockstep copy of what a core holds, under full redundancy (R31). -/
def State.lockCopy (s : State) (p : Nat) : Option Nat :=
  let n := physCluster p
  if s.redundant ∧ n % 2 = 0 then
    (((s.clusterMap n).findIdx? (fun q => q.val == p % 17)).bind (fun k => (s.clusterMap (n + 1))[k]?)).map (fun q => 17 * (n + 1) + q.val)
  else none

/-! ## Units under reset -/

/-- Whether a reset in progress covers a physical core (R478). Targets are numbered as R485 numbers them, a core or
engine by its physical core number. -/
def ResetJob.coversCore (j : ResetJob) (p : Nat) : Bool :=
  match j.domain with
  | 1 => j.target == p
  | 2 => j.target == p / 17
  | 3 => j.target == p / 17 / 4
  | 4 => j.target == p / 17 / 12
  | 6 => true
  | 7 => true
  | _ => false

/-- The package has no power, or a thermal trip has stopped it: its monitors and regulator loops do not run (R535, R547, R551). -/
def State.unpowered (s : State) : Bool := !s.pins.pwrok || s.thermal.tripped.isSome

/-- The whole package is held: PWROK is low, PRST_N has been low for 10 µs, or a thermal trip has stopped it (R547, R551, R571). -/
def State.packageHeld (s : State) : Bool := s.unpowered || s.pins.asserted

/-- What happens to the package while it runs; held, its clocks stand or it is in reset, and nothing does (R551, R556). -/
def State.whileUp (s : State) (t : State → State) : State := if s.packageHeld then s else t s

/-- The supply of a setting keeps it from working (R541, R557): it has failed, or the start found it below 1.74 V, until its recovery. -/
def State.supplyHeld (s : State) (n : Nat) : Bool :=
  let x := (look n s.supplies).getD Supply.fresh
  x.powerFail || x.low

/-- A core that is under reset (R478), whose setting lost its supply (R541), or whose lockstep copy differs (R512) issues and accepts
nothing. -/
def State.coreHeld (s : State) (p : Nat) : Bool :=
  s.packageHeld || s.resets.any (·.coversCore p)
    || s.supplyHeld (physSetting p) || (s.core p).crc.differs

/-- A physical core is under test (R503). -/
def State.testing (s : State) (p : Nat) : Bool := s.hall.tests.any (fun t => 17 * t.cluster + t.core == p)

/-- The key of the rounding generator of a core: JOB_SEED, and zero under test (R146, R503). -/
def State.roundKey (s : State) (p : Nat) : Nat := if s.testing p then 0 else s.get Key.jobSeed

/-- Whether a reset in progress covers an engine of a physical core: its own, or one that covers the core. -/
def State.engineHeld (s : State) (p e : Nat) : Bool :=
  s.coreHeld p || s.resets.any (fun j => j.domain == 0 && j.target == p && j.engine == e)

/-! ## Sync counters (R63–R65) -/

/-- Counter c has reached target t (R64). -/
def reached (c t : Nat) : Bool := decide ((c + 2 ^ 32 - t % 2 ^ 32) % 2 ^ 32 < 2 ^ 31)

/-- The value of a sync counter. -/
def Core.ctr (c : Core) (n : Nat) : Nat := (look n c.ctrs).getD 0

/-- The core with a sync counter set, modulo 2^32. -/
def Core.setCtr (c : Core) (n v : Nat) : Core := { c with ctrs := put n (v % 2 ^ 32) c.ctrs }

/-- The core with a sync counter incremented, modulo 2^32. -/
def Core.incCtr (c : Core) (n v : Nat) : Core := if v = 0 then c else c.setCtr n (c.ctr n + v)

/-- A sync counter of a physical core incremented. -/
def State.incCtr (s : State) (p n v : Nat) : State := s.updCore p (·.incCtr n v)

/-! ## Queues (R83–R86, R90) -/

/-- Queue `q` of a core, the event queue being number 16 (R52). -/
def Core.queue (c : Core) (q : Nat) : Queue := (look q c.queues).getD Queue.fresh

/-- The core with a queue replaced. -/
def Core.setQueue (c : Core) (q : Nat) (x : Queue) : Core := { c with queues := put q x c.queues }

/-- The address of ring slot `i`. -/
def Queue.slotAddr (q : Queue) (i : Nat) : Nat := q.base + i % 2 ^ q.countLog2 * 2 ^ q.slotLog2

/-- The next free slot in ring order from `next` on, as its index: the one the device claims (log entry 8). -/
def Queue.freeSlot (q : Queue) : Option Nat :=
  ((List.range (2 ^ q.countLog2)).map (fun i => (q.next + i) % 2 ^ q.countLog2)).find?
    (fun i => !(q.entries.contains (q.slotAddr i)) && !(q.claimed.contains (q.slotAddr i)))

/-- An event record as 32 bytes (R88). -/
def eventRecord (kind source cause tag time d0 d1 : Nat) : List Byte :=
  leBytes 32 (kind % 256 + 2 ^ 8 * (source % 256) + 2 ^ 16 * (cause % 256) + 2 ^ 32 * (tag % 2 ^ 16)
    + 2 ^ 64 * (time % 2 ^ 64) + 2 ^ 128 * (d0 % 2 ^ 64) + 2 ^ 192 * (d1 % 2 ^ 64))

/-- The CRC-64 of R511 taken on over more octets: polynomial 0x42F0E1EBA9EA3693, no reflection, no final XOR. -/
def crc64 (crc : Nat) (bs : List Byte) : Nat :=
  bs.foldl (fun c b => (List.range 8).foldl (fun c _ =>
    if bit c 63 then (c * 2 % 2 ^ 64) ^^^ 0x42F0E1EBA9EA3693 else c * 2) (c ^^^ (b.toNat * 2 ^ 56))) crc

/-- The CRCs of the two copies are compared (R511). -/
def Lockstep.compare (l : Lockstep) : Lockstep := { l with differs := l.differs || l.own != l.copy }

/-- A core's lockstep comparison after octets written to its scratchpad, while REDUNDANCY_ENABLE is 1: both copies take them on, and with every
4 KiB the CRCs are compared (R511). CRCs that differ stay so over the same octets. -/
def State.lockCrc (s : State) (l : Lockstep) (bs : List Byte) : Lockstep :=
  if s.get Key.redundancyEnable = 1 then
    let n := l.len + bs.length
    let l1 := { l with own := crc64 l.own bs, copy := crc64 l.copy bs, len := n % 4096 }
    if 4096 ≤ n then l1.compare else l1
  else l

/-! ## Contexts that wait (R52, R58, R246) -/

/-- An engine's queue has a free entry (R58, R91). -/
def Core.queueRoom (c : Core) (e : Nat) : Bool := decide ((c.engine e).queue.length < 16)

/-- A descriptor can be pushed: the queue has a free entry, and no reset holds the engine (R36, R478: issue into the domain has
stopped; log entry 20). -/
def State.queueOpen (s : State) (p e : Nat) : Bool := (s.core p).queueRoom e && !s.engineHeld p e

/-- What a stalled context waits for has come: SCWAIT's counter has reached its target, QWAIT's queue holds an entry, PUSHD's queue has
room. -/
def State.stallEnds (s : State) (p : Nat) (w : Stall) : Bool :=
  match w with
  | .sync n t => reached ((s.core p).ctr n.toNat) t.toNat
  | .queue q _ _ => !((s.core p).queue q.val).entries.isEmpty
  | .push e _ => s.queueOpen p e.val
  | _ => false

/-- The primary waits in QWAIT on a queue that holds an entry (R246). -/
def Core.primaryEntry (c : Core) : Bool :=
  match c.primary.stall with
  | some (.queue q _ _) => !(c.queue q.val).entries.isEmpty
  | _ => false

/-- A companion that is stalled while the primary's queue holds an entry gives the control unit back (R246). One whose wait is over is no
longer stalled. -/
def State.giveBack (s : State) (p : Nat) : State :=
  let c := s.core p
  if c.onComp && c.companion.st == .waiting && !(c.companion.stall.any (s.stallEnds p)) && c.primaryEntry then
    s.updCore p (fun c => { c with onComp := false })
  else s

/-- The core with a record in slot `i` of its event queue, behind the entries there (R85, R90). -/
def Core.posted (c : Core) (i : Nat) (record : List Byte) (l : Lockstep) : Core :=
  let q := c.queue 16
  { c.setQueue 16 { q with entries := q.entries ++ [q.slotAddr i], next := (i + 1) % 2 ^ q.countLog2 } with
    sp := c.sp.writeN (q.slotAddr i) record, crc := l }

/-- Posts an event record to a core's event queue, or drops and counts it when the queue is disabled or full (R88, R90). -/
def State.post (s : State) (p kind source cause tag d0 d1 : Nat) : State :=
  let q := (s.core p).queue 16
  match (if q.mode = 0 then none else q.freeSlot) with
  | none => s.count (Key.eventDrops (physCluster p)) 1
  | some i =>
    let record := eventRecord kind source cause tag s.ftime d0 d1
    (s.updCore p (fun c => c.posted i record (s.lockCrc c.crc record))).giveBack p

/-- Bytes written to a core's scratchpad. -/
def State.spWrite (s : State) (p a : Nat) (bs : List Byte) : State :=
  s.updCore p (fun c => { c with sp := c.sp.writeN a bs, crc := s.lockCrc c.crc bs })

/-! ## Credits (R87, R444) -/

/-- A credit grant of a core goes to its source: to the entry of the host port's own command queue, or out to the fabric
(R87, R444). -/
def State.sendGrant (s : State) (node ep core chan credits payload : Nat) : State :=
  if node = s.node ∧ ep = 0x2300 then
    { s with host := { s.host with cmdqs := s.host.cmdqs.map (fun q =>
        if q.2.channel = chan then (q.1, { q.2 with credits := some (core, credits, payload) }) else q) } }
  else s.emit (.grant node ep core chan credits payload)

/-- A credit return of a core goes to its source; it counts only when the source's entry names the core (R87). -/
def State.sendReturn (s : State) (node ep core chan credits : Nat) : State :=
  if node = s.node ∧ ep = 0x2300 then
    { s with host := { s.host with cmdqs := s.host.cmdqs.map (fun q =>
        match q.2.credits with
        | some (c, k, m) => if q.2.channel = chan ∧ c = core then (q.1, { q.2 with credits := some (c, k + credits, m) }) else q
        | none => q) } }
  else s.emit (.creditReturn node ep core chan credits)

/-! ## Descriptors and engines (R56–R62) -/

/-- Where a byte range of the scratchpad lies inside it (R66). -/
def spRange (a len : Nat) : Bool := decide (a + len ≤ 0x200000)

/-- Bytes of a descriptor (R56). -/
def descSize (e : Nat) : Nat := if e = 1 then 128 else 64

/-- PF_DEPTH. -/
def bDepth (d : Nat) : Nat := fld d 224 3

/-- A drain waits for a release by software (R232). -/
def Core.drainWaits (c : Core) (o : MseOp) : Bool :=
  match o.kind with
  | .drain j r0 => !(decide (j < bDepth o.desc)) && !reached (c.ctr (fld o.desc 248 8)) (r0 + j + 1 - bDepth o.desc)
  | _ => false

/-- The header fields of a descriptor (R57). -/
def dOp (d : Nat) : Nat := fld d 0 8
def dTag (d : Nat) : Nat := fld d 72 16

/-- The gate of a descriptor is satisfied, or it has none (R60, R64). -/
def Core.gateOk (c : Core) (d : Nat) : Bool := !bit d 64 || reached (c.ctr (fld d 24 8)) (fld d 32 32)

/-- An engine stops with a cause (R61, R62): ENGINE_STOP event and ENGINE_STOPS. -/
def State.stopEngine (s : State) (p e cause d : Nat) : State :=
  let s1 := s.updCore p (fun c => c.setEngine e { c.engine e with stopped := true })
  (s1.post p 2 (e + 2) cause (dTag d) (fld d 0 64) 0).count (Key.engineStops (physCluster p)) 1

/-- An engine stops on a descriptor that it starts (R61): one that is refused counts in DESC_INVALID. -/
def State.engineStop (s : State) (p e cause d : Nat) : State :=
  let s1 := if 1 ≤ cause ∧ cause ≤ 4 then s.count (Key.descInvalid (physCluster p)) 1 else s
  s1.stopEngine p e cause d

/-- The last two acts of a descriptor that completes (R57, R75): DONE_CTR incremented, then DESC_DONE posted. -/
def State.descDone (s : State) (p e d : Nat) : State :=
  let s1 := s.incCtr p (fld d 8 8) (fld d 16 8)
  if bit d 66 then s1.post p 1 (e + 2) 0 (dTag d) (fld d 0 64) ((s1.core p).ctr (fld d 8 8)) else s1

/-- Whether an opcode of an engine is assigned (R74, R97, R189, R225, R250, R266, R405). -/
def opAssigned (e op : Nat) : Bool :=
  match e with
  | 0 => decide (op ≤ 4)
  | 1 => [0, 1, 2, 3, 8, 9, 0x0A, 0x0B].contains op
  | _ => decide (op ≤ 6) || (decide (0x10 ≤ op) && decide (op ≤ 0x13)) || (decide (0x20 ≤ op) && decide (op ≤ 0x24))
    || (decide (0x30 ≤ op) && decide (op ≤ 0x35)) || (decide (0x40 ≤ op) && decide (op ≤ 0x42))

end Sys2Proof.Machine
end

