-- ==== Sys2Proof/Machine/Crypto.lean ====
section
/-!
DEFINITION. SHAKE256 as the manual uses it (R432, R433, R517, R533): the Keccak permutation of FIPS 202 with a rate of 136
bytes. The signature and key agreement of RFC 8032 and RFC 7748 are in Machine/Curve.lean.
-/
namespace Sys2Proof.Machine

/-- A 64-bit lane turned left by `n` places. -/
def turn64 (v n : Nat) : Nat :=
  let k := n % 64
  v * 2 ^ k % 2 ^ 64 ||| v / 2 ^ (64 - k)

/-- The register that generates the round constants, one step on. -/
def iotaStep (r : Nat) : Nat := if 128 ≤ r then 2 * r ^^^ 0x171 else 2 * r

/-- The round constants from a value of that register on: each takes seven of its low bits, bit j to place 2^j − 1. -/
def iotaFrom : Nat → Nat → List Nat
  | 0, _ => []
  | n + 1, r =>
    let x := (List.range 7).foldl (fun (x : Nat × Nat) j => (x.1 + x.2 % 2 * 2 ^ (2 ^ j - 1), iotaStep x.2)) (0, r)
    x.1 :: iotaFrom n x.2

/-- Where the lanes go in ρ and π: lane x + 5y goes to y + 5(2x + 3y), turned by the next triangular number; from lane 1 on, in
the order of the walk, as (goes to, comes from, turned by). -/
def laneWalk : Nat → Nat → Nat → List (Nat × Nat × Nat)
  | 0, _, _ => []
  | n + 1, t, l =>
    let m := l / 5 + 5 * ((2 * (l % 5) + 3 * (l / 5)) % 5)
    (m, l, (t + 1) * (t + 2) / 2) :: laneWalk n (t + 1) m

/-- The walk by the lane it goes to; lane 0 stays. -/
def laneMoves : List (Nat × Nat) :=
  (List.range 25).map (fun i => (look i (laneWalk 24 0 1)).getD (0, 0))

/-- The five places of a row or a column. -/
def fives : List Nat := [0, 1, 2, 3, 4]

/-- The XOR of the five lanes of a column. -/
def columnSum (a : List Nat) (x : Nat) : Nat := (fives.map (fun y => a.getD (x + 5 * y) 0)).foldl (· ^^^ ·) 0

/-- One round on the 25 lanes with its constant: θ, then ρ and π by the moves given, then χ and ι. -/
def keccakRound (moves : List (Nat × Nat)) (a : List Nat) (k : Nat) : List Nat :=
  let sums := fives.map (columnSum a)
  let mix := fives.map (fun x => turn64 (sums.getD ((x + 1) % 5) 0) 1 ^^^ sums.getD ((x + 4) % 5) 0)
  let moved := moves.map (fun m => turn64 (a.getD m.1 0 ^^^ mix.getD (m.1 % 5) 0) m.2)
  fives.flatMap (fun y =>
    let row := (moved.drop (5 * y)).take 5
    fives.map (fun x =>
      let far := row.getD ((x + 2) % 5) 0
      let v := row.getD x 0 ^^^ far ^^^ (row.getD ((x + 1) % 5) 0 &&& far)
      if x + y = 0 then v ^^^ k else v))

/-- The permutation: 24 rounds. -/
def keccakF (a : List Nat) : List Nat := (iotaFrom 24 1).foldl (keccakRound laneMoves) a

/-- A 136-byte block absorbed. -/
def absorb (a : List Nat) (block : List Byte) : List Nat :=
  keccakF ((List.range 25).map (fun i => a.getD i 0 ^^^ leNat ((block.drop (8 * i)).take 8)))

/-- The message padded to a multiple of 136 bytes with the SHAKE suffix. -/
def shakePad (m : List Byte) : List Byte :=
  let k := 136 - m.length % 136
  if k = 1 then m ++ [0x9F] else m ++ [0x1F] ++ List.replicate (k - 2) 0 ++ [0x80]

/-- Blocks absorbed in turn. -/
def absorbAll (a : List Nat) (m : List Byte) : Nat → List Nat
  | 0 => a
  | n + 1 => absorbAll (absorb a (m.take 136)) (m.drop 136) n

/-- Output blocks squeezed. -/
def squeeze (a : List Nat) : Nat → List Byte
  | 0 => []
  | n + 1 => ((a.take 17).flatMap (leBytes 8)) ++ squeeze (keccakF a) n

/-- The first `n` bytes of SHAKE256 of a message. -/
def shake256 (m : List Byte) (n : Nat) : List Byte :=
  let p := shakePad m
  (squeeze (absorbAll (List.replicate 25 0) p (p.length / 136)) (ceilDiv n 136)).take n

end Sys2Proof.Machine
end

