-- ==== Sys2Proof/Machine/Num.lean ====
section
/-!
DEFINITION. Numbers: exact values, the formats of R128–R138, the conversions of R139–R144 and R149, and the rounding
generator of R147.
-/
namespace Sys2Proof.Machine

/-- An exact value: NaN, an infinity, or ±n/d with a sign that a zero keeps (R120, R123). `d` is never 0. -/
inductive Num where
  | nan
  | inf (neg : Bool)
  | fin (neg : Bool) (n d : Nat)
deriving DecidableEq, Repr

/-- +0. -/
def Num.zero : Num := .fin false 0 1

/-- The integer `i`; zero is +0. -/
def Num.ofInt (i : Int) : Num := .fin (decide (i < 0)) i.natAbs 1

/-- 2^e for any integer e. -/
def Num.pow2 (e : Int) : Num := if 0 ≤ e then .fin false (2 ^ e.toNat) 1 else .fin false 1 (2 ^ (-e).toNat)

/-- The sign of a value. -/
def Num.sign : Num → Bool
  | .nan => false
  | .inf s => s
  | .fin s _ _ => s

/-- Whether a value is zero. -/
def Num.isZero : Num → Bool
  | .fin _ n _ => n == 0
  | _ => false

/-- Whether a value is finite. -/
def Num.isFin : Num → Bool
  | .fin _ _ _ => true
  | _ => false

/-- Whether a value is NaN. -/
def Num.isNaN : Num → Bool
  | .nan => true
  | _ => false

/-- −x. -/
def Num.neg : Num → Num
  | .nan => .nan
  | .inf s => .inf (!s)
  | .fin s n d => .fin (!s) n d

/-- |x|. -/
def Num.abs : Num → Num
  | .nan => .nan
  | .inf _ => .inf false
  | .fin _ n d => .fin false n d

/-- The exact product (R120, R123). -/
def Num.mul : Num → Num → Num
  | .nan, _ => .nan
  | _, .nan => .nan
  | .inf s, .inf t => .inf (s != t)
  | .inf s, .fin t n _ => if n = 0 then .nan else .inf (s != t)
  | .fin s n _, .inf t => if n = 0 then .nan else .inf (s != t)
  | .fin s n d, .fin t m e => .fin (s != t) (n * m) (d * e)

/-- The exact sum (R120, R123): cancellation gives +0, and −0 + −0 gives −0. -/
def Num.add : Num → Num → Num
  | .nan, _ => .nan
  | _, .nan => .nan
  | .inf s, .inf t => if s = t then .inf s else .nan
  | .inf s, .fin _ _ _ => .inf s
  | .fin _ _ _, .inf t => .inf t
  | .fin s n d, .fin t m e =>
    let x := n * e
    let y := m * d
    if s = t then .fin s (x + y) (d * e)
    else if x = y then .fin false 0 1
    else if y < x then .fin s (x - y) (d * e)
    else .fin t (y - x) (d * e)

/-- The exact difference. -/
def Num.sub (a b : Num) : Num := a.add b.neg

/-- The exact quotient (R200): 0/0 and ∞/∞ are NaN. -/
def Num.div : Num → Num → Num
  | .nan, _ => .nan
  | _, .nan => .nan
  | .inf _, .inf _ => .nan
  | .inf s, .fin t _ _ => .inf (s != t)
  | .fin s _ _, .inf t => .fin (s != t) 0 1
  | .fin s n d, .fin t m e =>
    if m = 0 then (if n = 0 then .nan else .inf (s != t)) else .fin (s != t) (n * e) (d * m)

/-- a < b, false where either is NaN; +0 equals −0. -/
def Num.lt : Num → Num → Bool
  | .nan, _ => false
  | _, .nan => false
  | .inf s, .inf t => s && !t
  | .inf s, .fin _ _ _ => s
  | .fin _ _ _, .inf t => !t
  | .fin s n d, .fin t m e =>
    let x : Int := (if s then -1 else 1) * (n * e : Nat)
    let y : Int := (if t then -1 else 1) * (m * d : Nat)
    decide (x < y)

/-- a = b as values, false where either is NaN. -/
def Num.eqv (a b : Num) : Bool := !a.isNaN && !b.isNaN && !a.lt b && !b.lt a

/-- floor(log2(n/d)) of a positive rational. -/
def floorLog2 (n d : Nat) : Int :=
  let k : Int := (Nat.log2 n : Int) - (Nat.log2 d : Int)
  if (if 0 ≤ k then decide (d * 2 ^ k.toNat ≤ n) else decide (d ≤ n * 2 ^ (-k).toNat)) then k else k - 1

/-! ## Formats (R128–R131) -/

/-- A floating format: width, fraction bits, bias, the codes of its largest finite value, infinity and canonical NaN, and
whether conversion into it saturates (R141). -/
structure Fmt where
  width : Nat
  frac  : Nat
  bias  : Nat
  top   : Nat
  infC  : Option Nat
  nanC  : Nat
  sat   : Bool
deriving DecidableEq, Repr

def fFP32 : Fmt := ⟨32, 23, 127, 0x7F7FFFFF, some 0x7F800000, 0x7FC00000, false⟩
def fFP16 : Fmt := ⟨16, 10, 15, 0x7BFF, some 0x7C00, 0x7E00, true⟩
def fBF16 : Fmt := ⟨16, 7, 127, 0x7F7F, some 0x7F80, 0x7FC0, true⟩
def fE4M3 : Fmt := ⟨8, 3, 7, 0x7E, none, 0x7F, true⟩
def fE5M2 : Fmt := ⟨8, 2, 15, 0x7B, some 0x7C, 0x7E, true⟩
/-- An MXFP6 element, E3M2. It has no NaN code; `nanC` is not used. -/
def fE3M2 : Fmt := ⟨6, 2, 3, 0x1F, none, 0, true⟩
/-- An MXFP4 element, E2M1. -/
def fE2M1 : Fmt := ⟨4, 1, 1, 0x7, none, 0, true⟩
def fCT48 : Fmt := ⟨48, 39, 127, 0x7F7FFFFFFFFF, some 0x7F8000000000, 0x7FC000000000, false⟩

/-- The value of a pattern (R129, R130). -/
def Fmt.decode (f : Fmt) (w : Nat) : Num :=
  let s := bit w (f.width - 1)
  let m := w % 2 ^ (f.width - 1)
  if f.top < m then (if f.infC = some m then .inf s else .nan)
  else
    let e := m / 2 ^ f.frac
    let x := m % 2 ^ f.frac
    let mant := if e = 0 then x else x + 2 ^ f.frac
    let ex : Int := (if e = 0 then 1 else (e : Int)) - (f.bias : Int) - (f.frac : Int)
    if 0 ≤ ex then .fin s (mant * 2 ^ ex.toNat) 1 else .fin s mant (2 ^ (-ex).toNat)

/-- How a magnitude n/d is rounded to an integer: RNA (R140), or stochastically with the generator's 16 bits (R144). -/
inductive Round where
  | rna
  | sr (r : Nat)
deriving DecidableEq, Repr

/-- Step 4 of R139. -/
def Round.apply (m : Round) (n d : Nat) : Nat :=
  match m with
  | .rna => (2 * n + d) / (2 * d)
  | .sr r => if 65536 ≤ n % d * 65536 / d + r then n / d + 1 else n / d

/-- What a conversion gives: the pattern, whether it counts a saturation, whether it counts in NONFINITE_FINITE. -/
structure Conv where
  code : Nat
  sat  : Bool
  nonf : Bool
deriving DecidableEq, Repr

/-- A pattern with its sign bit. -/
def Fmt.signed (f : Fmt) (s : Bool) (m : Nat) : Nat := if s then m + 2 ^ (f.width - 1) else m

/-- The conversion of an exact value into a floating format (R139–R142). -/
def Fmt.convert (f : Fmt) (m : Round) : Num → Conv
  | .nan => ⟨f.nanC, false, false⟩
  | .inf s =>
    match f.infC with
    | some c => ⟨f.signed s c, false, false⟩
    | none => ⟨f.signed s f.top, true, false⟩
  | .fin s n d =>
    if n = 0 then ⟨f.signed s 0, false, false⟩
    else
      let emin : Int := 1 - (f.bias : Int)
      let e := max (floorLog2 n d) emin
      let u : Int := e - (f.frac : Int)
      let k := if 0 ≤ u then m.apply n (d * 2 ^ u.toNat) else m.apply (n * 2 ^ (-u).toNat) d
      let c := (e - emin).toNat * 2 ^ f.frac + k
      if f.top < c then
        (if f.sat then ⟨f.signed s f.top, true, false⟩ else ⟨f.signed s (f.infC.getD f.top), false, false⟩)
      else ⟨f.signed s c, false, false⟩

/-- Rounds an exact value to FP32 with RNA (R140, R164). -/
def rna32 (x : Num) : Num := fFP32.decode (fFP32.convert .rna x).code

/-- The FP32 pattern of a value, with RNA. -/
def fp32 (x : Num) : Nat := (fFP32.convert .rna x).code

/-- The value of an FP32 pattern. -/
def ofFp32 (w : Nat) : Num := fFP32.decode w

/-- A rounded integer saturated to `bits` bits two's complement (R141, R202): the value and whether it saturated. -/
def satInt (bits : Nat) (s : Bool) (k : Nat) : Int × Bool :=
  if s then (if 2 ^ (bits - 1) < k then (-(2 ^ (bits - 1) : Nat), true) else (-(k : Int), false))
  else (if 2 ^ (bits - 1) ≤ k then (((2 ^ (bits - 1) - 1 : Nat) : Int), true) else ((k : Int), false))

/-- The conversion into a two's complement integer of `bits` bits (R141, R142, R202). -/
def toInteger (bits : Nat) (m : Round) : Num → Conv
  | .nan => ⟨0, false, true⟩
  | .inf s => ⟨unsgn bits (if s then -(2 ^ (bits - 1) : Nat) else ((2 ^ (bits - 1) - 1 : Nat) : Int)), true, false⟩
  | .fin s n d => let r := satInt bits s (m.apply n d); ⟨unsgn bits r.1, r.2, false⟩

/-- to_grain (R149): the integer, whether it counts in NONFINITE, whether it counts in GRAIN_OVERFLOW. -/
def toGrain (v : Num) (e : Int) (r : Nat) : Int × Bool × Bool :=
  match v.mul (Num.pow2 (-e)) with
  | .nan => (0, true, false)
  | .inf _ => (0, true, false)
  | .fin s n d =>
    let k := (Round.sr r).apply n d
    if 2 ^ 63 - 1 < k then (0, false, true) else (if s then -(k : Int) else (k : Int), false, false)

/-- A Grain value read into FP32 (R138). -/
def grainValue (g : Int) (e : Int) : Num := rna32 ((Num.ofInt g).mul (Num.pow2 e))

/-- The value of an E8M0 block scale (R132). -/
def e8m0 (x : Nat) : Num := if x = 0xFF then .nan else Num.pow2 ((x : Int) - 127)

/-- The largest magnitude of a list of values. -/
def largest (xs : List Num) : Num := xs.foldl (fun m x => if m.lt x.abs then x.abs else m) Num.zero

/-- The E8M0 code of a block with largest magnitude n / d before its clamps (R133). -/
def mxCode (f : Fmt) (n d : Nat) : Int := floorLog2 n d - (if f.frac = 2 then 4 else 2) + 127

/-- The shared scale an engine chooses for a block (R133): its code. -/
def mxScale (f : Fmt) (xs : List Num) : Nat :=
  if xs.any (fun x => !x.isFin) then 0xFF
  else
    match largest xs with
    | .fin _ n d => if n = 0 then 0 else (max 0 (min 0xFE (mxCode f n d))).toNat
    | _ => 0xFF

/-- The top clamp of a block's scale applies (R133). -/
def mxClamped (f : Fmt) (xs : List Num) : Bool :=
  match largest xs with
  | .fin _ n d => n != 0 && decide (0xFE < mxCode f n d)
  | _ => false

/-- The largest magnitude of an MXFP element format: 28 for E3M2, 6 for E2M1 (R133). -/
def mxLargest (f : Fmt) : Num := Num.ofInt (if f.frac = 2 then 28 else 6)

/-- A block of values converted to MXFP (R133): the scale code and the elements. Under the top clamp every quotient above the
format's largest magnitude counts one saturation, also one that rounds to it. -/
def mxEncode (f : Fmt) (xs : List Num) : Nat × List Conv :=
  let c := mxScale f xs
  (c, xs.map (fun x =>
    if c = 0xFF then ⟨0, false, !x.isFin⟩
    else
      let cv := f.convert .rna (x.div (e8m0 c))
      { cv with sat := cv.sat || (mxClamped f xs && (mxLargest f).lt (x.div (e8m0 c)).abs) }))

/-- A block of values as block-scaled E4M3 (R158): the FP32 scale and the codes. -/
def e4m3Encode (xs : List Num) : Nat × List Conv :=
  if xs.any (fun x => !x.isFin) then (0x7FC00000, xs.map (fun x => ⟨0x7F, false, !x.isFin⟩))
  else
    let a := largest xs
    if a.isZero then (0, xs.map (fun _ => ⟨0, false, false⟩))
    else (fp32 (a.div (Num.ofInt 448)), xs.map (fun x => fE4M3.convert .rna ((x.mul (Num.ofInt 448)).div a)))

/-- The value of a Carat pattern (R135). -/
def ofCarat (w : Nat) : Num := fCT48.decode w

/-! ## The rounding generator (R147) -/

/-- 32-bit rotation left. -/
def rotl32 (v n : Nat) : Nat := v % 2 ^ (32 - n) * 2 ^ n + v / 2 ^ (32 - n)

/-- One half of a pass: two additions and two rotations. -/
def rgenHalf (p q : Nat) (x : Nat × Nat × Nat × Nat) : Nat × Nat × Nat × Nat :=
  let x0 := (x.1 + x.2.1) % 2 ^ 32
  let x3 := rotl32 (x.2.2.2 ^^^ x0) p
  let x2 := (x.2.2.1 + x3) % 2 ^ 32
  let x1 := rotl32 (x.2.1 ^^^ x2) q
  (x0, x1, x2, x3)

/-- Pass `i` of the loop. -/
def rgenPass (seed : Nat) (x : Nat × Nat × Nat × Nat) (i : Nat) : Nat × Nat × Nat × Nat :=
  let y := rgenHalf 8 4 (rgenHalf 16 12 x)
  ((y.1 + fld seed (32 * (i % 4)) 32) % 2 ^ 32, y.2.1, y.2.2.1 ^^^ i, y.2.2.2)

/-- The rounding generator (R147). -/
def rgen (seed step tensor mb index : Nat) : Nat :=
  let i := index % 2 ^ 48
  let x := [1, 2, 3, 4].foldl (rgenPass seed)
    (step % 2 ^ 32 ^^^ fld seed 0 32, (tensor % 2 ^ 16 + 2 ^ 16 * (mb % 2 ^ 16)) ^^^ fld seed 32 32,
     i % 2 ^ 32 ^^^ fld seed 64 32, (i / 2 ^ 32 ||| 0x4B1D0000) ^^^ fld seed 96 32)
  (x.1 ^^^ x.2.1 ^^^ x.2.2.1 ^^^ x.2.2.2) % 2 ^ 16

/-! ## The reference order (R164) -/

/-- One tier of the balanced tree: neighbours combine, a missing partner passes through. -/
def treeTier {α : Type} (f : α → α → α) : List (Option α) → List (Option α)
  | some a :: some b :: t => some (f a b) :: treeTier f t
  | some a :: none :: t => some a :: treeTier f t
  | none :: b :: t => b :: treeTier f t
  | l => l

/-- The balanced pairwise tree over leaves in index order, missing leaves passing through (R164, R210). The first
argument bounds the tiers. -/
def tree {α : Type} (f : α → α → α) : Nat → List (Option α) → Option α
  | _, [] => none
  | _, [x] => x
  | 0, x :: _ => x
  | n + 1, l => tree f n (treeTier f l)

/-- An addition of the reference order: the exact sum rounded once (R140). -/
def add32 (a b : Num) : Num := rna32 (a.add b)

/-- The tree of FP32 additions over values, all present. -/
def treeSum (xs : List Num) : Num := (tree add32 xs.length (xs.map some)).getD Num.zero

/-- A list cut into runs of `n`, the last one short. -/
def runsOf {α : Type} (n : Nat) (l : List α) : List (List α) :=
  (List.range (ceilDiv l.length n)).map (fun g => (l.drop (n * g)).take n)

/-- The partial of one grain of a wide pair other than MXFP (R164, level 1): exact products, tree, one rounding. -/
def grainWide (a b : List Num) : Num := rna32 (treeSum (List.zipWith Num.mul a b))

/-- The partial of one MXFP grain (R164): the exact sum, scaled exactly by both block scales, rounded once. -/
def grainMx (sa sb : Num) (a b : List Num) : Num :=
  rna32 ((sa.mul sb).mul ((List.zipWith Num.mul a b).foldl Num.add Num.zero))

/-- A slot partial: grain partials added one after another (R108, R164 level 2). -/
def foldGrains (init : Num) (gs : List Num) : Num := gs.foldl add32 init

/-- The whole reference order of a wide contraction from its grain partials (R164 levels 2–4), with C core slots. -/
def refWide (c : Nat) (gs : List Num) : Num :=
  treeSum ((runsOf (64 * c) gs).map (fun blk =>
    treeSum ((List.range (min c blk.length)).map (fun s =>
      foldGrains Num.zero (((List.range blk.length).filter (fun g => g % c == s)).filterMap (fun g => blk[g]?))))))

end Sys2Proof.Machine
end

