-- ==== Sys2Proof/Machine/Scale.lean ====
section
/-!
DEFINITION. Scale contexts (R150–R157).
-/
namespace Sys2Proof.Machine

/-- A scale context of a core. -/
def Core.scale (c : Core) (n : Nat) : ScaleCtx := (look n c.scales).getD ScaleCtx.fresh

/-- The core with a scale context replaced. -/
def Core.setScale (c : Core) (n : Nat) (x : ScaleCtx) : Core := { c with scales := put n x c.scales }

/-- A context field of a descriptor is usable: 0xFF, or a configured context (R150, R152). -/
def Core.ctxOk (c : Core) (n : Nat) : Bool := n == 0xFF || (decide (n < 64) && (c.scale n).valid)

/-- The quantisation factor 2^EXP of a context field, 1 for 0xFF (R150). -/
def Core.quant (c : Core) (n : Nat) : Num := if n = 0xFF then Num.pow2 0 else Num.pow2 (c.scale n).exp

/-- The dequantisation factor 2^−EXP (R150). -/
def Core.dequant (c : Core) (n : Nat) : Num := if n = 0xFF then Num.pow2 0 else Num.pow2 (-(c.scale n).exp)

/-- The FP32 entries of HIST in a record (R151). -/
def recordHist (r : Nat) : List Nat := (List.range 16).map (fun i => fld r (512 + 32 * i) 32)

/-- The context that a record loads (R151). -/
def scaleOfRecord (r : Nat) : ScaleCtx :=
  { valid := bit r 0, auto := bit r 1, histLen := fld r 8 5, target := fld r 16 3, margin := fld r 24 5,
    exp := sgn 16 (fld r 32 16), satThresh := fld r 64 32, satCount := fld r 96 32, amaxCur := fld r 128 32,
    histValid := fld r 160 5, hist := recordHist r }

/-- A record with VALID = 1 holds no reserved value (R151). -/
def ScaleCtx.legal (x : ScaleCtx) : Bool :=
  decide (1 ≤ x.histLen) && decide (x.histLen ≤ 16) && [1, 2, 3, 4, 7].contains x.target
    && decide (-126 ≤ x.exp) && decide (x.exp ≤ 127) && decide (x.histValid ≤ x.histLen)
    && x.hist.all (fun h => decide (h < 0x7F800000))

/-- The record that a store writes (R151, R218). -/
def ScaleCtx.record (x : ScaleCtx) : Nat :=
  b2n x.valid + 2 * b2n x.auto + 2 ^ 8 * x.histLen + 2 ^ 16 * x.target + 2 ^ 24 * x.margin + 2 ^ 32 * unsgn 16 x.exp
    + 2 ^ 64 * x.satThresh + 2 ^ 96 * x.satCount + 2 ^ 128 * x.amaxCur + 2 ^ 160 * x.histValid
    + 2 ^ 512 * (x.hist.foldr (fun h acc => h % 2 ^ 32 + 2 ^ 32 * acc) 0)

/-- The larger of two magnitudes as FP32 patterns; a NaN in either gives the canonical NaN (R119, R154). -/
def maxPattern (a b : Nat) : Nat :=
  if (ofFp32 a).isNaN || (ofFp32 b).isNaN then 0x7FC00000
  else if (ofFp32 a).lt (ofFp32 b) then b else a

/-- FMAX_EXP of a target format (R153). -/
def fmaxExp (target : Nat) : Int :=
  match target with
  | 1 => 15
  | 2 => 127
  | 3 => 8
  | 4 => 15
  | _ => 6

/-- A roll (R153): the new context, and whether a non-finite AMAX_CUR entered as 0. A loaded AMAX_CUR of −0 or a negative number
enters HIST as R153's procedure has it, although R151 says that a roll writes only +0 or positive values: DESIGN CHOICE, the
procedure is followed (log entry 55). -/
def ScaleCtx.roll (x : ScaleCtx) : ScaleCtx × Bool :=
  let bad := !(ofFp32 x.amaxCur).isFin
  let hist := (if bad then 0 else x.amaxCur) :: x.hist.take 15
  let hv := min (x.histValid + 1) x.histLen
  let m := (hist.take hv).foldl maxPattern 0
  let e := match ofFp32 m with
    | .fin false n d =>
      if n = 0 then x.exp else max (-126) (min 127 (fmaxExp x.target - floorLog2 n d - 1 - (x.margin : Int)))
    | _ => x.exp
  ({ x with hist := hist, histValid := hv, exp := if x.auto then e else x.exp, amaxCur := 0, satCount := 0 }, bad)

/-- A context update joined with those before it: updates of one context become one, with the maximum of the magnitudes and the
sum of the saturations (R155). -/
def addUp (u : Nat × Nat × Nat × Nat) : List (Nat × Nat × Nat × Nat) → List (Nat × Nat × Nat × Nat)
  | [] => [u]
  | v :: t => if v.1 = u.1 then (v.1, maxPattern v.2.1 u.2.1, v.2.2.1 + u.2.2.1, v.2.2.2) :: t else v :: addUp u t

/-- The combined updates of a descriptor's outputs, one for each context (R155, R156, R206). -/
def mergeUps (us : List (Nat × Nat × Nat × Nat)) : List (Nat × Nat × Nat × Nat) := us.foldl (fun acc u => addUp u acc) []

/-- The update of an output context when a descriptor completes (R154), with its event on a crossing (R156). `src` is the
event source, `step` the rounding step at the descriptor's start. -/
def State.scaleUpdate (s : State) (p src tag : Nat) (u : Nat × Nat × Nat × Nat) : State :=
  let x := (s.core p).scale u.1
  let n := min (x.satCount + u.2.2.1) 0xFFFFFFFF
  let s1 := s.updCore p (·.setScale u.1 { x with amaxCur := maxPattern x.amaxCur u.2.1, satCount := n })
  let s2 := s1.count (Key.ctxSaturations (physCluster p)) u.2.2.1
  if x.satThresh ≠ 0 ∧ x.satCount < x.satThresh ∧ x.satThresh ≤ n then
    (s2.post p 5 src u.1 tag n (u.2.2.2 + 2 ^ 32 * x.satThresh)).count (Key.satEvents (physCluster p)) 1
  else s2

end Sys2Proof.Machine
end

