-- ==== Sys2Proof/Machine/Engine.lean ====
section
/-!
DEFINITION. Starting and completing descriptors (R57–R62, R125, R221).
-/
namespace Sys2Proof.Machine

/-- The number of started descriptors of an engine that have not completed. -/
def Core.inFlight (c : Core) (e : Nat) : Nat := if e = 2 then c.ops.length else (c.engine e).started.length

/-- The banks that an MXE descriptor touches, first and number, from BANK and BLOCK (R98, R101); none for a NOP. -/
def mxeBanks (d : Nat) : List Nat :=
  if dOp d = 0 then []
  else (List.range (if fld d 238 2 = 0 then 1 else if fld d 238 2 = 3 then 4 else 2)).map (fld d 240 2 + ·)

/-- The descriptor an engine may start now (R58–R62, R72): the head of its queue, once its gate is satisfied, its ORDER is
met, the engine is not stopped or under reset and has room for it. A scale-context or step descriptor of the FGE starts
only after every earlier one has completed, and none starts before it completes (R218). An MXE descriptor overlaps only with
others whose banks are disjoint from its own (R124). -/
def State.startable (s : State) (p e : Nat) : Option Nat :=
  let c := s.core p
  let g := c.engine e
  match g.queue with
  | [] => none
  | d :: _ =>
    if g.stopped || s.engineHeld p e || !c.gateOk d || (bit d 65 && c.inFlight e != 0)
        || (e == 2 && decide (128 ≤ c.inFlight 2)) || g.started.any (·.alone)
        || (e == 1 && decide (8 ≤ dOp d) && decide (dOp d ≤ 0x0B) && !g.started.isEmpty)
        || (e == 0 && g.started.any (fun x => (mxeBanks x.desc).any (mxeBanks d).contains)) then none
    else some d

/-- A descriptor leaves its queue when its engine starts it (R59). -/
def State.popDesc (s : State) (p e : Nat) : State :=
  s.updCore p (fun c => c.setEngine e { c.engine e with queue := (c.engine e).queue.drop 1 })

/-- The engine of the core that a command names starts the descriptor at the head of its queue, when that descriptor is the
command's operation. A reserved opcode stops the engine (R61, log entry 10). Where the engine may not start a descriptor,
or the head is another operation, the command has no effect (log entry 9). -/
def startOp (core : CoreId) (s : State) (e op : Nat) (body : Nat → Nat → State → State) : Host.Outcome State Fault Refusal :=
  match s.physOf core.toNat with
  | none => .next s
  | some p =>
    match s.startable p e with
    | none => .next s
    | some d =>
      if !opAssigned e (dOp d) then .next ((s.popDesc p e).engineStop p e 1 d)
      else if dOp d = op then .next (body p d (s.popDesc p e))
      else .next s

/-- A descriptor is started and waits for its completion. -/
def State.addStarted (s : State) (p e : Nat) (x : Started) : State :=
  s.updCore p (fun c => c.setEngine e { c.engine e with started := (c.engine e).started ++ [x] })

/-- A started descriptor with nothing to make visible. -/
def Started.plain (d : Nat) : Started := { desc := d, writes := [], ctxUps := [], counts := [], alone := false }

/-- A physical core becomes suspect (R510, R512), and at once its cluster's target where none before it is: the bit of its cluster, newly set
or not. -/
def State.markSuspect (s : State) (p : Nat) : State :=
  let n := physCluster p
  (s.set (Key.suspectMask n) (s.get (Key.suspectMask n) ||| 2 ^ (p % 17))).noteTarget n

/-- A core that a tile which exceeds makes suspect; a bit newly set counts (R510). -/
def State.suspectOf (s : State) (p : Nat) : State :=
  let n := physCluster p
  if bit (s.get (Key.suspectMask n)) (p % 17) then s else (s.markSuspect p).count (Key.assaySuspects n) 1

/-- A sampled tile that exceeds makes the cores that executed its MMA suspect: under full redundancy both copies (R31, R510). -/
def State.assaySuspect (s : State) (p : Nat) (counts : List (Ent × Nat)) : State :=
  if counts.any (fun k => k.1 == Key.assayExceeded (physCluster p) && k.2 != 0) then
    (s.lockCopy p).elim (s.suspectOf p) (s.suspectOf p).suspectOf
  else s

/-- The output of a descriptor becomes visible and its context updates and counts are made (R125, R154, R221). -/
def State.applyStarted (s : State) (p e : Nat) (x : Started) : State :=
  let s1 := s.updCore p (fun c =>
    { c with sp := x.writes.foldl (fun m w => m.writeN w.1 w.2) c.sp, crc := s.lockCrc c.crc (x.writes.flatMap (·.2)) })
  let s2 := (mergeUps x.ctxUps).foldl (fun s u => s.scaleUpdate p (e + 2) (dTag x.desc) u) s1
  (x.counts.foldl (fun s k => s.count k.1 k.2) s2).assaySuspect p x.counts

/-- The oldest started descriptor of an MXE or FGE completes (R59, R125, R221). No effect where none is started. -/
def completeOp (core : CoreId) (s : State) (e : Nat) : Host.Outcome State Fault Refusal :=
  match s.physOf core.toNat with
  | none => .next s
  | some p =>
    match ((s.core p).engine e).started with
    | [] => .next s
    | x :: rest =>
      if s.engineHeld p e then .next s
      else
        let s1 := s.updCore p (fun c => c.setEngine e { c.engine e with started := rest })
        .next ((s1.applyStarted p e x).descDone p e x.desc)

/-- A descriptor that completes at once: with nothing started before it, now; otherwise in queue order (R59). -/
def State.finishNow (s : State) (p e d : Nat) : State :=
  if ((s.core p).engine e).started.isEmpty then s.descDone p e d else s.addStarted p e (Started.plain d)

/-- The lowest byte address range `rows` × `len` with a pitch ends inside the scratchpad. -/
def rangeOk (base pitch rows len : Nat) : Bool := spRange base ((rows - 1) * pitch + len)

end Sys2Proof.Machine
end

