-- ==== Sys2Proof/Machine/Memory.lean ====
section
/-!
DEFINITION. The HBM3E memory system (R311–R334): regions, the line code, reads, writes, the write-combining buffer and
flushes.
-/
namespace Sys2Proof.Machine

/-! ## The map and the regions (R314–R317) -/

/-- A stack with its controller. -/
def State.stack (s : State) (n : Nat) : Stack := (look n s.hbms).getD Stack.fresh

/-- The state with a stack replaced. -/
def State.setStack (s : State) (n : Nat) (x : Stack) : State := { s with hbms := put n x s.hbms }

/-- One mebibyte. -/
def mib : Nat := 0x100000

/-- P, the number of active pseudo-channels. -/
def Stack.pcs (x : Stack) : Nat := x.active.length

/-- The capacity C (R316). -/
def Stack.capacity (x : Stack) : Nat := 750000000 * x.pcs

/-- First offset of the retraining rows, the Locket region, the step ledger and the recording ring (R316). -/
def Stack.retrainBase (x : Stack) : Nat := x.capacity - x.pcs * mib
def Stack.locketBase (x : Stack) : Nat := x.retrainBase - 64 * mib
def Stack.ledgerBase (x : Stack) : Nat := x.retrainBase - 66 * mib
def Stack.recordBase (x : Stack) : Nat := x.ledgerBase - x.ring * mib

/-- A stack cannot be reached: it has failed, or its setting is fenced (R330, R488). -/
def Stack.lost (x : Stack) : Bool := x.failed || x.off

/-- USABLE_TOP; the usable space of a stack that cannot be reached is empty (R316, R330, R488). -/
def Stack.usableTop (x : Stack) : Nat := if x.lost then 0 else x.recordBase

/-- The pseudo-channel and position of a line (R315). -/
def Stack.place (x : Stack) (l : Nat) : Nat × Nat :=
  let q := l / x.pcs
  ((x.active.getD ((l + 7 * q) % x.pcs) 0).val, q)

/-- A range may be written by an MSE operation or a CHP transfer: it lies whole in the usable space (R317). -/
def Stack.writable (x : Stack) (off len : Nat) : Bool := decide (off + len ≤ x.usableTop)

/-- A range may be read by an MSE operation or a CHP transfer: it lies whole in one readable region (R317). -/
def Stack.readable (x : Stack) (off len : Nat) : Bool :=
  x.writable off len
    || (!x.lost && ((decide (x.recordBase ≤ off) && decide (off + len ≤ x.ledgerBase))
      || (decide (x.ledgerBase ≤ off) && decide (off + len ≤ x.locketBase))
      || (decide (x.locketBase ≤ off) && decide (off + len ≤ x.retrainBase))))

/-- The offset of a device address within its stack's window (R314). -/
def devOffset (a : Nat) : Nat := a % 2 ^ 35

/-- The setting a device address names (R314). -/
def devSetting (a : Nat) : Nat := a / 2 ^ 35 % 32

/-! ## The line code (R324) -/

/-- The product in GF(2^8) with the field polynomial x^8 + x^4 + x^3 + x^2 + 1; the first argument counts bits. -/
def gfMulFrom : Nat → Nat → Nat → Nat
  | 0, _, _ => 0
  | n + 1, a, b =>
    let a2 := if a < 128 then 2 * a else (2 * a) ^^^ 0x11D
    (if b % 2 = 1 then a else 0) ^^^ gfMulFrom n a2 (b / 2)

/-- The product in GF(2^8). -/
def gfMul (a b : Nat) : Nat := gfMulFrom 8 a b

/-- α^k. -/
def gfPow : Nat → Nat
  | 0 => 1
  | k + 1 => gfMul 2 (gfPow k)

/-- A polynomial, lowest coefficient first, times (x − r). -/
def polyTimes (p : List Nat) (r : Nat) : List Nat :=
  List.zipWith (fun a b => a ^^^ b) (0 :: p) ((p.map (gfMul r)) ++ [0])

/-- The generator g(x) = (x − α^0) … (x − α^7), lowest coefficient first. -/
def lineGen : List Nat := (List.range 8).foldl (fun p k => polyTimes p (gfPow k)) [1]

/-- One step of the division: shifts the next data symbol into the remainder. -/
def checkStep (rem : List Nat) (d : Nat) : List Nat :=
  let top := rem.getD 7 0 ^^^ d
  List.zipWith (fun r g => r ^^^ gfMul top g) (0 :: rem.take 7) (lineGen.take 8)

/-- The 8 check bytes of a line of 64 data bytes: the coefficients of (x^8·d(x)) mod g(x). -/
def checkBytes (data : List Byte) : List Nat :=
  (data.reverse.map BitVec.toNat).foldl checkStep (List.replicate 8 0)

/-- The lane of a symbol of a codeword (R325): data lanes 0–31, check lanes 32–35. -/
def symbolLane (k : Nat) : Nat := if k < 8 then 32 + k % 4 else (k - 8) % 32

/-! ## Reading (R319, R326, R327, R331) -/

/-- The symbol errors of a stored line. -/
def Stack.lineErrors (x : Stack) (l : Nat) : List (Nat × Byte) := (look l x.errors).getD []

/-- A count of an uncorrectable read, marking the pseudo-channel once the limit is reached (R326, R329). The limit is
looked at with each such read, and one at or above it marks, also anew after a mark has been cleared: DESIGN CHOICE (log entry 50). -/
def State.uncorrectable (s : State) (n pc : Nat) : State :=
  let s1 := s.count (Key.hbmPcUncorrectable n pc) 1
  if s.get Key.pcRetireUeLimit ≤ s1.get (Key.hbmPcUncorrectable n pc) then
    s1.setFlash (Key.hbmRetireMark n) (s1.get (Key.hbmRetireMark n) ||| 2 ^ pc)
  else s1

/-- The decode of one stored line (R326, R331): the state with its counters, and the 64 bytes or none when uncorrectable.
Seven or more symbol errors give a free outcome: an error, or arbitrary bytes (log entry 2). -/
def State.decodeLine (s : State) (n l : Nat) : State × Option (List Byte) :=
  let x := s.stack n
  let pc := (x.place l).1
  let data := x.mem.readN (64 * l) 64
  let errs := x.lineErrors l
  if x.down.contains pc then (s.uncorrectable n pc, none)
  else
    match errs with
    | [] => (s, some data)
    | [_] => (s.count (Key.hbmPcCorrected n pc) 1, some data)
    | [a, b] =>
      let s1 := s.count (Key.hbmPcCorrected n pc) 1
      (if symbolLane a.1 = symbolLane b.1 then s1.count (Key.hbmPcLanePair n pc) 1 else s1, some data)
    | _ =>
      if errs.length ≤ 6 then (s.uncorrectable n pc, none)
      else if s.free % 2 = 0 then (s.tick.uncorrectable n pc, none)
      else (s.tick, some (s.freeBytes 64))

/-- A line as a read returns it: the buffer entry's bytes over the stored line (R319). -/
def overlay (data : List Byte) (e : Option WcbEntry) : List Byte :=
  match e with
  | none => data
  | some w => data.zipIdx.map (fun b => (look b.2 w.bytes).getD b.1)

/-- The write-combining buffer entry of a line. -/
def Stack.entryOf (x : Stack) (l : Nat) : Option WcbEntry := x.wcb.find? (fun w => w.line == l)

/-- One line read through the controller. -/
def State.readLine (s : State) (n l : Nat) : State × Option (List Byte) :=
  let r := (s.count (Key.hbmReads n) 1).decodeLine n l
  (r.1, r.2.map (fun d => overlay d ((s.stack n).entryOf l)))

/-- Lines of a range, from line `l` on, `k` of them; none as soon as one is uncorrectable, every line being read. -/
def State.readLines (s : State) (n l : Nat) : Nat → State × Option (List Byte)
  | 0 => (s, some [])
  | k + 1 =>
    let r := s.readLine n l
    let t := State.readLines r.1 n (l + 1) k
    (t.1, match r.2, t.2 with
      | some a, some b => some (a ++ b)
      | _, _ => none)

/-- The bytes of a range of a stack, or none when a line of it is uncorrectable (R327). -/
def State.hbmRead (s : State) (n off len : Nat) : State × Option (List Byte) :=
  if len = 0 then (s, some [])
  else
    let l0 := off / 64
    let r := s.readLines n l0 ((off + len - 1) / 64 - l0 + 1)
    (r.1, r.2.map (fun d => (d.drop (off % 64)).take len))

/-- The lines of a range one after another, each being read: the bytes ahead of the first uncorrectable one. -/
def State.linesTo (s : State) (n l : Nat) : Nat → State × List Byte
  | 0 => (s, [])
  | k + 1 =>
    let r := s.readLine n l
    let t := State.linesTo r.1 n (l + 1) k
    (t.1, match r.2 with
      | some a => a ++ t.2
      | none => [])

/-- The bytes of a range of a stack ahead of its first uncorrectable line: all of them where there is none. -/
def State.hbmReadTo (s : State) (n off len : Nat) : State × List Byte :=
  if len = 0 then (s, [])
  else
    let r := s.linesTo n (off / 64) ((off + len - 1) / 64 - off / 64 + 1)
    (r.1, (r.2.drop (off % 64)).take len)

/-! ## Writing (R318–R321) -/

/-- A whole line with new check bytes written to the stack: its symbol errors are gone. A line on a pseudo-channel that
failed warm retraining is discarded (R331). -/
def State.storeLine (s : State) (n l : Nat) (data : List Byte) : State :=
  let x := s.stack n
  if x.down.contains (x.place l).1 then s.count (Key.hbmPcDownWrites n) 1
  else
    (s.setStack n { x with mem := x.mem.writeN (64 * l) data, errors := drop' l x.errors }).count (Key.hbmWrites n) 1

/-- The controller's buffer without the entry of a line. -/
def State.dropEntry (s : State) (n l : Nat) : State :=
  let x := s.stack n
  s.setStack n { x with wcb := x.wcb.filter (fun w => w.line != l) }

/-- A buffer entry leaves the buffer: a full line as it is, a partial one by read-modify-write (R318, R321). The counter
given counts a read-modify-write. -/
def State.retireEntry (s : State) (n : Nat) (w : WcbEntry) (why : Ent) : State :=
  let s1 := s.dropEntry n w.line
  if w.bytes.length = 64 then s1.storeLine n w.line (w.bytes.map Prod.snd)
  else
    let r := (s1.count (Key.hbmReads n) 1).decodeLine n w.line
    let s2 := r.1.count why 1
    match r.2 with
    | some data => s2.storeLine n w.line (overlay data (some w))
    | none => s2.count (Key.hbmWcbRmwLost n) 1

/-- Bytes merged into a buffer entry (R318). -/
def WcbEntry.merge (w : WcbEntry) (pos : Nat) (bs : List Byte) (who : Nat) : WcbEntry :=
  { w with bytes := bs.zipIdx.foldl (fun m b => put (pos + b.2) b.1 m) w.bytes,
           writers := if w.writers.contains who then w.writers else w.writers ++ [who] }

/-- A write of one line's bytes at a position within it (R318). Every write to a pseudo-channel that failed warm retraining is
discarded and counted (R331). -/
def State.writeLine (s : State) (n who l pos : Nat) (bs : List Byte) : State :=
  let x := s.stack n
  if bs.length = 64 then (s.dropEntry n l).storeLine n l bs
  else if x.down.contains (x.place l).1 then s.count (Key.hbmPcDownWrites n) 1
  else
    match x.entryOf l with
    | some w =>
      let w' := w.merge pos bs who
      if w'.bytes.length = 64 then ((s.dropEntry n l).storeLine n l (w'.bytes.map Prod.snd)).count (Key.hbmWcbMerges n) 1
      else s.setStack n { x with wcb := x.wcb.map (fun v => if v.line = l then w' else v) }
    | none =>
      let s1 := if x.wcb.length < 512 then s
        else match x.wcb with
          | old :: _ => s.retireEntry n old (Key.hbmWcbEvictions n)
          | [] => s
      let y := s1.stack n
      s1.setStack n { y with wcb := y.wcb ++ [(WcbEntry.mk l [] []).merge pos bs who] }

/-- The aligned-line pieces of a write as (line, position, bytes); the first argument bounds their number. -/
def linePieces : Nat → Nat → List Byte → List (Nat × Nat × List Byte)
  | 0, _, _ => []
  | n + 1, off, bs =>
    if bs.isEmpty then []
    else
      let k := 64 - off % 64
      (off / 64, off % 64, bs.take k) :: linePieces n (off + k) (bs.drop k)

/-- A descriptor of a core as a writer in the write-combining buffers (R320): its endpoint, and above that its start number and one. -/
def State.coreWho (s : State) (lc no : Nat) : Nat := 65536 * s.node + lc + 2 ^ 48 * (no + 1)

/-- A write of bytes through a controller by the writer `who` (R318). -/
def State.hbmWrite (s : State) (n who off : Nat) (bs : List Byte) : State :=
  (linePieces (bs.length + 1) off bs).foldl (fun s p => s.writeLine n who p.1 p.2.1 p.2.2) s

/-- A flush of the buffer entries that a test chooses (R320). -/
def State.hbmFlush (s : State) (n : Nat) (test : WcbEntry → Bool) : State :=
  ((s.stack n).wcb.filter test).foldl (fun s w => s.retireEntry n w (Key.hbmWcbRmw n)) s

/-- Time at a controller: its command/address parity retries and the clocks that requests wait while it holds 4,096 in flight
advance by free amounts (R313, R323; log entry 6). Neither changes more than timing. -/
def State.tickMemory (s : State) : State :=
  ((s.hbms.filter (·.2.accepting)).map Prod.fst).foldl
    (fun s n => (s.countClocks (Key.hbmCaParityRetries n)).countClocks (Key.hbmQueueFullClocks n)) s

/-- The stacks of the package. -/
def settings : List Nat := List.range 24

/-- A controller accepts requests: its stack is initialised and not being reset (R333, R480). -/
def State.controllerOpen (s : State) (n : Nat) : Bool :=
  (s.stack n).accepting && !s.packageHeld && !s.resets.any (fun j => (j.domain == 4 && j.target == n) || decide (6 ≤ j.domain))

/-! ## The commands -/

/-- WCB_TIMEOUT_EXPIRY (R318): the entry of the line is written by read-modify-write. No effect where the buffer holds
none. -/
def execWcbTimeoutExpiry (setting : Setting) (line : Nat) (s : State) : Host.Outcome State Fault Refusal :=
  match (s.stack setting.val).entryOf line with
  | some w => .next (s.whileUp fun s => s.retireEntry setting.val w (Key.hbmWcbRmw setting.val))
  | none => .next s

/-- SCRUB_READ (R328): reads a line and writes it back when corrected; an uncorrectable one is counted and left. -/
def execScrubRead (setting : Setting) (line : Nat) (s : State) : Host.Outcome State Fault Refusal :=
  let n := setting.val
  let x := s.stack n
  if s.get Key.scrubPeriod = 0 ∨ s.controllerOpen n = false ∨ x.capacity ≤ 64 * line then .next s
  else
    let r := (s.count (Key.hbmReads n) 1).decodeLine n line
    match r.2 with
    | some data =>
      if x.lineErrors line = [] then .next r.1
      else .next ((r.1.storeLine n line data).count (Key.hbmScrubWritebacks n) 1)
    | none => .next r.1

end Sys2Proof.Machine
end

