-- ==== Sys2Proof/Machine/Fabric.lean ====
section
/-!
DEFINITION. How a packet leaves the package: its bytes and CRC (R367–R369), the frames of a link (R339–R344), the ports and
their labels (R347, R392, R394), and the route (R371, R373, R375, R386–R402).
-/
namespace Sys2Proof.Machine

/-! ## CRCs (R339, R369) -/

/-- One bit of a reflected CRC register. -/
def crcBit (poly r : Nat) : Nat := if r % 2 = 1 then r / 2 ^^^ poly else r / 2

/-- One octet into a reflected CRC register. -/
def crcOctet (poly r : Nat) (b : Byte) : Nat := (List.range 8).foldl (fun r _ => crcBit poly r) (r ^^^ b.toNat)

/-- A 32-bit CRC with reflected input and output, initial value and final XOR all ones; `poly` is the reflected polynomial. -/
def crc32 (poly : Nat) (bs : List Byte) : Nat := bs.foldl (crcOctet poly) 0xFFFFFFFF ^^^ 0xFFFFFFFF

/-- CRC-32C: polynomial 0x1EDC_6F41 (R369). -/
def crc32c (bs : List Byte) : Nat := crc32 0x82F63B78 bs

/-- CRC-32 of IEEE 802.3: polynomial 0x04C1_1DB7 (R339). -/
def crcIeee (bs : List Byte) : Nat := crc32 0xEDB88320 bs

/-! ## Packets (R367–R369) -/

/-- The header up to bit 231, which the CRC covers (R367). -/
def headLow (p : Packet) : Nat :=
  p.destNode.toNat + p.destEp.toNat * 2 ^ 32 + p.srcEp.toNat * 2 ^ 48 + p.srcNode.toNat * 2 ^ 64
    + p.msgId.toNat * 2 ^ 96 + p.op.toNat * 2 ^ 120 + p.offset.toNat * 2 ^ 128 + p.length.toNat * 2 ^ 168
    + p.cls.toNat * 2 ^ 179 + b2n p.epoch * 2 ^ 181 + p.channel.toNat * 2 ^ 182 + b2n p.last * 2 ^ 186
    + b2n p.fence * 2 ^ 187 + b2n p.ackReq * 2 ^ 188 + b2n p.mcast * 2 ^ 189 + p.rsv.toNat * 2 ^ 190 + p.jobTag.toNat * 2 ^ 192
    + p.operand.toNat * 2 ^ 200

/-- The route state, bits 232–255 (R367). -/
def routeState (p : Packet) : Nat :=
  p.dateline.toNat + p.detour.toNat * 2 ^ 4 + p.detourAxis.toNat * 2 ^ 6 + b2n p.detourDir * 2 ^ 8
    + p.detourSkip.toNat * 2 ^ 9 + b2n p.abort * 2 ^ 11 + b2n p.skipDir * 2 ^ 12 + p.hopsLeft.toNat * 2 ^ 16

/-- The payload padded with zero bytes to a multiple of 32 (R368). -/
def padded (bs : List Byte) : List Byte := bs ++ List.replicate (32 * ceilDiv bs.length 32 - bs.length) 0

/-- The end-to-end CRC of a packet: its header with bytes 29–31 taken as zero, and the padded payload (R369). -/
def packetCrc (p : Packet) : Nat := crc32c (leBytes 32 (headLow p) ++ padded p.payload)

/-- A packet with its CRC formed. -/
def sealed (p : Packet) : Packet := { p with crc := BitVec.ofNat 32 (packetCrc p) }

/-- The bytes of a packet on a link: header, padded payload, trailer (R367, R369). -/
def packetBytes (p : Packet) : List Byte :=
  leBytes 32 (headLow p + routeState p * 2 ^ 232) ++ padded p.payload ++ leBytes 8 p.crc.toNat

/-- The packet that a link's bytes hold, its padding dropped. The fields that the manual does not place read 0. -/
def packetOf (bs : List Byte) : Packet :=
  let h := leNat (bs.take 32)
  let n := fld h 168 11
  { destNode := BitVec.ofNat 32 h, destEp := BitVec.ofNat 16 (fld h 32 16), srcEp := BitVec.ofNat 16 (fld h 48 16),
    srcNode := BitVec.ofNat 32 (fld h 64 32), msgId := BitVec.ofNat 24 (fld h 96 24), op := BitVec.ofNat 8 (fld h 120 8),
    offset := BitVec.ofNat 40 (fld h 128 40), length := BitVec.ofNat 11 n, cls := BitVec.ofNat 2 (fld h 179 2),
    epoch := bit h 181, channel := BitVec.ofNat 4 (fld h 182 4), last := bit h 186, fence := bit h 187,
    ackReq := bit h 188, mcast := bit h 189, jobTag := BitVec.ofNat 8 (fld h 192 8),
    operand := BitVec.ofNat 32 (fld h 200 32), dateline := BitVec.ofNat 4 (fld h 232 4),
    detour := BitVec.ofNat 2 (fld h 236 2), detourAxis := BitVec.ofNat 2 (fld h 238 2), detourDir := bit h 240,
    detourSkip := BitVec.ofNat 2 (fld h 241 2), abort := bit h 243, skipDir := bit h 244,
    hopsLeft := BitVec.ofNat 8 (fld h 248 8), payload := (bs.drop 32).take n,
    crc := BitVec.ofNat 32 (leNat ((bs.drop (32 + 32 * ceilDiv n 32)).take 4)), fields := 0, rsv := BitVec.ofNat 2 (fld h 190 2) }

/-- The bytes a packet takes on a link, from the LENGTH in its header (R367–R369). -/
def packetSize (bs : List Byte) : Nat := 40 + 32 * ceilDiv (fld (leNat (bs.take 32)) 168 11) 32

/-- A reserved packet operation (R368). A request is of an operation of the message engine. -/
def opReserved (op : Nat) : Bool :=
  (decide (op < 0x80) && !opAssigned 2 op) || (decide (0x80 < op) && decide (op < 0xF0)) || decide (0xF3 ≤ op)

/-- A packet holds a reserved field value (R367, R368). -/
def packetReserved (p : Packet) : Bool :=
  p.length.toNat == 0 || decide (1024 < p.length.toNat) || p.detour == 3 || opReserved p.op.toNat

/-- The empty packet, from which the headers of messages are formed. -/
def Packet.blank : Packet :=
  { destNode := 0, destEp := 0, srcEp := 0, srcNode := 0, msgId := 0, op := 0, offset := 0, length := 0, cls := 0,
    epoch := false, channel := 0, last := false, fence := false, ackReq := false, mcast := false, jobTag := 0,
    operand := 0, dateline := 0, detour := 0, detourAxis := 0, detourDir := false, detourSkip := 0, abort := false,
    skipDir := false, hopsLeft := 0, payload := [], crc := 0, fields := 0 }

/-- The flow of a packet (R373). -/
def flowOf (p : Packet) : List Nat :=
  [p.srcNode.toNat, p.srcEp.toNat, p.destNode.toNat, p.destEp.toNat, p.channel.toNat]

/-! ## Links and ports -/

/-- A link. -/
def State.link (s : State) (l : Nat) : LinkState := (look l s.links).getD LinkState.fresh

/-- The state with a link replaced. -/
def State.setLink (s : State) (l : Nat) (x : LinkState) : State := { s with links := put l x s.links }

/-- A port. -/
def State.port (s : State) (p : Nat) : PortState := (look p s.ports).getD PortState.fresh

/-- The state with a port replaced. -/
def State.setPort (s : State) (p : Nat) (x : PortState) : State := { s with ports := put p x s.ports }

/-- PORT_LINK_MASK with the defaults of R347. -/
def State.portMask (s : State) (p : Nat) : Nat :=
  (look (Key.portLinkMask p).key s.dict).getD (if p < 8 then 15 * 2 ^ (4 * p) else 0)

/-- PORT_AXIS with the defaults of R347: 4 is none. -/
def State.portAxis (s : State) (p : Nat) : Nat := (look (Key.portAxis p).key s.dict).getD (if p < 8 then p / 2 else 4)

/-- PORT_DIR with the defaults of R347. -/
def State.portDir (s : State) (p : Nat) : Nat := (look (Key.portDir p).key s.dict).getD (if p < 8 then p % 2 else 0)

/-- PORT_DETOUR with the defaults of R403. -/
def State.portDetour (s : State) (p : Nat) : Nat :=
  (look (Key.portDetour p).key s.dict).getD (if p < 8 then (p / 2 + 1) % 4 else 0x80)

/-- The links of a port, lowest first (R347). -/
def State.portLinks (s : State) (p : Nat) : List Nat := (List.range 32).filter (bit (s.portMask p))

/-- The ACTIVE links of a port (R349). -/
def State.activeLinks (s : State) (p : Nat) : List Nat := (s.portLinks p).filter (fun l => (s.link l).st == 5)

/-- The port that names a link. -/
def State.portOf (s : State) (l : Nat) : Option Nat := (List.range 16).find? (fun p => bit (s.portMask p) l)

/-- A link carries DATA frames: it is ACTIVE and its neighbour's latest STATE frame says so too (R350). -/
def LinkState.carries (x : LinkState) : Bool := x.st == 5 && x.nbState == 5

/-- Credits in bytes of a virtual channel of a link (R341). -/
def LinkState.credit (x : LinkState) (vc : Nat) : Nat := (look vc x.credits).getD 0

/-! ## Frames sent (R339, R342, R344) -/

/-- The first 248 bytes of a frame, which its CRC covers. -/
def frameBytes (f : Frame) : List Byte :=
  leBytes 8 (f.seq.toNat + f.ack.toNat * 2 ^ 16 + f.ftype.toNat * 2 ^ 32 + b2n f.nak * 2 ^ 34 + b2n f.rsv * 2 ^ 35 + f.vc.toNat * 2 ^ 36
    + f.bodyLen.toNat * 2 ^ 40 + f.creditVc.toNat * 2 ^ 48 + f.credits.toNat * 2 ^ 52)
    ++ f.body ++ List.replicate (240 - f.body.length) 0

/-- A frame as it leaves a link: SEQ and the body are given; ACK, NAK and returned credits come from the link's receive
side; the CRC is formed (R339, R341, R343). -/
def LinkState.form (x : LinkState) (ftype vc seq : Nat) (body : List Byte) : Frame :=
  let o := x.owed.headD (0, 0)
  let f : Frame :=
    { seq := BitVec.ofNat 16 seq, ack := BitVec.ofNat 16 x.expect, ftype := BitVec.ofNat 2 ftype, nak := x.nakDue,
      vc := BitVec.ofNat 4 vc, bodyLen := BitVec.ofNat 8 (if ftype = 0 then body.length else 0),
      creditVc := BitVec.ofNat 4 o.1, credits := BitVec.ofNat 12 (o.2 / 32), body := body, crc := 0 }
  { f with crc := BitVec.ofNat 32 (crcIeee (frameBytes f)) }

/-- A link whose next frame has gone: the NAK it carried is sent, once for an expected value (R343). -/
def LinkState.nakGone (x : LinkState) : LinkState :=
  { x with nakDue := false, nakSent := if x.nakDue then some x.expect else x.nakSent }

/-- The same for a frame that returned credits. -/
def LinkState.sent (x : LinkState) : LinkState :=
  { x.nakGone with owed := match x.owed with
                     | [] => []
                     | (v, n) :: t => if n % 32 = 0 then t else t ++ [(v, n % 32)] }

/-- A frame leaves a link. -/
def State.sendFrame (s : State) (l ftype vc seq : Nat) (body : List Byte) : State :=
  let x := s.link l
  let s1 := ((s.setLink l x.sent).emit (.frame l (x.form ftype vc seq body))).count (Key.xflFramesTx l) 1
  if x.nakDue then s1.count (Key.xflNaksSent l) 1 else s1

/-! ## Node addresses (R363–R366) -/

/-- Coordinate of a node address on an axis. -/
def coord (node a : Nat) : Nat := fld node (8 * a) 8

/-- Size of an axis (R364). -/
def State.axisSize (s : State) (a : Nat) : Nat := fld (s.get Key.axisSizes) (8 * a) 8

/-- The axis wraps (R400). -/
def State.wraps (s : State) (a : Nat) : Bool := bit (s.get Key.axisWrap) a

/-- The package is in up/down mode (R400). -/
def State.upDown (s : State) : Bool := s.get Key.routeMode == 1

/-- The axes. -/
def axes : List Nat := [0, 1, 2, 3]

/-- The multicast axis of an address, if it holds 0xFF on exactly one axis (R366). -/
def mcastAxis (node : Nat) : Option Nat :=
  match axes.filter (fun a => coord node a == 0xFF) with
  | [a] => some a
  | _ => none

/-- A target node address is a reserved value (R365). -/
def State.nodeReserved (s : State) (node : Nat) : Bool :=
  if s.upDown then decide (2 ^ 12 ≤ node) || axes.any (fun a => coord node a == 0xFF)
  else axes.any (fun a => decide (0x40 ≤ coord node a) && coord node a != 0xFF)
    || decide (1 < (axes.filter (fun a => coord node a == 0xFF)).length)

/-- A node address, or the leaf of a multicast address, is the package's own. -/
def State.isOwn (s : State) (node : Nat) : Bool :=
  node == s.node || (mcastAxis node != none && axes.all (fun a => coord node a == 0xFF || coord node a == coord s.node a))

/-! ## Tables (R385–R389) -/

/-- TABLE_STATE of a version: 0 IDLE, 1 SEALED, 2 ACTIVE, 3 DRAINING (R389). -/
def State.tableState (s : State) (v : Nat) : Nat := (look (Key.tableState v).key s.dict).getD (if v = 0 then 2 else 0)

/-- The version in state ACTIVE. -/
def State.activeVersion (s : State) : Nat := if s.tableState 1 = 2 then 1 else 0

/-- The entries of a version's exception table that are not zero, by rising index. -/
def State.exceptions (s : State) (v : Nat) : List Nat :=
  ((s.dict.filter (fun e => decide ((Key.exception v 0).key ≤ e.1) && decide (e.1 < (Key.exception v 0).key + 4096)))).map Prod.snd

/-- A valid exception entry matches a destination (R387). -/
def exceptionMatches (e node : Nat) : Bool :=
  bit e 36 && axes.all (fun a => !bit e (32 + a) || coord node a == coord e a)

/-- The exception entry that decides for a destination (R386). -/
def State.exceptionFor (s : State) (v node : Nat) : Option Nat := (s.exceptions v).find? (exceptionMatches · node)

/-- A port is fenced, for packets of a version (R394). -/
def State.fenced (s : State) (v p : Nat) : Bool :=
  s.flag (Key.portFence p)
    || (match (s.port p).record with
        | none => false
        | some r =>
          if s.upDown then bit (s.get (Key.exception v (r.node.toNat % 4096))) 33
          else (s.exceptions v).any (fun e => exceptionMatches e r.node.toNat && fld e 37 3 == 1))

/-- A port is usable (R392). -/
def State.usable (s : State) (v p : Nat) : Bool := !(s.activeLinks p).isEmpty && !s.fenced v p

/-- The rim dies that carry an axis, lowest first (R573). -/
def State.carriers (s : State) (a : Nat) : List Nat :=
  let rs := (List.range 4).filter (fun r => (List.range 16).any (fun p =>
    s.portAxis p == a && s.portMask p / 2 ^ (8 * r) % 256 != 0))
  if rs.isEmpty then [a] else rs

/-- The rim die that holds the group state of an axis, and for the data axis the sequencer (R573). -/
def State.axisHome (s : State) (a : Nat) : Nat := (s.carriers a).headD a

/-- The ports labelled with an axis and a direction, 0 plus and 1 minus. An axis of size 1 has none (R364). -/
def State.labelled (s : State) (a d : Nat) : List Nat :=
  if s.axisSize a ≤ 1 then []
  else (List.range 16).filter (fun p => s.portMask p != 0 && s.portAxis p == a && s.portDir p == d)

/-- The port of an axis and direction: a usable one if there is one. -/
def State.portFor (s : State) (v a d : Nat) : Option Nat :=
  let ps := s.labelled a d
  match ps.find? (s.usable v) with
  | some p => some p
  | none => ps.head?

/-! ## Hops (R371, R375, R392, R397) -/

/-- Hops still to take on an axis in a direction. -/
def State.hopsOn (s : State) (a d dest : Nat) : Nat :=
  let n := s.axisSize a
  let o := coord s.node a
  if s.wraps a then (if d = 0 then (dest + n - o) % n else (o + n - dest) % n)
  else if d = 0 then dest - o else o - dest

/-- A hop from this package on an axis in a direction crosses the dateline of the axis (R371). -/
def State.crosses (s : State) (a d : Nat) : Bool :=
  s.wraps a && (if d = 0 then coord s.node a + 1 == s.axisSize a else coord s.node a == 0)

/-- The packet with the dateline bit of an axis set where the hop crosses it. -/
def State.crossed (s : State) (a d : Nat) (p : Packet) : Packet :=
  if s.crosses a d then { p with dateline := p.dateline ||| BitVec.ofNat 4 (2 ^ a) } else p

/-- The dateline channel of a packet on an axis: VC 3c + 0 or 3c + 1 (R370, R371). -/
def datelineVc (a : Nat) (p : Packet) : Nat := 3 * p.cls.toNat + b2n (bit p.dateline.toNat a)

/-- The detour channel of a packet's class (R370). -/
def detourVc (p : Packet) : Nat := 3 * p.cls.toNat + 2

/-! ## A port's links (R339, R344, R373, R394, R399) -/

/-- One more DATA frame of a link, of the first waiting bytes that have credit, while the replay buffer has room and the port is not
fenced for them. -/
def State.cutFrame (s : State) (l : Nat) : State :=
  let x := s.link l
  match x.txq.find? (fun e => decide (0 < x.credit e.1) && !(s.portOf l).any (s.fenced e.2.1)) with
  | none => s
  | some (vc, e, bs) =>
    if 256 ≤ x.replay.length ∨ x.carries = false then s
    else
      let n := min 240 (min bs.length (x.credit vc))
      let f := x.form 0 vc x.txSeq (bs.take n)
      let rest := x.txq.filter (fun e => e.1 != vc)
      let x' := { x with txSeq := (x.txSeq + 1) % 65536, credits := put vc (x.credit vc - n) x.credits,
                         replay := x.replay ++ [(f, if n = bs.length then [e] else [])],
                         txq := if n = bs.length then rest else (vc, e, bs.drop n) :: rest }
      (s.setLink l x').sendFrame l 0 vc x.txSeq (bs.take n)

/-- A link sends what it can. -/
def State.pumpLink (s : State) (l : Nat) : State := (List.range 256).foldl (fun s _ => s.cutFrame l) s

/-- A link of a port takes a packet: one that did not originate here is counted as transit (R399). -/
def State.countTransit (s : State) (port : Nat) (p : Packet) : State :=
  if p.srcNode.toNat = s.node then s
  else
    let n := (packetBytes p).length
    let s1 := s.count (Key.transitBytes port) n
    if p.jobTag.toNat = s.get Key.jobTag then s1 else s1.count (Key.foreignTagBytes port) n

/-- One packet waiting for a port goes to one of the port's links that carries data, has credit and holds no other packet of
its virtual channel; otherwise it waits on. The link is chosen by the hash of the flow, or freely for a sprayed packet
(R373). -/
def State.tryPort (s : State) (w : Nat × Nat × Packet × Packet × Route) : State :=
  let p := w.2.2.1
  let ls := (s.portLinks w.1).filter (fun l => (s.link l).carries)
  let k := if p.cls = 1 then s.free else Config.flowHash (flowOf p)
  let s0 := if p.cls = 1 then s.tick else s
  match ls[k % ls.length]? with
  | none => { s with waiting := s.waiting ++ [w] }
  | some l =>
    let x := s.link l
    if x.credit w.2.1 = 0 ∨ x.txq.any (fun e => e.1 == w.2.1) then { s0 with waiting := s0.waiting ++ [w] }
    else
      ((s0.setLink l { x with txq := x.txq ++ [(w.2.1, b2n p.epoch, packetBytes p)] }).countTransit w.1 p).pumpLink l

/-- A packet goes out on a port: a hop less is left, and it waits for a link (R373, R375). `was` is the packet before this hop, and `r` its
route. -/
def State.sendOn (s : State) (port vc : Nat) (p was : Packet) (r : Route) : State :=
  let q := { p with hopsLeft := p.hopsLeft - 1 }
  (s.emit (.packet (some port) vc q)).tryPort (port, vc, q, was, r)

/-- A COMPLETION from this package's endpoint for a packet's message, back to its source (R381): status, leaf and whether
the leaf was excluded. It carries the job tag of the packet it answers (R399; DEDUCED, log entry 26). It is put out for the
source, or routed by the caller. -/
def State.completionFor (s : State) (p : Packet) (status leaf : Nat) (excl : Bool) : Packet :=
  sealed { Packet.blank with
    destNode := p.srcNode, destEp := p.srcEp, srcEp := p.destEp, srcNode := BitVec.ofNat 32 s.node, msgId := p.msgId,
    op := 0xF0, length := 32, cls := 3, channel := p.channel, last := true, jobTag := p.jobTag,
    hopsLeft := BitVec.ofNat 8 (s.get Key.hopLimit),
    epoch := s.activeVersion == 1,
    payload := leBytes 32 (status % 256 + leaf % 64 * 2 ^ 8 + b2n excl * 2 ^ 14) }

/-- The leaf coordinate of this package in the answer to a packet (R381): 0 for unicast. -/
def State.leafOf (s : State) (p : Packet) : Nat :=
  if p.mcast then ((mcastAxis p.destNode.toNat).map (coord s.node)).getD 0 else 0

/-- The direction an axis entry gives, with the hash or a free choice where both are minimal (R373, R386). -/
def State.direction (s : State) (dirField : Nat) (p : Packet) : Option Nat :=
  match dirField with
  | 1 => some 0
  | 2 => some 1
  | 3 => some ((if p.cls = 1 then s.free else Config.flowHash (flowOf p)) % 2)
  | _ => none

/-- The route along the first of some axes on which the destination differs (R371, R386). -/
def State.axisRoute (s : State) (v : Nat) (among : List Nat) (p : Packet) : Route :=
  let dest := p.destNode.toNat
  match among.find? (fun a => coord dest a != coord s.node a) with
  | none => .deliver
  | some a =>
    let e := s.get (Key.axisRoute v a (coord dest a))
    match (if bit e 2 && decide (coord dest a < s.axisSize a) then s.direction (fld e 0 2) p else none) with
    | none => .none
    | some d => if (s.labelled a d).isEmpty then .none else .along a d (s.hopsOn a d (coord dest a))

/-- The route in axis mode over some axes: the exception table, then the axis tables (R386). -/
def State.tableRoute (s : State) (v : Nat) (among : List Nat) (p : Packet) : Route :=
  if among.all (fun a => coord p.destNode.toNat a == coord s.node a) then .deliver
  else
    match s.exceptionFor v p.destNode.toNat with
    | some e => if fld e 37 3 = 0 then .ports (fld e 40 16) (bit e 56) else .none
    | none => s.axisRoute v among p

/-- The route in up/down mode (R402). -/
def State.upDownRoute (s : State) (v : Nat) (p : Packet) : Route :=
  if p.destNode.toNat = s.node then .deliver
  else
    let e := s.get (Key.exception v (p.destNode.toNat % 4096))
    let us := fun m => (List.range 16).filter (fun q => bit m q && s.usable v q)
    if !bit e 32 || bit e 33 then .none
    else if !bit p.dateline.toNat 0 && !(us (fld e 0 16)).isEmpty then .ports (fld e 0 16) false
    else if (us (fld e 16 16)).isEmpty then .none
    else .down (fld e 16 16)

/-- A packet dropped at a fenced port, and refused where its destination is one hop away (R397). -/
def State.dropFenced (s : State) (port : Nat) (leaf : Option Nat) (p : Packet) : State × List Packet :=
  let s1 := s.count (Key.fencedDrops port) 1
  match leaf with
  | none => (s1, [])
  | some c =>
    if p.ackReq then (s1, [if p.mcast then s.completionFor p 0 c true else s.completionFor p 7 0 false]) else (s1, [])

/-- The next coordinate on an axis in a direction. -/
def State.nextCoord (s : State) (a d : Nat) : Nat :=
  let n := s.axisSize a
  let o := coord s.node a
  if d = 0 then (if o + 1 = n then 0 else o + 1) else (if o = 0 then n - 1 else o - 1)

/-- The destination that lies one hop away on an axis, and its leaf coordinate (R397): for unicast the package itself, for multicast
the next leaf of the arc, or on another axis the leaf of this coordinate. -/
def State.oneHopLeaf (s : State) (a d r : Nat) (p : Packet) : Option Nat :=
  let same := axes.all (fun b => b == a || coord p.destNode.toNat b == 0xFF || coord p.destNode.toNat b == coord s.node b)
  match (if p.mcast then mcastAxis p.destNode.toNat else none) with
  | none => if same && r == 1 then some 0 else none
  | some m =>
    if same && m == a then some (s.nextCoord a d)
    else if same && m != a && r == 1 then some (coord s.node m)
    else none

/-- A hop along an axis: the labelled port, or the local detour round it, or a drop (R392, R397). Answers the completions to
return. -/
def State.hopAlong (s : State) (v a d r : Nat) (p : Packet) : State × List Packet :=
  match s.portFor v a d with
  | none => (s.count Key.noRouteDrops 1, [])
  | some q =>
    if s.usable v q then (s.sendOn q (datelineVc a p) (s.crossed a d p) p (.along a d r), [])
    else
      let det := s.portDetour q
      let f := s.fenced v q
      let leaf := s.oneHopLeaf a d r p
      let refused := if f && p.mcast && leaf.isSome then s.dropFenced q leaf p else (s, [])
      if bit det 7 || (f && r == 1) then
        if f then (if p.mcast && leaf.isSome then refused else s.dropFenced q leaf p)
        else (s.count Key.noRouteDrops 1, [])
      else
        let skip := if f || !p.mcast then min 2 r else 1
        let p1 := { p with detour := 1, detourAxis := BitVec.ofNat 2 det, detourDir := bit det 2, skipDir := d == 1,
                           detourSkip := BitVec.ofNat 2 skip }
        let s1 := refused.1.count (Key.detouredPackets q) 1
        match s1.portFor v (det % 4) (b2n (bit det 2)) with
        | none => (s1.count Key.detourDrops 1, refused.2)
        | some o =>
          if s1.usable v o then (s1.sendOn o (detourVc p1) (s1.crossed (det % 4) (b2n (bit det 2)) p1) p (.along a d r), refused.2)
          else (s1.count Key.detourDrops 1, refused.2)

/-- The later hops of a detour (R392). -/
def State.hopDetour (s : State) (v : Nat) (p : Packet) : State :=
  let da := p.detourAxis.toNat
  let step : Option (Nat × Nat × Packet) :=
    if p.detour = 1 then
      (axes.find? (fun a => a != da && coord p.destNode.toNat a != coord s.node a)).map (fun a =>
        let k := p.detourSkip - 1
        (a, b2n p.skipDir, { p with detourSkip := k, detour := if k = 0 then 2 else 1 }))
    else some (da, 1 - b2n p.detourDir, { p with detour := 0 })
  match step with
  | none => s.count Key.detourDrops 1
  | some (a, d, p1) =>
    match s.portFor v a d with
    | none => s.count Key.detourDrops 1
    | some q => if s.usable v q then s.sendOn q (detourVc p1) (s.crossed a d p1) p .none else s.count Key.detourDrops 1

/-- One of the usable ports of a mask, by the hash of the flow or freely (R373). -/
def State.anyPort (s : State) (v mask : Nat) (p : Packet) : Option Nat :=
  let ps := (List.range 16).filter (fun q => bit mask q && s.usable v q)
  ps[(if p.cls = 1 then s.free else Config.flowHash (flowOf p)) % ps.length]?

/-- A packet is at its destination: it comes back as the command of its arrival. One of a reserved operation has none, and is
discarded here (R369). -/
def State.deliver (s : State) (p : Packet) : State :=
  if opReserved p.op.toNat then s.count (if p.abort then Key.abortedPackets else Key.e2eCrcErrors) 1
  else s.emit (.packet none 0 p)

/-- A packet takes a route. -/
def State.take (s : State) (v : Nat) (r : Route) (p : Packet) : State × List Packet :=
  match r with
  | .deliver => (s.deliver p, [])
  | .none => (s.count Key.noRouteDrops 1, [])
  | .along a d h => s.hopAlong v a d h p
  | .ports mask det =>
    match s.anyPort v mask p with
    | none => (s.count Key.noRouteDrops 1, [])
    | some q =>
      let a := s.portAxis q
      if s.upDown then (s.sendOn q (3 * p.cls.toNat) p p r, [])
      else (s.sendOn q (if det then detourVc p else datelineVc a p) (s.crossed a (s.portDir q) p) p r, [])
  | .down mask =>
    match s.anyPort v mask p with
    | none => (s.count Key.noRouteDrops 1, [])
    | some q => (s.sendOn q (3 * p.cls.toNat) { p with dateline := p.dateline ||| 1 } p r, [])

/-! ## Multicast arcs (R395) -/

/-- Hops left on the plus or minus arc of a multicast axis for a package at this coordinate. -/
def State.arcLeft (s : State) (m d src : Nat) : Nat :=
  let n := s.axisSize m
  let o := coord s.node m
  if s.wraps m then
    (if d = 0 then n / 2 - (o + n - src) % n else (n - n / 2 - 1) - (src + n - o) % n)
  else if d = 0 then n - 1 - o else o

/-- The direction of the arc that holds this package. -/
def State.arcDir (s : State) (m src : Nat) : Nat :=
  let n := s.axisSize m
  let o := coord s.node m
  if s.wraps m then (if (o + n - src) % n ≤ n / 2 then 0 else 1) else (if src < o then 0 else 1)

/-- Routes of a multicast packet at this package, each for a copy (R395): to the multicast axis; then both arcs and the copy
for this coordinate; on an arc, onward and the copy for this coordinate; then the remaining axes. -/
def State.mcastRoutes (s : State) (v m : Nat) (p : Packet) : List Route :=
  let before := axes.filter (· < m)
  let after := axes.filter (m < ·)
  let src := p.srcNode.toNat
  let onward := fun d => if s.arcLeft m d (coord src m) = 0 then [] else [Route.along m d (s.arcLeft m d (coord src m))]
  if before.any (fun a => coord p.destNode.toNat a != coord s.node a) then [s.tableRoute v before p]
  else if after.all (fun a => coord src a == coord s.node a) then
    (if coord src m = coord s.node m then onward 0 ++ onward 1 else onward (s.arcDir m (coord src m)))
      ++ [s.tableRoute v after p]
  else [s.tableRoute v after p]

/-- The routes of a packet that is not on a detour. -/
def State.routes (s : State) (v : Nat) (p : Packet) : List Route :=
  if s.upDown then [s.upDownRoute v p]
  else match (if p.mcast then mcastAxis p.destNode.toNat else none) with
    | some m => s.mcastRoutes v m p
    | none => [s.tableRoute v axes p]

/-- A packet leaves by its routes; the completions that fenced ports cause are routed in their turn. The first argument
bounds how often a completion can cause another. A leaf that a multicast packet reaches with no hop left sends nothing on (R375). -/
def State.forward : Nat → State → Packet → State
  | 0, s, _ => s
  | k + 1, s, p =>
    let v := b2n p.epoch
    if p.detour ≠ 0 then s.hopDetour v p
    else
      let r := (s.routes v p).foldl (fun (a : State × List Packet) r =>
        let b := if p.hopsLeft = 0 ∧ r ≠ .deliver then (a.1.count Key.hopLimitDrops 1, []) else a.1.take v r p
        (b.1, a.2 ++ b.2)) (s, [])
      r.2.foldl (fun s c => State.forward k s c) r.1

/-- A packet that waits tries its port again. Where the port has become unusable the packet is routed anew, as it was before this
hop (R392, R394); of a multicast packet only the copy that waits, by the route of that copy (R395). -/
def State.retryPort (s : State) (w : Nat × Nat × Packet × Packet × Route) : State :=
  let was := w.2.2.2.1
  if s.usable (b2n w.2.2.1.epoch) w.1 then s.tryPort w
  else if was.mcast ∧ was.detour = 0 ∧ s.upDown = false then
    let r := s.take (b2n was.epoch) w.2.2.2.2 was
    r.2.foldl (fun s c => s.forward 1 c) r.1
  else s.forward 2 was

/-- Every link sends what it can, and every waiting packet tries its port again, in order. -/
def State.pump (s : State) : State :=
  let s1 := (List.range 32).foldl (fun s l => if (s.link l).txq.isEmpty then s else s.pumpLink l) s
  s1.waiting.foldl State.retryPort { s1 with waiting := [] }

/-- A packet formed by this package goes out: to its own endpoint, or into the fabric with the ACTIVE version and the hop
limit (R375, R389). -/
def State.launchPacket (s : State) (p : Packet) : State :=
  if p.destNode.toNat = s.node then s.emit (.packet none 0 (sealed p))
  else
    s.forward 2 (sealed { p with epoch := s.activeVersion == 1, hopsLeft := BitVec.ofNat 8 (s.get Key.hopLimit) })

/-- The core of this package that sends a packet while it runs in lockstep (R511). -/
def State.lockSender (s : State) (p : Packet) : Option Nat :=
  if s.redundant ∧ s.get Key.redundancyEnable = 1 ∧ p.srcNode.toNat = s.node ∧ p.srcEp.toNat < 0x1800 then s.physOf p.srcEp.toNat else none

/-- The CRC-64 of a packet's header without its route state, and payload (R511). -/
def packetSum (p : Packet) : Nat := crc64 0 (leBytes 32 (headLow p) ++ p.payload)

/-- The CRC-64 of the packet that the lockstep copy forms in its place: the same, or where the copy has strayed a free one (R511). -/
def State.copySum (s : State) (q : Nat) (p : Packet) : Nat :=
  if (s.core q).crc.own = (s.core q).crc.copy then packetSum p else s.free % 2 ^ 64

/-- A packet formed by this package is sent. One of a core in lockstep is compared with its copy's first: where they differ it is not sent, and
the core stops issuing (R511, R512). -/
def State.sendPacket (s : State) (p : Packet) : State :=
  match s.lockSender p with
  | none => s.launchPacket p
  | some q =>
    if (s.core q).crc.differs then s
    else if packetSum p = s.copySum q p then s.tick.launchPacket p
    else s.tick.updCore q (fun c => { c with crc := { c.crc with differs := true } })

/-- A packet of another package that has arrived on a port is checked and routed (R375, R386, R389, R394). -/
def State.transit (s : State) (q : Port) (p : Packet) : State :=
  let v := b2n p.epoch
  if s.fenced v q.val then s.count (Key.fencedDrops q.val) 1
  else if s.tableState v = 0 then s.count Key.staleEpochDrops 1
  else if p.hopsLeft = 0 ∧ (s.isOwn p.destNode.toNat = false ∨ p.detour ≠ 0) then s.count Key.hopLimitDrops 1
  else s.forward 2 p

/-- The source's own router finds no route for a packet (R384). -/
def State.noRoute (s : State) (p : Packet) : Bool :=
  if p.destNode.toNat = s.node then false
  else
    let v := s.activeVersion
    (!s.upDown && axes.any (fun a => coord p.destNode.toNat a != 0xFF && decide (s.axisSize a ≤ coord p.destNode.toNat a)))
      || (s.routes v p).all (fun r => match r with
          | .none => true
          | .ports mask _ => (s.anyPort v mask p).isNone
          | _ => false)

/-- A packet that came on a port has been taken from among those received: it is delivered, goes on or ends here. -/
def State.takeIn (s : State) (via : Option Port) (p : Packet) : State :=
  match via with
  | none => s
  | some q => { s with inbound := s.inbound.erase (q.val, p) }

/-- The packets in this package that are not delivered yet: received on a port, held for a core that is being swapped (R508), parked
streams (R416), and those that wait for a port. -/
def State.packetsHeld (s : State) : List Packet :=
  s.inbound.map Prod.snd ++ s.swaps.flatMap (·.waiting) ++ s.streams.flatMap (·.waiting) ++ s.waiting.map (·.2.2.1)

/-- EPOCH_RESIDENT of a version: the packets that select it and are not delivered, lie unframed or lie in a frame not yet
acknowledged (R390). -/
def State.resident (s : State) (v : Nat) : Nat :=
  (s.packetsHeld.filter (fun p => b2n p.epoch == v)).length
    + (s.links.map (fun l => (l.2.txq.filter (fun e => e.2.1 == v)).length
        + ((l.2.replay.map (fun f => (f.2.filter (· == v)).length)).foldl (· + ·) 0))).foldl (· + ·) 0

/-- Credits owed for a virtual channel: they join those that wait to be returned, which go in turn (R341). -/
def oweMore (v n : Nat) (owed : List (Nat × Nat)) : List (Nat × Nat) :=
  if owed.any (fun o => o.1 == v) then owed.map (fun o => if o.1 = v then (v, o.2 + n) else o) else owed ++ [(v, n)]

/-- The exchange and the agreement of a bucket. -/
def isBucket (op : Nat) : Bool := op == 0x23 || op == 0x24

/-- A packet of a collective, bucket exchange or agreement. -/
def isCollPacket (p : Packet) : Bool := isBucket p.op.toNat || (decide (0x30 ≤ p.op.toNat) && decide (p.op.toNat ≤ 0x35))

/-- The virtual channels of the collective class (R370). -/
def collVc (v : Nat) : Bool := v / 3 == 2

/-- The buffer space of a collective packet that came on a link frees: it has been taken, sent on or discarded (R341, R416). -/
def State.freeSpace (s : State) (p : Packet) : State :=
  match s.links.find? (fun l => l.2.parked.any (·.2 == p)) with
  | none => s
  | some (l, x) =>
    match x.parked.find? (·.2 == p) with
    | none => s
    | some e => s.setLink l { x with parked := x.parked.erase e, owed := oweMore e.1 (packetBytes p).length x.owed }

/-! ## The commands -/

/-- PACKET_FORWARD (R375, R386, R389, R394): a transit packet that has arrived on a port is checked and routed. -/
def execPacketForward (via : Option Port) (packet : Packet) (s : State) : Host.Outcome State Fault Refusal :=
  match via with
  | none => .next (s.whileUp (·.sendPacket packet))
  | some q => .next (s.whileUp fun s => ((s.takeIn via packet).freeSpace packet).transit q packet)

/-- DETOUR_STALL_EXPIRY (R393): the packet named among those waiting, on a detour channel, is discarded. -/
def execDetourStallExpiry (index : Nat) (s : State) : Host.Outcome State Fault Refusal :=
  match s.waiting[index]? with
  | none => .next s
  | some w =>
    if w.2.1 % 3 = 2 then
      .next (s.whileUp fun s => { s with waiting := s.waiting.eraseIdx index }.count Key.detourStallDrops 1)
    else .next s

end Sys2Proof.Machine
end

