-- ==== Sys2Proof/Machine/Msg.lean ====
section
/-!
DEFINITION. Messages at their source (R72–R82, R367–R368, R377, R382–R384): forming and sending them, the descriptors they
belong to, and the completion record.
-/
namespace Sys2Proof.Machine

/-! ## Descriptor fields (R73) -/

/-- LOCAL_ADDR. -/
def mLocal (d : Nat) : Nat := fld d 128 21
/-- LENGTH. -/
def mLen (d : Nat) : Nat := fld d 160 22
/-- CLASS. -/
def mClass (d : Nat) : Nat := fld d 182 2
/-- CHANNEL. -/
def mChan (d : Nat) : Nat := fld d 184 4
/-- STATUS_EN. A Bushel or expert descriptor has no such field (R226, R251). -/
def mStatusEn (d : Nat) : Bool := bit d 189 && (decide (dOp d < 0x10) || (decide (0x20 ≤ dOp d) && decide (dOp d < 0x40)))
/-- NOTIFY. -/
def mNotify (d : Nat) : Bool := bit d 190
/-- NOTIFY_CTR. -/
def mNotifyCtr (d : Nat) : Nat := fld d 192 8
/-- NOTIFY_INC. -/
def mNotifyInc (d : Nat) : Nat := fld d 200 8
/-- TARGET_ENDPOINT. -/
def mEp (d : Nat) : Nat := fld d 208 16
/-- TARGET_OFFSET. -/
def mOffset (d : Nat) : Nat := fld d 256 40
/-- STATUS_ADDR. -/
def mStatusAddr (d : Nat) : Nat := fld d 320 21
/-- SECOND_ENDPOINT. -/
def mEp2 (d : Nat) : Nat := fld d 384 16
/-- SECOND_OFFSET. -/
def mOffset2 (d : Nat) : Nat := fld d 400 40

/-- The target node: the own node with TARGET_LOCAL = 1. -/
def State.mNode (s : State) (d : Nat) : Nat := if bit d 149 then s.node else fld d 224 32

/-- The target is on this package. -/
def State.mOwn (s : State) (d : Nat) : Bool := bit d 149 || fld d 224 32 == s.node

/-- Endpoint kinds (R70). -/
def epMem (ep : Nat) : Bool := decide (0x2000 ≤ ep) && decide (ep < 0x2018)
def epTroy (ep : Nat) : Bool := decide (0x2100 ≤ ep) && decide (ep < 0x2118)
def epCore (ep : Nat) : Bool := decide (ep < 0x1800)

/-- A range lies in the memory of an endpoint of this package: a scratchpad, or a stack for a read or a write (R66, R73,
R317). -/
def State.endpointRange (s : State) (ep off len : Nat) (write : Bool) : Bool :=
  if epCore ep then spRange off len
  else if write then (s.stack (ep - 0x2000)).writable (devOffset off) len
  else (s.stack (ep - 0x2000)).readable (devOffset off) len

/-- STATUS_ADDR is a multiple of 32 and its record lies in the scratchpad (R73, cause 0x03). -/
def statusCause (d : Nat) : Option Nat :=
  if mStatusEn d && (mStatusAddr d % 32 != 0 || !spRange (mStatusAddr d) 32) then some 3 else none

/-- An operation uses a notify (R74). -/
def usesNotify (d op : Nat) : Bool := op == 5 || ((op == 1 || op == 4) && mNotify d)

/-- An endpoint of this package accepts the operation (R71, R77, R293). -/
def State.accepts (s : State) (d op ep : Nat) : Bool :=
  if epCore ep then (s.physOf ep).isSome
  else if s.settingFenced (ep % 256) then false
  else if epMem ep then (op == 1 || op == 2 || op == 4) && !usesNotify d op
  else epTroy ep && op == 1 && !mNotify d

/-- Why a general operation is refused when it starts (R61, R73, R74, R365): the reserved values before the invalid
endpoints, and these before the addresses. R73 calls a SEND, GET or COPY with a multicast TARGET_NODE invalid and names no cause:
DESIGN CHOICE, cause 0x02 (log entry 55). -/
def State.generalCause (s : State) (d op : Nat) : Option Nat :=
  let node := s.mNode d
  let reserved := decide (2 ≤ mClass d) || (op != 5 && (mLen d == 0 || decide (2097152 < mLen d)))
    || (usesNotify d op && mNotifyInc d == 0) || (!bit d 149 && s.nodeReserved node)
    || (op == 4 && !bit d 150) || ((op == 2 || op == 3 || op == 4) && (mcastAxis node).isSome && !s.upDown)
  let badEnd := (s.mOwn d && !s.accepts d op (mEp d))
    || (op == 4 && !((epMem (mEp2 d) && !s.settingFenced (mEp2 d - 0x2000)) || (epCore (mEp2 d) && (s.physOf (mEp2 d)).isSome)))
  let badRange := ((op == 1 || op == 2 || op == 3) && !spRange (mLocal d) (mLen d))
    || ((op == 1 || op == 2 || op == 4) && epMem (mEp d) && devSetting (mOffset d) != mEp d - 0x2000)
    || ((op == 1 || op == 2 || op == 4) && s.mOwn d && !epTroy (mEp d)
        && !s.endpointRange (mEp d) (mOffset d) (mLen d) (op != 2))
    || (op == 4 && epMem (mEp2 d) && devSetting (mOffset2 d) != mEp2 d - 0x2000)
    || (op == 4 && !s.endpointRange (mEp2 d) (mOffset2 d) (mLen d) false)
  if reserved then some 2 else if badEnd then some 4 else if badRange then some 3 else statusCause d

/-! ## Descriptors started by a message engine -/

/-- A descriptor becomes a started one. Its start number is the core's `nextOp` before. -/
def State.addOp (s : State) (p d : Nat) (kind : MseKind) (todo : List Todo) (fin : Bool) : State :=
  s.updCore p (fun c => { c with
    ops := c.ops ++ [{ no := c.nextOp, desc := d, kind := kind, todo := todo, msgs := [], status := 0, msgId := 0,
                       leaves := 0, excluded := 0, fin := fin }],
    nextOp := c.nextOp + 1 })

/-- A started descriptor by its start number. -/
def Core.op (c : Core) (no : Nat) : Option MseOp := c.ops.find? (fun o => o.no == no)

/-- A started descriptor changed. -/
def State.updOp (s : State) (p no : Nat) (f : MseOp → MseOp) : State :=
  s.updCore p (fun c => { c with ops := c.ops.map (fun o => if o.no = no then f o else o) })

/-- The completion record (R81). -/
def completionRecord (status opcode tag msgId leaves excluded time : Nat) : List Byte :=
  leBytes 32 (status % 256 + opcode % 256 * 2 ^ 8 + tag % 2 ^ 16 * 2 ^ 16 + msgId % 2 ^ 24 * 2 ^ 32
    + leaves % 2 ^ 32 * 2 ^ 64 + excluded % 2 ^ 64 * 2 ^ 128 + time % 2 ^ 64 * 2 ^ 192)

/-- A descriptor completes: record, DONE_CTR, DESC_DONE (R75, R81). MSG_ID of a descriptor that no one fabric message carries, a lane or bucket
operation or a collective, is 0: DESIGN CHOICE (log entry 25). -/
def State.finishOp (s : State) (p : Nat) (o : MseOp) : State :=
  let s1 := s.updCore p (fun c => { c with ops := c.ops.filter (fun x => x.no != o.no) })
  let s2 := if mStatusEn o.desc then
      s1.spWrite p (mStatusAddr o.desc)
        (completionRecord o.status (dOp o.desc) (dTag o.desc) o.msgId o.leaves o.excluded s.ftime)
    else s1
  s2.descDone p 2 o.desc

/-! ## Sending (R367, R368, R377, R382) -/

/-- A GET or GATHER. -/
def isRead (h : Packet) : Bool := h.op == 2 || h.op == 0x20

/-- The header of a message of a core's descriptor to a target. -/
def State.msgHead (s : State) (lc op node ep off cls chan : Nat) (fields : Nat) : Packet :=
  { Packet.blank with
    destNode := BitVec.ofNat 32 node, destEp := BitVec.ofNat 16 ep, srcEp := BitVec.ofNat 16 lc,
    srcNode := BitVec.ofNat 32 s.node, op := BitVec.ofNat 8 op, offset := BitVec.ofNat 40 off,
    cls := BitVec.ofNat 2 cls, channel := BitVec.ofNat 4 chan,
    mcast := (mcastAxis node).isSome && !s.upDown, jobTag := BitVec.ofNat 8 (s.get Key.jobTag),
    fields := BitVec.ofNat 512 fields }

/-- The number of outstanding messages (R383). -/
def State.outstanding (s : State) : Nat := s.msgs.length

/-- Two headers are of one flow (R373). -/
def sameFlow (a b : Packet) : Bool := flowOf a == flowOf b

/-- PREV_VALID and PREV_ID as OPERAND bits of an ordered message other than a read: the latest earlier such message of its
flow that has not completed (R377). -/
def State.prevOf (s : State) (m : OutMsg) : Nat :=
  if m.item.head.cls ≠ 0 ∨ isRead m.item.head then 0
  else
    let before := s.msgs.filter (fun x => decide (x.2.no < m.no) && x.2.item.head.cls == 0 && !isRead x.2.item.head
      && sameFlow x.2.item.head m.item.head)
    match before.foldl (fun (a : Option (Nat × Nat)) x =>
        match a with
        | some b => if b.2 < x.2.no then some (x.1, x.2.no) else a
        | none => some (x.1, x.2.no)) none with
    | some b => b.1 + 2 ^ 24
    | none => 0

/-- The packets of a message (R368, R379, R381): 1,024 payload bytes each; a request without a payload is one packet of 32
zero bytes. -/
def msgPackets (t : Todo) (id prev : Nat) : List Packet :=
  let bs := if t.payload.isEmpty then List.replicate 32 0 else t.payload
  let n := ceilDiv bs.length 1024
  (List.range n).map (fun j =>
    let part := (bs.drop (1024 * j)).take 1024
    { t.head with
      msgId := BitVec.ofNat 24 id, offset := t.head.offset + BitVec.ofNat 40 (1024 * j),
      length := BitVec.ofNat 11 part.length, last := j + 1 == n, ackReq := j + 1 == n,
      fence := j + 1 == n && t.head.cls == 1 && (t.head.op == 1 || t.head.op == 4), operand := BitVec.ofNat 32 prev,
      payload := part })

/-- Every packet of an outstanding message is sent, or sent again (R382). -/
def State.sendMsg (s : State) (id : Nat) (m : OutMsg) : State :=
  (msgPackets m.item id (s.prevOf m)).foldl State.sendPacket s

/-- An ID that is neither outstanding nor within DUP_HOLD of its last use (R383). -/
def State.idFree (s : State) (i : Nat) : Bool :=
  (look i s.msgs).isNone
    && !s.retired.any (fun r => r.1 == i && decide (s.ftime - r.2 < 1000 * s.get Key.dupHold))

/-- The next message ID (R383). -/
def State.nextId (s : State) : Option Nat :=
  ((List.range (s.msgs.length + s.retired.length + 1)).map (fun k => (s.nextMsg + k) % 2 ^ 24)).find? s.idFree

/-- A message has completed or been abandoned: its ID rests for DUP_HOLD (R383). -/
def State.closeMsg (s : State) (id : Nat) : State :=
  { s with msgs := drop' id s.msgs,
           retired := (id, s.ftime) :: s.retired.filter (fun r => decide (s.ftime - r.2 < 1000 * s.get Key.dupHold)) }

/-! ## Results -/

/-- The status of a message enters its descriptor: the first one other than OK stays; with one message the record takes its
ID, leaves and exclusions. Where a descriptor has had several messages the ID in its record is a free value (log entry 2). -/
def State.opResult (s : State) (p no id status leaves excluded : Nat) : State :=
  let s1 := s.updOp p no (fun o =>
    let single := match o.kind with
      | .dispatch _ => false
      | _ => dOp o.desc != 0x41
    { o with msgs := o.msgs.filter (fun m => m.1 != id), status := if o.status = 0 then status else o.status,
             msgId := if single then id else s.free % 2 ^ 24, leaves := if single then leaves else o.leaves,
             excluded := if single then excluded else o.excluded })
  s1.tick

/-- A failed read leaves the local range undefined (R81, R380). -/
def State.undefLocal (s : State) (p no : Nat) (t : Todo) (status : Nat) : State :=
  match t.dst with
  | some a =>
    if status = 0 ∨ !isRead t.head then s
    else if a < 2 ^ 21 then (s.spWrite p a (s.freeBytes t.length)).tick
    else
      (s.hbmWrite (devSetting a) (s.coreWho t.head.srcEp.toNat no) (devOffset a) (s.freeBytes t.length)).tick
  | none => s

/-- The writer of a message (R320): its source, and in this package the descriptor of the core that sent it. -/
def State.packetWho (s : State) (p : Packet) : Nat :=
  match (if p.srcNode.toNat = s.node then look p.msgId.toNat s.msgs else none) with
  | some m => if epCore p.srcEp.toNat then s.coreWho p.srcEp.toNat m.opNo else 65536 * p.srcNode.toNat + p.srcEp.toNat
  | none => 65536 * p.srcNode.toNat + p.srcEp.toNat

/-- The bytes of a failed or refused message's range that lie inside the target become undefined (R79), as its writer `who` has left them. -/
def State.undefTarget (s : State) (who ep off len : Nat) : State :=
  if epCore ep then
    match s.physOf ep with
    | none => s
    | some q => (s.spWrite q off (s.freeBytes (min len (0x200000 - off)))).tick
  else if epMem ep then
    let o := devOffset off
    let n := min len ((s.stack (ep - 0x2000)).usableTop - o)
    if devSetting off = ep - 0x2000 then (s.hbmWrite (ep - 0x2000) who o (s.freeBytes n)).tick else s
  else s

/-- What a failed message of this package leaves undefined on this package (R81, R82, R380, R382): the target range of a PUT or
COPY, also at the own leaf of a multicast one, and the claimed slot of a SEND. R79 and R86 say what a refused one leaves. -/
def State.undefFailed (s : State) (id : Nat) (t : Todo) (status : Nat) : State :=
  let who := s.packetWho { t.head with msgId := BitVec.ofNat 24 id }
  if !s.isOwn t.head.destNode.toNat || status ∈ [0, 1, 2, 7, 8] then s
  else if t.head.op = 1 ∨ t.head.op = 4 then s.undefTarget who t.head.destEp.toNat t.head.offset.toNat t.length
  else if t.head.op = 3 then
    match s.reorders.find? (fun c => c.srcNode == s.node && c.msgId == id) with
    | some c =>
      match c.slot with
      | some a => s.undefTarget who c.destEp a (16 + t.length)
      | none => s
    | none => s
  else s

/-- The rows, records, counts and staging in this package of an expert exchange that has not ended with OK are undefined (R257). -/
def State.spoilExchange (s : State) (p : Nat) (o : MseOp) : State :=
  if o.status = 0 ∧ o.kind ≠ .stuck then s
  else o.zones.foldl (fun s z => s.undefTarget (s.coreWho ((s.logicalOf p).getD 0) o.no) z.1 z.2.1 z.2.2) s

/-- The ranges of this package that the PUTs of some messages write. -/
def State.ownZones (s : State) (ts : List Todo) : List (Nat × Nat × Nat) :=
  (ts.filter (fun t => t.head.destNode.toNat == s.node && t.head.op == 1)).map (fun t => (t.head.destEp.toNat, t.head.offset.toNat, t.length))

/-- A descriptor whose messages have all completed completes (R75); one whose source read was uncorrectable then stops the
engine (R80). -/
def State.settle (s : State) (p no : Nat) : State :=
  match (s.core p).op no with
  | none => s
  | some o =>
    if !o.todo.isEmpty || !o.msgs.isEmpty then s
    else
      let stop := fun (x : State) => if o.status = 0x0C then x.stopEngine p 2 5 o.desc else x
      match o.kind with
      | .plain => if o.fin then s else stop ((s.spoilExchange p o).finishOp p o)
      | .credit => s.finishOp p o
      | .dispatch sent =>
        (((s.spoilExchange p o).spWrite p (fld o.desc 368 21) (leBytes 4 o.leaves)).spWrite p (fld o.desc 368 21 + 4)
          (sent.map (fun b => BitVec.ofNat 8 b))).finishOp p o
      | .stuck => (s.spoilExchange p o).updOp p no (fun o => { o with zones := [] })
      | _ => s

/-! ## Requests of an operation to a controller of this package (R480) -/

/-- An operation that its engine carries out on a stack of this package itself, and not by a message (R225, R263, R405). -/
def isLocal (h : Packet) : Bool := !([1, 2, 3, 4, 5, 0x20].contains h.op.toNat)

/-- A request reaches an endpoint of this package that accepts nothing: it is dropped without a completion and is outstanding, to
be sent again under R382 (R333, R480). The operation waits for it, and for room among the outstanding messages (R91, R383). -/
def State.localMsg (s : State) (p no ep : Nat) : State :=
  match (s.core p).op no, s.nextId with
  | some o, some id =>
    if !o.msgs.isEmpty || decide (65536 ≤ s.outstanding) then s
    else
      let item : Todo := { group := 0, after := [], length := 0, payload := [], source := none, dst := none,
                           head := s.msgHead ((s.logicalOf p).getD 0) (dOp o.desc) s.node ep 0 1 0 0 }
      let m : OutMsg := { owner := p, opNo := no, item := item, no := s.msgNo, landed := [], retries := 0, held := false,
                          answered := [], excluded := [] }
      { s with msgs := put id m s.msgs, nextMsg := (id + 1) % 2 ^ 24, msgNo := s.msgNo + 1 }.updOp p no (fun o => { o with msgs := [(id, 0)] })
  | _, _ => s

/-! ## Starting messages -/

/-- The credit entry of a channel (R87). -/
def Core.credit (c : Core) (chan : Nat) : Option Credit := look chan c.credits

/-- A credited SEND may go: its channel's entry names its target and holds a credit (R87). -/
def Core.creditFor (c : Core) (h : Packet) : Option Credit :=
  match c.credit h.channel.toNat with
  | some x => if x.node = h.destNode.toNat ∧ x.ep = h.destEp.toNat then some x else none
  | none => none

/-- A message still to be started may start now (R78, R252, R377, R383): the groups before it have completed, there is room, and
of its flow no earlier ordered message still waits, every earlier ordered read has completed before another message and every
other earlier ordered message before a read (the last so that R78 holds of a read after a write; log entry 55). -/
def State.canStart (s : State) (p no : Nat) (t : Todo) : Bool :=
  let c := s.core p
  let earlier := (c.ops.filter (fun o => decide (o.no ≤ no))).flatMap (·.todo)
  let own := match c.op no with
    | some o => o.msgs.any (fun m => t.after.contains m.2) || o.todo.any (fun x => t.after.contains x.group)
    | none => true
  let othersOut := s.msgs.any (fun m => m.2.owner == p && decide (m.2.opNo < no) && m.2.item.head.cls == 0
    && isRead m.2.item.head != isRead t.head && sameFlow m.2.item.head t.head)
  decide (s.outstanding < 65536) && !own
    && (t.head.cls != 0 || (!othersOut && !earlier.any (fun x => x.head.cls == 0 && sameFlow x.head t.head)))

/-- The payload of a message whose source is still to be read (R480): none while its unit is under reset; `some none` where
the read is uncorrectable. -/
def State.readSource (s : State) (t : Todo) : State × Option (Option (List Byte)) :=
  match t.source with
  | none => (s, some (some t.payload))
  | some (ep, off) =>
    if epCore ep then
      match s.physOf ep with
      | none => (s, none)
      | some q => if s.coreHeld q then (s, none) else (s, some (some ((s.core q).sp.readN off t.length)))
    else if s.controllerOpen (ep - 0x2000) then
      let r := s.hbmRead (ep - 0x2000) (devOffset off) t.length
      (r.1, some r.2)
    else (s, none)

/-- An outstanding message is transmitted once its payload is there. -/
def State.transmit (s : State) (id : Nat) (m : OutMsg) : State × Bool :=
  let r := s.readSource m.item
  match r.2 with
  | none => ({ r.1 with msgs := put id m r.1.msgs }, false)
  | some none => ({ r.1 with msgs := put id m r.1.msgs }, true)
  | some (some bs) =>
    let m' := { m with item := { m.item with payload := bs, source := none } }
    (({ r.1 with msgs := put id m' r.1.msgs }).sendMsg id m', false)

/-- A message starts, or waits for an ID (R383): with no route it completes with UNREACHABLE and never enters the fabric (R384); otherwise it takes an ID
and is sent. A COPY whose source read is uncorrectable before any packet has left completes with the ID that it took in its record: DESIGN CHOICE
(log entry 25). -/
def State.startItem (s : State) (p no : Nat) (t : Todo) : State :=
  if s.noRoute t.head then
    ((s.count Key.msgUnreachable 1).opResult p no 0 7 0 0).undefLocal p no t 7
  else
    match s.nextId with
    | none => s.updOp p no (fun o => { o with todo := o.todo ++ [t] })
    | some id =>
      let m : OutMsg := { owner := p, opNo := no, item := t, no := s.msgNo, landed := [], retries := 0, held := false,
                          answered := [], excluded := [] }
      let s1 := { s with nextMsg := (id + 1) % 2 ^ 24, msgNo := s.msgNo + 1 }
      let r := (s1.updOp p no (fun o => { o with msgs := o.msgs ++ [(id, t.group)] })).transmit id m
      if r.2 then ((r.1.undefFailed id t 0x0C).closeMsg id).opResult p no id 0x0C 0 0 else r.1

/-- One message of a descriptor starts if it can, or stays. A credited SEND needs a credit, which sending it consumes; one longer
than the entry's payload completes with TOO_LONG and uses none (R87). Its record then has MSG_ID 0: the spec names no value for a
message that was never sent, and this is the model's choice (log entry 25). -/
def State.tryItem (s : State) (p no : Nat) (t : Todo) : State :=
  let keep := s.updOp p no (fun o => { o with todo := o.todo ++ [t] })
  if !s.canStart p no t then keep
  else if ((s.core p).op no).any (fun o => o.kind == .credit) then
    match (s.core p).creditFor t.head with
    | none => keep
    | some x =>
      if x.payload < t.length then s.opResult p no 0 5 0 0
      else if x.credits = 0 then keep
      else if s.noRoute t.head || s.nextId.isNone then s.startItem p no t
      else
        (s.updCore p (fun c => { c with credits := put t.head.channel.toNat { x with credits := x.credits - 1 } c.credits })).startItem
          p no t
  else s.startItem p no t

/-- A descriptor starts what messages it can, and completes if none is left. -/
def State.pumpOp (s : State) (p no : Nat) : State :=
  match (s.core p).op no with
  | none => s
  | some o =>
    if o.todo.isEmpty then s.settle p no
    else ((o.todo.foldl (fun s t => s.tryItem p no t) (s.updOp p no (fun o => { o with todo := [] })))).settle p no

/-- Every descriptor of a core that has messages to start, in start order. -/
def State.pumpCore (s : State) (p : Nat) : State :=
  ((s.core p).ops.map (·.no)).foldl (fun s no => s.pumpOp p no) s

/-- Every core. -/
def State.pumpMsgs (s : State) : State := (s.cores.map Prod.fst).foldl State.pumpCore s

/-! ## The general operations -/

/-- The message engine of a core starts the descriptor at the head of its queue, as `startOp` says; the body is given the
logical core. -/
def startMse (core : CoreId) (s : State) (op : Nat) (body : Nat → Nat → Nat → State → State) :
    Host.Outcome State Fault Refusal :=
  startOp core s 2 op (fun p d s => body core.toNat p d s)

/-- A descriptor of one message starts. Its packets carry the fields of R73; the reserved bits above them are dropped (R11). -/
def State.beginMsg (s : State) (lc p d op : Nat) (kind : MseKind) (payload : List Byte) (len : Nat)
    (source : Option (Nat × Nat)) (dst : Option Nat) : State :=
  let off := if op = 3 then 0 else mOffset d
  let t : Todo := { group := 0, after := [], head := s.msgHead lc op (s.mNode d) (mEp d) off (mClass d) (mChan d) (d % 2 ^ 440),
                    length := len, payload := payload, source := source, dst := dst }
  let no := (s.core p).nextOp
  (s.addOp p d kind [t] false).pumpOp p no

/-- PUT (R74–R79). -/
def execMsePut (core : CoreId) (s : State) : Host.Outcome State Fault Refusal :=
  startMse core s 1 fun lc p d s =>
    match s.generalCause d 1 with
    | some k => s.engineStop p 2 k d
    | none => s.beginMsg lc p d 1 .plain ((s.core p).sp.readN (mLocal d) (mLen d)) (mLen d) none none

/-- GET (R74–R80). -/
def execMseGet (core : CoreId) (s : State) : Host.Outcome State Fault Refusal :=
  startMse core s 2 fun lc p d s =>
    match s.generalCause d 2 with
    | some k => s.engineStop p 2 k d
    | none => s.beginMsg lc p d 2 .plain [] (mLen d) none (some (mLocal d))

/-- SEND (R74, R86, R87). -/
def execMseSend (core : CoreId) (s : State) : Host.Outcome State Fault Refusal :=
  startMse core s 3 fun lc p d s =>
    match s.generalCause d 3 with
    | some k => s.engineStop p 2 k d
    | none =>
      s.beginMsg lc p d 3 (if bit d 188 then .credit else .plain) ((s.core p).sp.readN (mLocal d) (mLen d)) (mLen d) none none

/-- COPY (R74–R80). -/
def execMseCopy (core : CoreId) (s : State) : Host.Outcome State Fault Refusal :=
  startMse core s 4 fun lc p d s =>
    match s.generalCause d 4 with
    | some k => s.engineStop p 2 k d
    | none => s.beginMsg lc p d 4 .plain [] (mLen d) (some (mEp2 d, mOffset2 d)) none

/-- SIGNAL (R74–R77). -/
def execMseSignal (core : CoreId) (s : State) : Host.Outcome State Fault Refusal :=
  startMse core s 5 fun lc p d s =>
    match s.generalCause d 5 with
    | some k => s.engineStop p 2 k d
    | none => s.beginMsg lc p d 5 .plain [] 0 none none

/-- NOP (R74, R81): completes at once. -/
def execMseNop (core : CoreId) (s : State) : Host.Outcome State Fault Refusal :=
  startMse core s 0 fun _ p d s =>
    match statusCause d with
    | some k => s.engineStop p 2 k d
    | none =>
      let no := (s.core p).nextOp
      (s.addOp p d .plain [] false).settle p no

/-- FENCE (R74, R320): starts; it completes once every earlier descriptor has. -/
def execMseFence (core : CoreId) (s : State) : Host.Outcome State Fault Refusal :=
  startMse core s 6 fun _ p d s =>
    match statusCause d with
    | some k => s.engineStop p 2 k d
    | none => s.addOp p d (.fence ((s.core p).ops.map (·.no))) [] false

end Sys2Proof.Machine
end

