-- ==== Sys2Proof/Machine/ChpOps.lean ====
section
/-!
DEFINITION. What every command of the host port is written with: CHP packets out (R430, R433, R435), replies (R441), and the
SENDs of the command queues (R444).
-/
namespace Sys2Proof.Machine

/-- The state with the host port changed. -/
def State.updHost (s : State) (f : HostUnit → HostUnit) : State := { s with host := f s.host }

/-- A session of the host port. -/
def State.session (s : State) (n : Nat) : Option Session := look n s.host.sessions

/-- The state with a session replaced. -/
def State.setSession (s : State) (n : Nat) (x : Session) : State :=
  s.updHost (fun h => { h with sessions := put n x h.sessions })

/-! ## Frames (R427, R428, R430) -/

/-- The MAC address of the port, which the manual does not give: the free content 4 (log entry 2). -/
def portMac : List Byte := (List.range 6).map (Config.freeByte 4)

/-- The identifier of the port's secure channels, one in each direction (R428): its MAC address and port identifier 1. -/
def portSci : Nat := leNat (portMac ++ [0, 1])

/-- The key and salt of a MACsec association. -/
def State.sak (s : State) (an : Nat) : List Byte := (look an s.host.saks).getD []

/-- A key is installed for an association: its packet numbers begin anew, and it is the one sent under (log entry 56). -/
def State.installSak (s : State) (an : Nat) (bs : List Byte) : State :=
  s.updHost (fun h => { h with saks := put an bs h.saks, rxPns := drop' an h.rxPns, txAn := an, txPn := 1 })

/-- The framing of what the port sends: from a UDP port as an IP packet, which carries HOST_DSCP, ECT(0) and DF, or outside IP. -/
def State.frameOut (s : State) (port : Option Nat) (bytes : List Byte) : HostFrame :=
  { vlan := s.get Key.hostVlan, dscp := if port.isSome then s.get Key.hostDscp else 0, ecn := if port.isSome then 2 else 0,
    df := port.isSome, port := port.getD 0,
    sec := if s.flag Key.macsecEnable then
        some (s.host.txAn, portSci, s.host.txPn, Config.macsecIcv (s.sak s.host.txAn) true portSci s.host.txPn bytes)
      else none }

/-- A frame leaves the host port. -/
def State.sendHost (s : State) (port : Option Nat) (bytes : List Byte) (o : HostFrame → Output) : State :=
  let s1 := s.emit (o (s.frameOut port bytes))
  if s.flag Key.macsecEnable then s1.updHost (fun h => { h with txPn := h.txPn + 1 }) else s1

/-- A CHP packet leaves for a peer. -/
def State.sendChp (s : State) (peer : Nat) (bytes : List Byte) : State := s.sendHost (some (s.get Key.chpUdpPort)) bytes (.chp peer bytes)

/-! ## Packets out -/

/-- The 48-byte CHP header with its TAG (R430). -/
def chpHeaderBytes (type session : Nat) (ackValid echo retx : Bool) (len seq ack sack tag : Nat) : List Byte :=
  leBytes 48 (0xC1D4 + 2 ^ 16 + type % 256 * 2 ^ 24 + session % 256 * 2 ^ 32 + b2n ackValid * 2 ^ 40 + b2n echo * 2 ^ 41
    + b2n retx * 2 ^ 42 + len % 2 ^ 16 * 2 ^ 48 + seq % 2 ^ 32 * 2 ^ 64 + ack % 2 ^ 32 * 2 ^ 96 + sack % 2 ^ 64 * 2 ^ 128
    + tag % 2 ^ 128 * 2 ^ 256)

/-- The TAG of a packet: SHAKE256 of the direction's key, the header with TAG zeroed and the payload (R433). -/
def chpTag (key header payload : List Byte) : Nat := leNat (shake256 (key ++ header ++ payload) 16)

/-- A packet of a session leaves: it carries ACK and SACK, and the ECN echo that is due (R430, R433, R435, R437). -/
def State.chpEmit (s : State) (n type seq : Nat) (payload : List Byte) (retx : Bool) : State :=
  match s.session n with
  | none => s
  | some x =>
    let h := fun tag => chpHeaderBytes type n true x.ceSeen retx payload.length seq x.rxAck x.rxSack tag
    let bytes := h (chpTag (x.key.drop 32) (h 0) payload) ++ payload
    (s.setSession n { x with ceSeen := false, ackDue := false }).sendChp x.peer bytes

/-- A sequenced packet is sent, or waits for the window (R435). -/
def State.chpSend (s : State) (n type : Nat) (payload : List Byte) : State :=
  match s.session n with
  | none => s
  | some x =>
    if s.get Key.chpWindow ≤ x.unacked.length ∨ x.waiting ≠ [] then
      s.setSession n { x with waiting := x.waiting ++ [(type, payload)] }
    else
      (s.setSession n { x with txSeq := (x.txSeq + 1) % 2 ^ 32, sentAt := put x.txSeq s.ftime x.sentAt,
                               unacked := x.unacked ++ [(x.txSeq, type, payload, 1, false)] }).chpEmit n type x.txSeq payload false

/-- Packets that the window held back are sent while it has room. -/
def State.chpFlow (s : State) (n : Nat) : State :=
  match s.session n with
  | none => s
  | some x => x.waiting.foldl (fun s w => s.chpSend n w.1 w.2) (s.setSession n { x with waiting := [] })

/-- The payload of a packet sent again: READ data is read from HBM again (R435), undefined where that fails; nothing while the
controller accepts no request. -/
def State.reread (s : State) (x : Session) (type : Nat) (payload : List Byte) : State × Option (List Byte) :=
  let sub := leNat (payload.take 16)
  match (if type = 0x12 then look (fld sub 0 32) x.reads else none) with
  | none => (s, some payload)
  | some a =>
    let n := devSetting a
    if s.controllerOpen n then
      let r := s.hbmRead n (devOffset a + fld sub 64 64) (payload.length - 16)
      (r.1.tick, some (payload.take 16 ++ r.2.getD (r.1.freeBytes (payload.length - 16))))
    else (s, none)

/-- A packet sent again (R435). -/
def State.chpResend (s : State) (n seq : Nat) : State :=
  match s.session n with
  | none => s
  | some x =>
    match x.unacked.find? (fun u => u.1 == seq) with
    | none => s
    | some u =>
      let r := s.reread x u.2.1 u.2.2.1
      match r.2 with
      | none => s
      | some payload =>
        ((r.1.setSession n { x with sentAt := put seq s.ftime x.sentAt, unacked := x.unacked.map (fun v =>
            if v.1 = seq then (v.1, v.2.1, v.2.2.1, v.2.2.2.1 + 1, v.2.2.2.2) else v) }).count Key.chpRetransmits 1).chpEmit
          n u.2.1 seq payload true

/-! ## Replies (R441, R450) -/

/-- The reply record (R441). -/
def replyRecord (reqId op status d0 d1 time : Nat) : List Byte :=
  leBytes 32 (reqId % 2 ^ 32 + op % 256 * 2 ^ 32 + status % 256 * 2 ^ 40 + d0 % 2 ^ 64 * 2 ^ 64 + d1 % 2 ^ 64 * 2 ^ 128
    + time % 2 ^ 64 * 2 ^ 192)

/-- A request is replied to. The reply to a replayed request (sessions 256 to 511) is discarded and
counted (R450), that of a lost session (512) discarded (R446). -/
def State.chpReply (s : State) (n reqId op status d0 d1 : Nat) : State :=
  let s1 := if status = 0 then s else s.count Key.chpReqFailed 1
  if 512 ≤ n then s1
  else if 256 ≤ n then s1.count Key.replayRepliesDropped 1
  else s1.chpSend n 0x11 (replyRecord reqId op status d0 d1 s.ftime)

/-! ## Command queues (R444) -/

/-- The owner number of the messages of a command queue. -/
def hostOwner (q : Nat) : Nat := 65536 + q

/-- The SEND of a push has ended: the reply (R444). `opNo` is 2^32·session + REQ_ID. -/
def State.hostSendEnd (s : State) (opNo status : Nat) : State :=
  s.chpReply (opNo / 2 ^ 32) (opNo % 2 ^ 32) 7 (if status = 0 then 0 else 8) status 0

/-- The descriptor fields that the SEND of a push carries (R73). -/
def pushFields (len chan core node : Nat) (credited : Bool) : Nat :=
  2 ^ 149 + len * 2 ^ 160 + chan * 2 ^ 184 + b2n credited * 2 ^ 188 + core * 2 ^ 208 + node * 2 ^ 224

/-- The first push of a command queue is sent if it may be: one message at a time in order, a credited queue's with a credit
(R87, R444), and it waits while no message ID is free (R383). A queue is credited once it holds a credit entry (log entry 15). -/
def State.pumpQueue (s : State) (q : Nat) : State :=
  match look q s.host.cmdqs with
  | none => s
  | some x =>
    match x.pushes with
    | [] => s
    | (n, reqId, bs) :: rest =>
      let s1 := s.updHost (fun h => { h with cmdqs := put q { x with pushes := rest } h.cmdqs })
      let op := n * 2 ^ 32 + reqId
      let go := fun (t : State) (cred : Bool) =>
        match s.nextId with
        | none => s
        | some id =>
          let item : Todo := { group := 0, after := [], length := bs.length, payload := bs, source := none, dst := none,
                               head := s.msgHead 0x2300 3 s.node x.core 0 0 x.channel (pushFields bs.length x.channel x.core s.node cred) }
          let m : OutMsg := { owner := hostOwner q, opNo := op, item := item, no := s.msgNo, landed := [], retries := 0,
                              held := false, answered := [], excluded := [] }
          ({ t with nextMsg := (id + 1) % 2 ^ 24, msgNo := s.msgNo + 1 }.transmit id m).1
      if 65536 ≤ s.outstanding then s
      else
        match x.credits with
        | none => go s1 false
        | some (c, k, m) =>
          if c ≠ x.core then s
          else if m < bs.length then s1.hostSendEnd op 5
          else if k = 0 then s
          else go (s1.updHost (fun h => { h with cmdqs := put q { x with pushes := rest, credits := some (c, k - 1, m) } h.cmdqs })) true

/-- Every command queue sends what it may: as often as it holds pushes. -/
def State.pumpHost (s : State) : State :=
  s.host.cmdqs.foldl (fun s q => q.2.pushes.foldl (fun s _ => s.pumpQueue q.1) s) s

end Sys2Proof.Machine
end

