-- ==== Sys2Proof/Machine/Bushel.lean ====
section
/-!
DEFINITION. The Bushel (R223–R235), the flush of a FENCE (R320), and the deferral ring (R237–R240).
-/
namespace Sys2Proof.Machine

/-! ## Descriptor fields (R226) and lanes (R224) -/

/-- SLOT. -/
def bSlot (d : Nat) : Nat := fld d 184 6
/-- BUF_LOG2. -/
def bBuf (d : Nat) : Nat := fld d 228 5
/-- LANE_BASE. -/
def bBase (d : Nat) : Nat := fld d 256 40
/-- LANE_LIMIT. -/
def bLimit (d : Nat) : Nat := fld d 320 40
/-- FRAMES. -/
def bFrames (d : Nat) : Nat := fld d 384 16

/-- A lane of a core. -/
def Core.lane (c : Core) (n : Nat) : Lane := (look n c.lanes).getD Lane.fresh

/-- The core with a lane replaced. -/
def Core.setLane (c : Core) (n : Nat) (x : Lane) : Core := { c with lanes := put n x c.lanes }

/-- Frame length (R228). -/
def frameLen (payload : Nat) : Nat := 64 + 64 * ceilDiv payload 64

/-- Why a Bushel operation is refused (R227). -/
def State.bushelCause (s : State) (p d op : Nat) : Option Nat :=
  let closed := !((s.core p).lane (bSlot d)).isOpen
  match op with
  | 0x10 =>
    if bBase d % 64 ≠ 0 ∨ bLimit d % 64 ≠ 0 ∨ bLimit d < 4096 ∨ 2 ^ 35 < bLimit d then some 2
    else if 24 ≤ devSetting (bBase d) ∨ !(s.stack (devSetting (bBase d))).writable (devOffset (bBase d)) (bLimit d) then some 3
    else none
  | 0x11 =>
    if mLen d = 0 ∨ 2097152 < mLen d ∨ closed then some 2
    else if !spRange (mLocal d) (mLen d) then some 3
    else none
  | 0x12 =>
    if bDepth d = 0 ∨ 4 < bDepth d ∨ bBuf d < 7 ∨ 21 < bBuf d ∨ bFrames d = 0 ∨ closed then some 2
    else if mLocal d % 2 ^ bBuf d ≠ 0 ∨ !spRange (mLocal d) (bDepth d * 2 ^ bBuf d) then some 3
    else none
  | _ =>
    if closed then some 2
    else if mLocal d % 32 ≠ 0 ∨ !spRange (mLocal d) 32 then some 3
    else none

/-- A started operation works on a lane. -/
def onLane (slot : Nat) (o : MseOp) : Bool := decide (0x10 ≤ dOp o.desc) && decide (dOp o.desc ≤ 0x13) && bSlot o.desc == slot

/-- An earlier operation of the core on the lane has not taken effect (R234). -/
def Core.laneBusy (c : Core) (slot no : Nat) : Bool := c.ops.any (fun o => decide (o.no < no) && onLane slot o && !o.fin)

/-- The frame header of a push (R228). -/
def frameHeader (d prev step core seq time : Nat) : List Byte :=
  leBytes 64 (0xB5E1 + bSlot d * 2 ^ 16 + fld d 192 4 * 2 ^ 24 + fld d 200 24 * 2 ^ 32 + mLen d * 2 ^ 64
    + prev * 2 ^ 96 + step % 2 ^ 32 * 2 ^ 160 + core % 2 ^ 13 * 2 ^ 192 + seq % 2 ^ 32 * 2 ^ 224 + fld d 448 64 * 2 ^ 256
    + time % 2 ^ 64 * 2 ^ 320)

/-- A local operation has taken effect: its descriptor waits for its completion. -/
def State.markFin (s : State) (p no : Nat) : State := s.updOp p no (fun o => { o with fin := true, kind := .plain, leaves := 1 })

/-- The effect of a BUSHEL_OPEN (R225, R234); OPEN changes with its completion (R224). -/
def State.laneOpen (s : State) (p d : Nat) : State :=
  let x := (s.core p).lane (bSlot d)
  (s.count (Key.bushelDiscarded (physCluster p)) x.count).updCore p (fun c => c.setLane (bSlot d)
    { isOpen := x.isOpen, base := bBase d, limit := bLimit d, top := 0, last := none, count := 0 })

/-- A BUSHEL_OPEN completes: OPEN is 1 (R224). -/
def State.laneOpened (s : State) (p d : Nat) : State :=
  s.updCore p (fun c => c.setLane (bSlot d) { c.lane (bSlot d) with isOpen := true })

/-- The effect of a BUSHEL_PUSH that fits (R228, R229); `step` is the rounding step when it started. -/
def State.lanePush (s : State) (p lc no d step : Nat) : State :=
  let c := s.core p
  let x := c.lane (bSlot d)
  let f := frameLen (mLen d)
  let bytes := frameHeader d (x.last.getD 0xFFFFFFFFFF) step lc x.count s.ftime
    ++ c.sp.readN (mLocal d) (mLen d) ++ List.replicate (f - 64 - mLen d) 0
  (s.hbmWrite (devSetting x.base) (s.coreWho lc no) (devOffset x.base + x.top) bytes).updCore p (fun c =>
    c.setLane (bSlot d) { x with last := some x.top, top := x.top + f, count := x.count + 1 })

/-- The lane record (R235). -/
def laneRecord (x : Lane) : List Byte :=
  leBytes 32 (x.base + x.limit * 2 ^ 64 + x.top * 2 ^ 128 + x.count * 2 ^ 192 + b2n x.isOpen * 2 ^ 224)

/-- A lane operation takes effect if it is its turn and its controller accepts requests; a request to one that does not is dropped and
recovers as R382 says (R234, R480). A push that overflows leaves the lane unchanged and stops the engine (R230). -/
def State.laneTry (s : State) (p lc no : Nat) : State :=
  match (s.core p).op no with
  | none => s
  | some o =>
    let d := o.desc
    let slot := bSlot d
    let x := (s.core p).lane slot
    if o.fin || (s.core p).laneBusy slot no || !o.msgs.isEmpty then s
    else
      match dOp d with
      | 0x10 => (s.laneOpen p d).markFin p no
      | 0x11 =>
        if x.limit < x.top + frameLen (mLen d) then
          ((s.updOp p no (fun o => { o with kind := .stuck, fin := true })).stopEngine p 2 6 d).count
            (Key.bushelOverflows (physCluster p)) 1
        else if !s.controllerOpen (devSetting x.base) then s.localMsg p no (0x2000 + devSetting x.base)
        else ((s.lanePush p lc no d o.noted).markFin p no).count (Key.bushelPushes (physCluster p)) 1
      | 0x12 => if o.kind = .held then s.updOp p no (fun o => { o with kind := .drain 0 o.noted }) else s
      | _ => (s.spWrite p (mLocal d) (laneRecord x)).markFin p no

/-- Every operation of a core that its lane holds tries again, in start order (R234). -/
def State.laneAll (s : State) (p : Nat) : State :=
  let lc := (s.logicalOf p).getD 0
  ((s.core p).ops.filter (fun o => o.kind == .held)).foldl (fun s o =>
    if decide (0x10 ≤ dOp o.desc) && decide (dOp o.desc ≤ 0x13) then s.laneTry p lc o.no else s) s

/-- A Bushel descriptor starts (R225, R227, R234). It notes the rounding step of a push (R228) and R_0 of a drain (R232). -/
def bushelOp (core : CoreId) (s : State) (op : Nat) : Host.Outcome State Fault Refusal :=
  startMse core s op fun lc p d s =>
    match s.bushelCause p d op with
    | some k => s.engineStop p 2 k d
    | none =>
      let no := (s.core p).nextOp
      let noted := if op = 0x12 then (s.core p).ctr (fld d 248 8) else (s.core p).rstep
      ((s.addOp p d .held [] false).updOp p no (fun o => { o with noted := noted })).laneTry p lc no

/-- BUSHEL_OPEN. -/
def execBushelOpen (core : CoreId) (s : State) : Host.Outcome State Fault Refusal := bushelOp core s 0x10

/-- BUSHEL_PUSH. -/
def execBushelPush (core : CoreId) (s : State) : Host.Outcome State Fault Refusal := bushelOp core s 0x11

/-- BUSHEL_DRAIN: starts; its frames are read by BUSHEL_FRAME_READ. -/
def execBushelDrain (core : CoreId) (s : State) : Host.Outcome State Fault Refusal := bushelOp core s 0x12

/-- BUSHEL_QUERY. -/
def execBushelQuery (core : CoreId) (s : State) : Host.Outcome State Fault Refusal := bushelOp core s 0x13

/-! ## Drains (R231–R233) -/

/-- A drain that fails delivers nothing further, does not complete, so that it keeps its lane, and stops the engine (R233, R234). -/
def State.drainStop (s : State) (p no cause d : Nat) : State :=
  (s.updOp p no (fun o => { o with kind := .stuck })).stopEngine p 2 cause d

/-- A drain whose read is uncorrectable completes with READ_UNCORRECTABLE, its buffer undefined, and stops the engine (R80, R233,
R327). -/
def State.drainLost (s : State) (p no j d : Nat) : State :=
  let s1 := (s.spWrite p (mLocal d + j % bDepth d * 2 ^ bBuf d) (s.freeBytes (2 ^ bBuf d))).tick
  let s2 := match (s1.core p).op no with
    | some o => s1.finishOp p { o with status := 0x0C }
    | none => s1
  (s2.laneAll p).stopEngine p 2 5 d

/-- A header is accepted (R233). -/
def headerOk (x : Lane) (last slot buf h : Nat) : Bool :=
  fld h 0 16 == 0xB5E1 && fld h 16 6 == slot && fld h 224 32 + 1 == x.count
    && last + frameLen (fld h 64 22) == x.top
    && (fld h 96 40 == 0xFFFFFFFFFF || decide (fld h 96 40 < last)) && decide (frameLen (fld h 64 22) ≤ 2 ^ buf)

/-- One frame of a drain: header, check, payload, lane pointers, ARRIVE_CTR; the descriptor completes with its last frame. -/
def State.drainFrame (s : State) (p no j r0 d : Nat) : State :=
  let c := s.core p
  let slot := bSlot d
  let x := c.lane slot
  match x.last with
  | none => (s.drainStop p no 3 d).count (Key.bushelUnderflows (physCluster p)) 1
  | some last =>
    let n := devSetting x.base
    let r := s.hbmRead n (devOffset x.base + last) 64
    match r.2 with
    | none => r.1.drainLost p no j d
    | some hb =>
      let h := leNat hb
      if !headerOk x last slot (bBuf d) h then (r.1.drainStop p no 3 d).count (Key.bushelBadFrames (physCluster p)) 1
      else
        let f := frameLen (fld h 64 22)
        let r2 := r.1.hbmRead n (devOffset x.base + last + 64) (f - 64)
        match r2.2 with
        | none => r2.1.drainLost p no j d
        | some body =>
          let prev := if fld h 96 40 = 0xFFFFFFFFFF then none else some (fld h 96 40)
          let s1 := r2.1.spWrite p (mLocal d + j % bDepth d * 2 ^ bBuf d) (hb ++ body)
          let s2 := s1.updCore p (fun c => c.setLane slot { x with top := last, last := prev, count := x.count - 1 })
          let s3 := (s2.incCtr p (fld d 240 8) 1).count (Key.bushelFramesDrained (physCluster p)) 1
          if j + 1 = bFrames d then
            match (s3.core p).op no with
            | some o => ((s3.finishOp p { o with leaves := 1 }).laneAll p)
            | none => s3
          else s3.updOp p no (fun o => { o with kind := .drain (j + 1) r0 })

/-- BUSHEL_FRAME_READ: the next frame of the drain named, when the window has room. No effect otherwise (log entry 9), but that a
request to a controller that accepts nothing is dropped, and recovers as R382 says (R480). -/
def execBushelFrameRead (core : CoreId) (no : Nat) (s : State) : Host.Outcome State Fault Refusal :=
  match s.physOf core.toNat with
  | none => .next s
  | some p =>
    if s.engineHeld p 2 then .next s
    else
      match (s.core p).op no with
      | none => .next s
      | some o =>
        match o.kind with
        | .drain j r0 =>
          let n := devSetting ((s.core p).lane (bSlot o.desc)).base
          if (s.core p).drainWaits o || !o.msgs.isEmpty then .next s
          else if !s.controllerOpen n then .next (s.localMsg p no (0x2000 + n))
          else .next (s.drainFrame p no j r0 o.desc)
        | _ => .next s

/-! ## FENCE -/

/-- A buffer entry holds bytes that a descriptor of the core started before descriptor `no` has written. -/
def State.writtenBefore (s : State) (lc no : Nat) (w : WcbEntry) : Bool :=
  w.writers.any (fun who => who % 2 ^ 48 == 65536 * s.node + lc && decide (who / 2 ^ 48 ≤ no))

/-- The flush of a FENCE: every buffer entry that holds bytes written by an earlier descriptor of the core leaves its buffer (R74, R320). -/
def State.fenceFlush (s : State) (lc no : Nat) : State := settings.foldl (fun s n => s.hbmFlush n (s.writtenBefore lc no)) s

/-! ## The deferral ring -/

/-- DEFER_TAKE (R239): the MXE takes the next ring entry when every condition holds and its core is not being swapped (R508); no
effect otherwise. -/
def execDeferTake (core : CoreId) (s : State) : Host.Outcome State Fault Refusal :=
  match s.physOf core.toNat with
  | none => .next s
  | some p =>
    let c := s.core p
    let head := s.get Key.deferHeadCtr
    let h := c.ctr head
    let d := c.sp.num (s.get Key.deferRingAddr + h % 2 ^ s.get Key.deferRingLog2 * 64) 64
    if s.flag Key.deferEnable ∧ s.engineHeld p 0 = false ∧ reached (c.ctr (s.get Key.deferTailCtr)) (h + 1)
        ∧ c.mxe.queue = [] ∧ c.gateOk d ∧ s.swaps.all (fun w => w.fromPhy != p) then
      let s1 := s.updCore p (fun c => { c with mxe := { c.mxe with queue := [d] } }.incCtr head 1)
      .next ((s1.count (Key.descIssued (physCluster p)) 1).count (Key.deferTaken (physCluster p)) 1)
    else .next s

end Sys2Proof.Machine
end

