-- ==== Sys2Proof/Machine/Expert.lean ====
section
/-!
DEFINITION. Expert dispatch, return and combine (R248–R257).
-/
namespace Sys2Proof.Machine

/-! ## Descriptor fields (R251) -/

/-- ROWS_ADDR. -/
def xRows (d : Nat) : Nat := fld d 128 21
/-- ROW_BYTES. -/
def xRowBytes (d : Nat) : Nat := 32 * fld d 160 11
/-- k. -/
def xK (d : Nat) : Nat := fld d 176 3 + 1
/-- LISTS_ADDR. -/
def xLists (d : Nat) : Nat := fld d 192 21
/-- COUNTS_ADDR. -/
def xCounts (d : Nat) : Nat := fld d 224 21
/-- MAP_ADDR. -/
def xMap (d : Nat) : Nat := fld d 256 21
/-- LIST_CAP. -/
def xListCap (d : Nat) : Nat := fld d 288 15
/-- EXPERTS. -/
def xExperts (d : Nat) : Nat := fld d 304 7
/-- CAP. -/
def xCap (d : Nat) : Nat := fld d 312 16
/-- RANK. -/
def xRank (d : Nat) : Nat := fld d 328 6
/-- TOKENS. -/
def xTokens (d : Nat) : Nat := fld d 336 16
/-- SENT_ADDR. -/
def xSent (d : Nat) : Nat := fld d 368 21

/-- Why an expert operation is refused when it starts (R251). A misaligned MAP_ADDR or SENT_ADDR takes the cause of a range (DESIGN CHOICE, log
entry 25). -/
def expertCause (d op : Nat) : Option Nat :=
  let rb := xRowBytes d
  match op with
  | 0x40 =>
    if rb = 0 ∨ xListCap d = 0 ∨ 16384 < xListCap d ∨ xExperts d = 0 ∨ 64 < xExperts d ∨ xCap d = 0 ∨ xTokens d = 0 then some 2
    else if xMap d % 32 != 0 || xSent d % 4 != 0 || !spRange (xRows d) (xTokens d * rb) || !spRange (xLists d) (4 * xExperts d * xListCap d)
        || !spRange (xCounts d) (4 * xExperts d) || !spRange (xMap d) (32 * xExperts d)
        || !spRange (xSent d) (4 + xTokens d * xK d) then some 3
    else none
  | 0x41 =>
    if rb = 0 ∨ xCap d = 0 then some 2
    else if !spRange (xRows d) ((xRank d + 1) * xCap d * rb) || !spRange (xLists d) ((xRank d + 1) * xCap d * 16)
        || !spRange (xCounts d) (4 * (xRank d + 1)) then some 3
    else none
  | _ =>
    if rb = 0 ∨ xTokens d = 0 then some 2
    else if !spRange (xRows d) (xTokens d * (rb * 4 / (if bit d 171 then 2 else 4)))
        || !spRange (xLists d) (4 * xTokens d * xK d) || !spRange (xCounts d) (4 + xTokens d * xK d)
        || !spRange (xMap d) (xTokens d * xK d * rb) then some 3
    else none

/-- The fields that a PUT or SIGNAL of an expert operation carries, laid out as R73 lays them out; a row for a local expert
carries its number (R254, log entry 13). -/
def expertFields (len chan ep node off ctr inc : Nat) (expert : Option Nat) : Nat :=
  len * 2 ^ 160 + 2 ^ 182 + chan * 2 ^ 184 + b2n (inc != 0) * 2 ^ 190 + ctr * 2 ^ 192 + inc * 2 ^ 200 + ep * 2 ^ 208
    + node * 2 ^ 224 + off * 2 ^ 256
    + (match expert with
       | some e => e * 2 ^ 440 + 2 ^ 446
       | none => 0)

/-- One message of an expert operation: a sprayed PUT, or a SIGNAL with no bytes. -/
def State.expertItem (s : State) (lc chan group : Nat) (after : List Nat) (op node ep off ctr inc : Nat) (expert : Option Nat)
    (bs : List Byte) : Todo :=
  { group := group, after := after, length := bs.length, payload := bs, source := none, dst := none,
    head := s.msgHead lc op node ep off 1 chan (expertFields bs.length chan ep node off ctr inc expert) }

/-- Why the target of an expert row is refused: a multicast or reserved node, an endpoint that is no logical core (cause 0x02),
or an invalid core of this package (cause 0x04). -/
def State.expertTarget (s : State) (node ep : Nat) : Option Nat :=
  if s.nodeReserved node || (mcastAxis node).isSome || !epCore ep then some 2
  else if node == s.node && (s.physOf ep).isNone then some 4
  else none

/-- The elements of a list that are sent, in order, and the drops (R252). -/
def listSent (d : Nat) : Nat → List Nat → List Nat × Nat
  | _, [] => ([], 0)
  | n, i :: t =>
    if xTokens d * xK d ≤ i ∨ xCap d ≤ n then
      let r := listSent d n t
      (r.1, r.2 + 1)
    else
      let r := listSent d (n + 1) t
      (i :: r.1, r.2)

/-- What a dispatch has formed so far: its messages, the elements sent, the drops, and why it stopped. -/
structure DispatchAcc where
  items : List Todo
  sent  : List Nat
  drops : Nat
  stop  : Option Nat
deriving DecidableEq, Repr

/-- The drops among the elements ahead of the one that would be row `j` of its list. -/
def dropsBefore (d j : Nat) (elems : List Nat) : Nat :=
  (listSent d 0 (elems.take (((List.range elems.length).find? (fun m => decide (j < (listSent d 0 (elems.take m)).1.length))).getD elems.length))).2

/-- List `e` of a dispatch (R252). An element number is a signed INT32: a negative one is out of range like one too large. In this package a row
whose place lies beyond the scratchpad stops the engine there, the rows ahead of it being sent; a misaligned REC_BASE or CNT_BASE is taken as a
reserved value (R248; DESIGN CHOICE, log entry 25). -/
def State.dispatchList (s : State) (p lc d : Nat) (a : DispatchAcc) (e : Nat) : DispatchAcc :=
  if a.stop.isSome then a
  else
    let sp := (s.core p).sp
    let m := sp.num (xMap d + 32 * e) 32
    let node := fld m 0 32
    let ep := fld m 32 16
    let chan := mChan d
    let rb := xRowBytes d
    let k := min (sp.num (xCounts d + 4 * e) 4) (xListCap d)
    let elems := (List.range k).map (fun j => sp.num (xLists d + 4 * (e * xListCap d + j)) 4)
    let r := listSent d 0 elems
    let n := r.1.length
    let base := xRank d * xCap d
    let own := node == s.node
    let row := fun (x : Nat × Nat) =>
      [s.expertItem lc chan (3 * e) [] 1 node ep (fld m 64 21 + (base + x.2) * rb) 0 0 (some (fld m 48 6))
         (sp.readN (xRows d + x.1 % xTokens d * rb) rb),
       s.expertItem lc chan (3 * e) [] 1 node ep (fld m 96 21 + (base + x.2) * 16) 0 0 none
         (leBytes 16 (s.node + lc * 2 ^ 32 + x.1 * 2 ^ 64))]
    let wrong := fun (j : Nat) => own && (!spRange (fld m 64 21) ((base + j + 1) * rb) || !spRange (fld m 96 21) ((base + j + 1) * 16))
    match s.expertTarget node ep with
    | some c => { a with stop := some c }
    | none =>
      if fld m 96 21 % 16 ≠ 0 ∨ fld m 128 21 % 4 ≠ 0 then { a with stop := some 2 }
      else
        let rows := fun (l : List Nat) => a.items ++ l.zipIdx.flatMap row
        match (List.range n).find? wrong with
        | some j => { items := rows (r.1.take j), sent := a.sent ++ r.1.take j, drops := a.drops + dropsBefore d j elems, stop := some 3 }
        | none =>
        if own && !spRange (fld m 128 21) (4 * xRank d + 4) then
          { items := rows r.1, sent := a.sent ++ r.1, drops := a.drops + r.2, stop := some 3 }
        else
        { items := rows r.1
            ++ [s.expertItem lc chan (3 * e + 1) [3 * e] 1 node ep (fld m 128 21 + 4 * xRank d) 0 0 none (leBytes 4 n),
                s.expertItem lc chan (3 * e + 2) [3 * e + 1] 5 node ep 0 (fld m 56 8) 1 none []],
          sent := a.sent ++ r.1, drops := a.drops + r.2, stop := none }

/-- EXPERT_DISPATCH (R252, R253). -/
def execExpertDispatch (core : CoreId) (s : State) : Host.Outcome State Fault Refusal :=
  startMse core s 0x40 fun lc p d s =>
    match expertCause d 0x40 with
    | some k => s.engineStop p 2 k d
    | none =>
      let a := (List.range (xExperts d)).foldl (s.dispatchList p lc d) { items := [], sent := [], drops := 0, stop := none }
      let n := physCluster p
      let no := (s.core p).nextOp
      let s1 := (s.count (Key.expertRowsSent n) a.sent.length).count (Key.expertDrops n) a.drops
      let flags := (List.range (xTokens d * xK d)).map (fun i => b2n (a.sent.contains i))
      match a.stop with
      | none =>
        ((s1.addOp p d (.dispatch flags) a.items false).updOp p no (fun o =>
          { o with leaves := a.sent.length, zones := s.ownZones a.items })).pumpOp p no
      | some k =>
        (((s1.addOp p d .stuck a.items false).updOp p no (fun o => { o with zones := s.ownZones a.items })).pumpOp p no).engineStop p 2 k d

/-- The rows of a return, as (rank, row) pairs (R255). -/
def returnRows (sp : Mem) (d : Nat) : List (Nat × Nat) :=
  (List.range (xRank d + 1)).flatMap (fun r =>
    (List.range (min (sp.num (xCounts d + 4 * r) 4) (xCap d))).map (fun j => (r, j)))

/-- One row of a return, or why its record is refused (R253, R255). -/
def State.returnRow (s : State) (p lc d : Nat) (x : Nat × Nat) : Todo ⊕ Nat :=
  let sp := (s.core p).sp
  let i := x.1 * xCap d + x.2
  let m := sp.num (xLists d + 16 * i) 16
  let rb := xRowBytes d
  let off := xMap d + fld m 64 32 * rb
  match s.expertTarget (fld m 0 32) (fld m 32 16) with
  | some c => .inr c
  | none =>
    if !spRange off rb then .inr 3
    else .inl (s.expertItem lc (mChan d) 0 [] 1 (fld m 0 32) (fld m 32 16) off (fld d 352 8) 1 none
      (sp.readN (xRows d + i * rb) rb))

/-- The messages of a return up to the first refused record, and why that one is refused. -/
def State.returnItems (s : State) (p lc d : Nat) : List (Nat × Nat) → List Todo × Option Nat
  | [] => ([], none)
  | x :: t =>
    match s.returnRow p lc d x with
    | .inr c => ([], some c)
    | .inl y =>
      let r := State.returnItems s p lc d t
      (y :: r.1, r.2)

/-- The rows, records and counts at the home that a return reads, as ranges of its own core. -/
def returnZones (lc d : Nat) : List (Nat × Nat × Nat) :=
  [(lc, xRows d, (xRank d + 1) * xCap d * xRowBytes d), (lc, xLists d, (xRank d + 1) * xCap d * 16), (lc, xCounts d, 4 * (xRank d + 1))]

/-- EXPERT_RETURN (R255). A refused record stops the engine with the return incomplete (R253). -/
def execExpertReturn (core : CoreId) (s : State) : Host.Outcome State Fault Refusal :=
  startMse core s 0x41 fun lc p d s =>
    match expertCause d 0x41 with
    | some k => s.engineStop p 2 k d
    | none =>
      let r := s.returnItems p lc d (returnRows (s.core p).sp d)
      let no := (s.core p).nextOp
      let s1 := s.count (Key.expertRowsReturned (physCluster p)) r.1.length
      let zones := s.ownZones r.1 ++ returnZones lc d
      match r.2 with
      | none => ((s1.addOp p d .plain r.1 false).updOp p no (fun o => { o with leaves := r.1.length, zones := zones })).pumpOp p no
      | some k => (((s1.addOp p d .stuck r.1 false).updOp p no (fun o => { o with zones := zones })).pumpOp p no).engineStop p 2 k d

/-- One combined value (R256): the gate-weighted sum over the choices whose rows were sent, in the order of a. -/
def combineAt (sp : Mem) (d t x : Nat) : Nat :=
  let sz := if bit d 171 then 2 else 4
  let acc := (List.range (xK d)).foldl (fun (acc : Option Num) a =>
    let i := a * xTokens d + t
    if sp.read (xCounts d + 4 + i) = 1 then
      let w := ofFp32 (sp.num (xLists d + 4 * i) 4)
      let v := sp.num (xMap d + i * xRowBytes d + sz * x) sz
      let y := if bit d 171 then fBF16.decode v else ofFp32 v
      match acc with
      | none => some (rna32 (w.mul y))
      | some z => some (rna32 ((w.mul y).add z))
    else acc) none
  match acc with
  | none => 0
  | some z => fp32 z

/-- EXPERT_COMBINE (R256). -/
def execExpertCombine (core : CoreId) (s : State) : Host.Outcome State Fault Refusal :=
  startMse core s 0x42 fun _ p d s =>
    match expertCause d 0x42 with
    | some k => s.engineStop p 2 k d
    | none =>
      let sp := (s.core p).sp
      let m := xRowBytes d / (if bit d 171 then 2 else 4)
      let bs := (List.range (xTokens d)).flatMap (fun t => (List.range m).flatMap (fun x => leBytes 4 (combineAt sp d t x)))
      (s.spWrite p (xRows d) bs).addOp p d .plain [] true

end Sys2Proof.Machine
end

