-- ==== Sys2Proof/Machine/Arrivals.lean ====
section
/-!
DEFINITION. Messages at their target and their answers at the source (R76–R87, R366, R376–R384, R396, R399), GATHER
(R284–R287), and the timers of message recovery.
-/
namespace Sys2Proof.Machine

/-! ## A packet at its destination (R369, R389, R394, R399) -/

/-- What becomes of a packet that is not delivered: the checks of the port, the version, the end-to-end CRC and the job tag, which
is answered only by a package that is READY (R399, R556). One in the adjacent plane of a detour goes on (R392). Nothing for a packet that is delivered. -/
def State.turnedAway (s : State) (via : Option Port) (p : Packet) : Option State :=
  let v := b2n p.epoch
  if via.any (fun q => s.fenced v q.val) then some (s.count (Key.fencedDrops ((via.map Fin.val).getD 0)) 1)
  else if via.isSome ∧ s.tableState v = 0 then some (s.count Key.staleEpochDrops 1)
  else if via.isSome ∧ (p.detour = 1 ∨ p.detour = 2) then via.map (fun q => s.transit q p)
  else if p.abort then some (s.count Key.abortedPackets 1)
  else if packetReserved p ∨ packetCrc p ≠ p.crc.toNat ∨ p.payload.length ≠ p.length.toNat then some (s.count Key.e2eCrcErrors 1)
  else if p.jobTag.toNat ≠ s.get Key.jobTag then
    let s1 := s.count Key.tagMismatchArrivals 1
    some (if p.ackReq && s.get Key.pkgState == 1 then s1.sendPacket (s1.completionFor p 1 (s1.leafOf p) false) else s1)
  else none

/-- A packet has reached its destination. One of another operation or for another package is not this command's (log entry 9), and
nothing arrives while the package is held (R556). -/
def arrivalIf (mine : Bool) (via : Option Port) (p : Packet) (s : State) (body : State → State) : Host.Outcome State Fault Refusal :=
  if s.packageHeld ∨ mine = false ∨ s.isOwn p.destNode.toNat = false then .next s
  else
    match (s.takeIn via p).turnedAway via p with
    | some t => .next t
    | none => .next (body (s.takeIn via p))

/-- The same for a packet of one operation. -/
def arrival (op : Nat) (via : Option Port) (p : Packet) (s : State) (body : State → State) : Host.Outcome State Fault Refusal :=
  arrivalIf (p.op.toNat == op) via p s body

/-- The endpoint of a request accepts nothing now: the package is not READY (R556), the unit is under reset or fenced (R480), or
its logical core is being swapped (R508). -/
def State.endpointHeld (s : State) (ep : Nat) : Bool :=
  s.get Key.pkgState != 1
    || (epCore ep && (s.physOf ep).any s.coreHeld)
    || (epMem ep && !s.settingFenced (ep - 0x2000) && !s.controllerOpen (ep - 0x2000))
    || (epTroy ep && !s.settingFenced (ep - 0x2100) && s.resets.any (fun j => (j.domain == 4 && j.target == ep - 0x2100) || decide (6 ≤ j.domain)))

/-- The recorded status of a message that is complete here (R381). -/
def State.dupOf (s : State) (node id : Nat) : Option Nat :=
  (s.dups.find? (fun r => r.srcNode == node && r.msgId == id)).map (·.status)

/-- The COMPLETION of a message goes back, and its duplicate record is kept (R381). -/
def State.answer (s : State) (p : Packet) (status : Nat) : State :=
  let left := s.reorders.filter (fun c => !(c.srcNode == p.srcNode.toNat && c.msgId == p.msgId.toNat))
  let record : DupRecord := { srcNode := p.srcNode.toNat, msgId := p.msgId.toNat, status := status }
  let s1 := { s with reorders := left, dups := s.dups ++ [record] }
  s1.sendPacket (s1.completionFor p status (s1.leafOf p) false)

/-- BUSY or RETRY goes back (R377, R380, R381). -/
def State.turnBack (s : State) (p : Packet) (op : Nat) : State :=
  s.sendPacket (sealed { s.completionFor p 0 0 false with op := BitVec.ofNat 8 op, payload := List.replicate 32 0 })

/-- A target refuses a message (R79). -/
def State.refuseMsg (s : State) (p : Packet) (status : Nat) : State :=
  if status = 1 then (s.count Key.arrivalsBadEndpoint 1).answer p 1
  else if status = 2 then
    ((s.count Key.arrivalsBadAddress 1).undefTarget (s.packetWho p) p.destEp.toNat (mOffset p.fields.toNat) (mLen p.fields.toNat)).answer p 2
  else s.answer p status

/-! ## Landing (R76, R77, R379, R380) -/

/-- Where the message of a packet begins and how many packets it has (R368). -/
def msgBase (p : Packet) : Nat := if p.op = 3 then 0 else mOffset p.fields.toNat
def msgCount (p : Packet) : Nat := if p.op = 5 then 1 else max 1 (ceilDiv (mLen p.fields.toNat) 1024)

/-- The payload of a packet is placed. -/
def State.place (s : State) (p : Packet) (slot : Option Nat) : State :=
  let ep := p.destEp.toNat
  if p.op = 5 then s
  else if epCore ep then
    match s.physOf ep with
    | none => s
    | some q => s.spWrite q (match slot with | some a => a + 16 + p.offset.toNat | none => p.offset.toNat) p.payload
  else s.hbmWrite (ep - 0x2000) (s.packetWho p) (devOffset p.offset.toNat) p.payload

/-- The slot header (R85). -/
def slotHeader (p : Packet) : List Byte :=
  leBytes 16 (mLen p.fields.toNat % 2 ^ 17 + p.srcNode.toNat * 2 ^ 32 + p.srcEp.toNat * 2 ^ 64 + p.msgId.toNat * 2 ^ 80)

/-- A message is complete in its slot: the header is written and the slot becomes an entry, with CHANNEL_READY where the queue
turns non-empty, also where a MODE 0 block has disabled the queue with EVENT set before (R83, R84, R85, R89; DESIGN CHOICE, log entry 27). A
companion stalled at that moment gives the control unit back (R246). The spec names no SOURCE for a CHANNEL_READY record: DESIGN CHOICE, 4 (log entry 55). -/
def State.enqueue (s : State) (q chan a : Nat) (p : Packet) : State :=
  let x := (s.core q).queue chan
  let s1 := (s.spWrite q a (slotHeader p)).updCore q (·.setQueue chan
    { x with entries := x.entries ++ [a], claimed := x.claimed.filter (· != a) })
  (if x.event ∧ x.entries = [] then s1.post q 4 4 chan 0 0 0 else s1).giveBack q

/-- What follows the landing of every packet: the enqueue, the notify or signal, the count of an expert row, and the
COMPLETION (R76, R77, R254, R381). -/
def State.finishMsg (s : State) (p : Packet) (slot : Option Nat) : State :=
  let d := p.fields.toNat
  let s1 := match s.physOf p.destEp.toNat with
    | none => s
    | some q =>
      let a := if p.op = 5 ∨ (mNotify d ∧ p.op ≠ 3) then s.incCtr q (mNotifyCtr d) (mNotifyInc d) else s
      match slot with
      | some z => a.enqueue q p.channel.toNat z p
      | none => a
  let s2 := if bit d 446 ∧ p.op = 1 then s1.count (Key.expertArrivals (fld d 440 6)) 1 else s1
  s2.answer p 0

/-- A packet lands in its message (R379, R380): it is placed, or held for its FENCE; the message completes with its last
packet. -/
def State.landPacket (s : State) (p : Packet) (slot : Option Nat) : State :=
  let n := msgCount p
  if n = 1 then (s.place p slot).finishMsg p slot
  else
    let mine := fun (c : Reorder) => c.srcNode == p.srcNode.toNat && c.msgId == p.msgId.toNat
    match s.reorders.find? mine with
    | none => s
    | some c =>
      let rest := s.reorders.filter (fun c => !mine c)
      if p.fence ∧ c.landed.length + 1 < n then { s with reorders := rest ++ [{ c with fence := some p }] }
      else
        let s1 := s.place p c.slot
        let k := c.landed.length + 1
        match c.fence with
        | some f =>
          if k + 1 = n then (s1.place f c.slot).finishMsg f c.slot
          else { s1 with reorders := rest ++ [{ c with landed := c.landed ++ [p.offset.toNat] }] }
        | none =>
          if k = n then s1.finishMsg p c.slot
          else { s1 with reorders := rest ++ [{ c with landed := c.landed ++ [p.offset.toNat] }] }

/-- Why a target refuses a packet of a PUT, COPY or SIGNAL (R71, R77, R79, R293, R317): BAD_ENDPOINT, BAD_ADDRESS or nothing. -/
def State.writeRefusal (s : State) (p : Packet) : Option Nat :=
  let d := p.fields.toNat
  let op := p.op.toNat
  let ep := p.destEp.toNat
  let n := p.payload.length
  if epTroy ep ∨ !s.accepts d op ep then some 1
  else if op = 5 then none
  else if epCore ep then (if spRange p.offset.toNat n then none else some 2)
  else if devSetting p.offset.toNat = ep - 0x2000 ∧ (s.stack (ep - 0x2000)).writable (devOffset p.offset.toNat) n then none
  else some 2

/-- The refusal of a SEND, or the slot it claims (R86). One that is both too long for a slot and finds none free is TOO_LONG: DESIGN CHOICE
(log entry 27). -/
def State.sendClaim (s : State) (p : Packet) : Nat ⊕ (Nat × Nat) :=
  let d := p.fields.toNat
  match (if epCore p.destEp.toNat then s.physOf p.destEp.toNat else none) with
  | none => .inl 1
  | some q =>
    let x := (s.core q).queue p.channel.toNat
    if x.mode = 0 ∨ (x.mode = 2 ∧ (bit d 188 = false ∨ x.srcNode ≠ p.srcNode.toNat ∨ x.srcEp ≠ p.srcEp.toNat)) then .inl 3
    else if 2 ^ x.slotLog2 - 16 < mLen d then .inl 5
    else
      match x.freeSlot with
      | none => .inl 4
      | some i => .inr (q, i)

/-- A packet of a write-like message at its target: duplicates (R381), the order of its flow (R377), the room for its context
and record (R380, R381), and then what the operation does. -/
def State.receive (s : State) (p : Packet) (body : Bool → State → State) : State :=
  let node := p.srcNode.toNat
  let id := p.msgId.toNat
  let rim := id % 4
  let ctx := s.reorders.find? (fun c => c.srcNode == node && c.msgId == id)
  match s.dupOf node id with
  | some st =>
    let s1 := s.count Key.dupDiscards 1
    if p.ackReq then s1.sendPacket (s1.completionFor p st (s1.leafOf p) false) else s1
  | none =>
    if p.cls = 0 ∧ bit p.operand.toNat 24 ∧ (s.dupOf node (fld p.operand.toNat 0 24)).isNone then
      (s.count Key.orderHolds 1).turnBack p 0xF2
    else if 65536 ≤ (s.dups.filter (fun r => r.msgId % 4 == rim)).length then (s.count Key.dupTableBusy 1).turnBack p 0xF1
    else if ctx.isNone ∧ 1 < msgCount p ∧ 4096 ≤ (s.reorders.filter (fun c => c.msgId % 4 == rim)).length then
      (s.count Key.reorderBusy 1).turnBack p 0xF1
    else if ctx.any (fun c => c.landed.contains p.offset.toNat || c.fence.any (fun f => f.offset == p.offset)) then s
    else body ctx.isSome s

/-- A new reorder context for the message of a packet, where it has more than one packet (R380). -/
def State.openCtx (s : State) (p : Packet) (slot : Option Nat) : State :=
  if msgCount p = 1 then s
  else
    let c : Reorder := { srcNode := p.srcNode.toNat, msgId := p.msgId.toNat, destEp := p.destEp.toNat,
                         channel := p.channel.toNat, landed := [], slot := slot, fence := none }
    { s with reorders := s.reorders ++ [c] }

/-- A PUT, COPY or SIGNAL packet. -/
def State.receiveWrite (s : State) (p : Packet) : State :=
  if s.endpointHeld p.destEp.toNat then s
  else s.receive p fun known s =>
    match s.writeRefusal p with
    | some st => s.refuseMsg p st
    | none => ((if known then s else s.openCtx p none).landPacket p none)

/-- A SEND packet. -/
def State.receiveSend (s : State) (p : Packet) : State :=
  if s.endpointHeld p.destEp.toNat then s
  else s.receive p fun known s =>
    if known then s.landPacket p none
    else
      match s.sendClaim p with
      | .inl 1 => s.refuseMsg p 1
      | .inl st =>
        (match s.physOf p.destEp.toNat with
         | some q => s.count (Key.arrivalsRefused (physCluster q)) 1
         | none => s).answer p st
      | .inr (q, i) =>
        let x := (s.core q).queue p.channel.toNat
        let a := x.slotAddr i
        let y := { x with claimed := x.claimed ++ [a], next := (i + 1) % 2 ^ x.countLog2 }
        ((s.updCore q (·.setQueue p.channel.toNat y)).openCtx p (some a)).landPacket p (some a)

/-- While a core is being swapped, its arrivals wait in the mesh (R508). -/
def State.heldBySwap (s : State) (p : Packet) : Bool :=
  epCore p.destEp.toNat && (s.physOf p.destEp.toNat).any (fun q => s.swaps.any (fun w => w.fromPhy == q))

/-- A request arrives; one for a core that is being swapped waits. -/
def requestArrival (op : Nat) (via : Option Port) (p : Packet) (s : State) (body : State → State) :
    Host.Outcome State Fault Refusal :=
  arrival op via p s fun s =>
    if s.heldBySwap p then
      let wait := fun (w : Swap) => if s.physOf p.destEp.toNat = some w.fromPhy then { w with waiting := w.waiting ++ [p] } else w
      { s with swaps := s.swaps.map wait }
    else body s

/-- COPY_ARRIVAL. -/
def execCopyArrival (via : Option Port) (packet : Packet) (s : State) : Host.Outcome State Fault Refusal :=
  requestArrival 4 via packet s fun s => s.receiveWrite packet

/-- SIGNAL_ARRIVAL. -/
def execSignalArrival (via : Option Port) (packet : Packet) (s : State) : Host.Outcome State Fault Refusal :=
  requestArrival 5 via packet s fun s => s.receiveWrite packet

/-- SEND_ARRIVAL (R85, R86). -/
def execSendArrival (via : Option Port) (packet : Packet) (s : State) : Host.Outcome State Fault Refusal :=
  requestArrival 3 via packet s fun s => s.receiveSend packet

/-! ## Reads at their target (R76, R286, R381) -/

/-- READ_DATA for a request: its data cut into packets, the last one the completion, each carrying the report of a GATHER
(log entry 13). -/
def State.returnData (s : State) (p : Packet) (report : Nat) (bs : List Byte) : State :=
  let n := ceilDiv bs.length 1024
  (List.range n).foldl (fun s j =>
    let part := (bs.drop (1024 * j)).take 1024
    s.sendPacket { s.completionFor p 0 0 false with
      op := 0x80, offset := p.offset + BitVec.ofNat 40 (1024 * j), length := BitVec.ofNat 11 part.length,
      last := j + 1 == n, payload := part, fields := BitVec.ofNat 512 report }) s

/-- A read is answered with a status and no data; no duplicate record is kept (R381). -/
def State.answerRead (s : State) (p : Packet) (status : Nat) : State :=
  let s1 := if status = 1 then s.count Key.arrivalsBadEndpoint 1 else if status = 2 then s.count Key.arrivalsBadAddress 1 else s
  s1.sendPacket (s1.completionFor p status 0 false)

/-- A GET at its target. -/
def State.receiveGet (s : State) (p : Packet) : State :=
  let d := p.fields.toNat
  let ep := p.destEp.toNat
  let off := p.offset.toNat
  if s.endpointHeld ep then s
  else if epTroy ep ∨ !s.accepts d 2 ep then s.answerRead p 1
  else if epCore ep then
    match s.physOf ep with
    | none => s.answerRead p 1
    | some q => if spRange off (mLen d) then s.returnData p 0 ((s.core q).sp.readN off (mLen d)) else s.answerRead p 2
  else if devSetting off = ep - 0x2000 ∧ (s.stack (ep - 0x2000)).readable (devOffset off) (mLen d) then
    let r := s.hbmRead (ep - 0x2000) (devOffset off) (mLen d)
    match r.2 with
    | some bs => r.1.returnData p 0 bs
    | none => r.1.answerRead p 0x0C
  else s.answerRead p 2

/-- A GATHER at the owner's memory controller (R286). -/
def State.receiveGather (s : State) (p : Packet) : State :=
  let d := p.fields.toNat
  let ep := p.destEp.toNat
  let n := ep - 0x2000
  let off := devOffset p.offset.toNat
  if s.endpointHeld ep then s
  else if !epMem ep ∨ s.settingFenced n then s.answerRead p 1
  else if devSetting p.offset.toNat ≠ n ∨ !(s.stack n).writable off 64 then s.answerRead p 2
  else
    let r := s.hbmRead n off 64
    match r.2 with
    | none => r.1.answerRead p 0x0C
    | some hb =>
      let h := leNat hb
      let a := off + 64 + fld d 448 40
      if fld h 0 16 ≠ 0x5AD0 ∨ fld h 128 40 < fld d 448 40 + mLen d ∨ !(s.stack n).writable a (mLen d) then r.1.answerRead p 2
      else if bit d 150 ∧ fld h 64 32 ≠ fld d 352 32 then r.1.answerRead p 9
      else
        let r2 := r.1.hbmRead n a (mLen d)
        match r2.2 with
        | some bs => r2.1.returnData p (fld h 32 32 + fld h 64 32 * 2 ^ 32) bs
        | none => r2.1.answerRead p 0x0C

/-- GET_ARRIVAL. -/
def execGetArrival (via : Option Port) (packet : Packet) (s : State) : Host.Outcome State Fault Refusal :=
  requestArrival 2 via packet s fun s => s.receiveGet packet

/-- GATHER_ARRIVAL (R286). -/
def execGatherArrival (via : Option Port) (packet : Packet) (s : State) : Host.Outcome State Fault Refusal :=
  requestArrival 0x20 via packet s fun s => s.receiveGather packet

/-! ## The source -/

/-- A message of this package ends with a status (R75, R81): its descriptor goes on, or its push is replied to; every message
that waited may start. -/
def State.msgEnd (s : State) (id : Nat) (m : OutMsg) (status leaves excluded : Nat) : State :=
  let s1 := (s.undefFailed id m.item status).closeMsg id
  if 65536 ≤ m.owner then (s1.hostSendEnd m.opNo status).pumpHost
  else
    let s2 := if m.item.head.op = 0x20 then
        (if status = 0 then s1.count Key.shardsGathered 1 else if status = 9 then s1.count Key.staleShards 1 else s1)
      else s1
    (((if status = 9 then s2 else s2.undefLocal m.owner m.opNo m.item status).opResult m.owner m.opNo id status leaves excluded).pumpOp
      m.owner m.opNo).pumpMsgs

/-- The leaves of a multicast message (R366). -/
def State.leaves (s : State) (m : OutMsg) : List Nat :=
  match mcastAxis m.item.head.destNode.toNat with
  | some a => List.range (s.axisSize a)
  | none => []

/-- A bit mask of leaves. -/
def leafMask (ls : List Nat) : Nat := ls.foldl (fun m i => m ||| 2 ^ i) 0

/-- The status of a multicast message whose leaves have all answered or are excluded (R396). -/
def mcastStatus (m : OutMsg) : Nat :=
  match m.answered.find? (fun a => a.2 != 0) with
  | some a => a.2
  | none => if m.excluded.isEmpty then 0 else 8

/-- A multicast message completes once every leaf has answered or is excluded (R396). -/
def State.mcastCheck (s : State) (id : Nat) (m : OutMsg) : State :=
  let s1 := { s with msgs := put id m s.msgs }
  if (s.leaves m).all (fun i => (look i m.answered).isSome || m.excluded.contains i) then
    s1.msgEnd id m (mcastStatus m) (m.answered.filter (fun a => a.2 == 0)).length (leafMask m.excluded)
  else s1

/-- COMPLETION_ARRIVAL (R81, R381, R396, R397). -/
def execCompletionArrival (via : Option Port) (packet : Packet) (s : State) : Host.Outcome State Fault Refusal :=
  arrival 0xF0 via packet s fun s =>
    let id := packet.msgId.toNat
    let c := leNat (packet.payload.take 4)
    match look id s.msgs with
    | none => s
    | some m =>
      if m.item.head.mcast then
        if bit c 14 then
          if m.excluded.contains (fld c 8 6) then s
          else (s.count Key.mcastExcludedLeaves 1).mcastCheck id { m with excluded := m.excluded ++ [fld c 8 6] }
        else s.mcastCheck id { m with answered := put (fld c 8 6) (fld c 0 8) m.answered }
      else
        let s1 := if fld c 0 8 = 7 then s.count Key.msgUnreachable 1 else s
        s1.msgEnd id m (fld c 0 8) (if fld c 0 8 = 0 then 1 else 0) 0

/-- A message turned back waits for REORDER_BACKOFF (R377, R378, R380). -/
def State.holdMsg (s : State) (id : Nat) : State :=
  match look id s.msgs with
  | none => s
  | some m => { s with msgs := put id { m with held := true } s.msgs }

/-- BUSY_ARRIVAL (R380). -/
def execBusyArrival (via : Option Port) (packet : Packet) (s : State) : Host.Outcome State Fault Refusal :=
  arrival 0xF1 via packet s fun s => s.holdMsg packet.msgId.toNat

/-- RETRY_ARRIVAL (R377). -/
def execRetryArrival (via : Option Port) (packet : Packet) (s : State) : Host.Outcome State Fault Refusal :=
  arrival 0xF2 via packet s fun s => s.holdMsg packet.msgId.toNat

/-- Data of a read lands at the issuing core: in its scratchpad, or for a GATHER to HBM through the stack's controller. -/
def State.landRead (s : State) (m : OutMsg) (off : Nat) (bs : List Byte) : State :=
  match m.item.dst with
  | none => s
  | some a =>
    if a < 2 ^ 21 then s.spWrite m.owner (a + off) bs
    else
      s.hbmWrite (devSetting (a % 2 ^ 40)) (s.coreWho m.item.head.srcEp.toNat m.opNo) (devOffset (a % 2 ^ 40) + off) bs

/-- The data of a read can land: its engine is under no reset, and the controller of a stack that it goes to accepts requests; data that meets one
which does not is dropped (R333). -/
def State.readLands (s : State) (m : OutMsg) : Bool :=
  !s.engineHeld m.owner 2 && (match m.item.dst with
    | some a => decide (a < 2 ^ 21) || s.controllerOpen (devSetting (a % 2 ^ 40))
    | none => true)

/-- READ_DATA_ARRIVAL (R286, R378): data of an ordered read lands only once every earlier ordered read of its flow has
completed. -/
def execReadDataArrival (via : Option Port) (packet : Packet) (s : State) : Host.Outcome State Fault Refusal :=
  arrival 0x80 via packet s fun s =>
    let id := packet.msgId.toNat
    match look id s.msgs with
    | none => s
    | some m =>
      let h := m.item.head
      let off := packet.offset.toNat - h.offset.toNat
      if !isRead h then s
      else if h.cls = 0 ∧ s.msgs.any (fun x => decide (x.2.no < m.no) && x.2.item.head.cls == 0 && isRead x.2.item.head
          && sameFlow x.2.item.head h) then
        (s.count Key.orderHolds 1).holdMsg id
      else if m.landed.contains off ∨ m.item.length < off + packet.payload.length ∨ s.readLands m = false then s
      else
        let s1 := s.landRead m off packet.payload
        let m1 := { m with landed := m.landed ++ [off] }
        if m1.landed.length = ceilDiv m.item.length 1024 then
          let d := h.fields.toNat
          let s2 := if h.op = 0x20 then s1.spWrite m.owner (fld d 384 21) (leBytes 8 packet.fields.toNat) else s1
          s2.msgEnd id m1 0 1 0
        else { s1 with msgs := put id m1 s1.msgs }

/-- An outstanding message is sent again whole; with no route now it completes with UNREACHABLE (R382, R384). -/
def State.resendMsg (s : State) (id : Nat) (m : OutMsg) : State :=
  if s.noRoute m.item.head then (s.count Key.msgUnreachable 1).msgEnd id m 7 0 0
  else
    let r := s.transmit id m
    if r.2 then r.1.msgEnd id m 0x0C 0 0 else r.1

/-- REORDER_CONTEXT_EXPIRY (R380): the context is released incomplete; the bytes that have landed remain. -/
def execReorderContextExpiry (node : BitVec 32) (msgId : BitVec 24) (s : State) : Host.Outcome State Fault Refusal :=
  let mine := fun (c : Reorder) => c.srcNode == node.toNat && c.msgId == msgId.toNat
  match s.reorders.find? mine with
  | none => .next s
  | some c =>
    let s1 := { s with reorders := s.reorders.filter (fun c => !mine c) }
    let s2 := match c.slot, s1.physOf c.destEp with
      | some a, some q =>
        let x := (s1.core q).queue c.channel
        s1.updCore q (·.setQueue c.channel { x with claimed := x.claimed.filter (· != a) })
      | _, _ => s1
    .next (if s.packageHeld then s else s2.count Key.reorderExpired 1)

/-- DUP_RECORD_EXPIRY (R381). -/
def execDupRecordExpiry (node : BitVec 32) (msgId : BitVec 24) (s : State) : Host.Outcome State Fault Refusal :=
  .next (s.whileUp fun s => { s with dups := s.dups.filter (fun r => !(r.srcNode == node.toNat && r.msgId == msgId.toNat)) })

/-! ## Credits (R87) -/

/-- CREDIT_GRANT_ARRIVAL: the grant replaces the entry of its channel; SENDs that waited may go. -/
def execCreditGrantArrival (core : CoreId) (channel : BitVec 4) (node : BitVec 32) (ep : BitVec 16) (credits payload : Nat)
    (s : State) : Host.Outcome State Fault Refusal :=
  match s.physOf core.toNat with
  | none => .next s
  | some p =>
    let x : Credit := { node := node.toNat, ep := ep.toNat, credits := credits, payload := payload }
    .next (s.whileUp fun s => (s.updCore p (fun c => { c with credits := put channel.toNat x c.credits })).pumpCore p)

/-- CREDIT_RETURN_ARRIVAL: counts only when the entry names the destination that sent it; any other is discarded. -/
def execCreditReturnArrival (core : CoreId) (channel : BitVec 4) (node : BitVec 32) (ep : BitVec 16) (credits : Nat)
    (s : State) : Host.Outcome State Fault Refusal :=
  match s.physOf core.toNat with
  | none => .next s
  | some p =>
    match (s.core p).credit channel.toNat with
    | none => .next s
    | some x =>
      if x.node = node.toNat ∧ x.ep = ep.toNat then
        let y := { x with credits := x.credits + credits }
        .next (s.whileUp fun s => (s.updCore p (fun c => { c with credits := put channel.toNat y c.credits })).pumpCore p)
      else .next s

/-! ## GATHER at its source (R285) -/

/-- Why a GATHER is refused (R73, R265, R285). -/
def State.gatherCause (s : State) (d : Nat) : Option Nat :=
  let dev := fld d 408 40
  let reserved := decide (2 ≤ mClass d) || mLen d % 64 != 0 || mLen d == 0 || decide (2097152 < mLen d)
    || s.nodeReserved (fld d 224 32) || ((mcastAxis (fld d 224 32)).isSome && !s.upDown)
  let own := fld d 224 32 == s.node
  let badRange := mOffset d % 64 != 0 || fld d 448 40 % 64 != 0 || fld d 384 21 % 8 != 0 || !spRange (fld d 384 21) 8
    || (if bit d 149 then dev % 64 != 0 || decide (24 ≤ devSetting dev) || !(s.stack (devSetting dev)).writable (devOffset dev) (mLen d)
        else mLocal d % 64 != 0 || !spRange (mLocal d) (mLen d))
    || (epMem (mEp d) && devSetting (mOffset d) != mEp d - 0x2000)
    || (own && !(s.stack (mEp d - 0x2000)).writable (devOffset (mOffset d)) 64)
  if reserved then some 2 else if own && (!epMem (mEp d) || s.settingFenced (mEp d - 0x2000)) then some 4 else if badRange then some 3 else statusCause d

/-- GATHER (R285). -/
def execMseGather (core : CoreId) (s : State) : Host.Outcome State Fault Refusal :=
  startMse core s 0x20 fun lc p d s =>
    match s.gatherCause d with
    | some k => s.engineStop p 2 k d
    | none =>
      let t : Todo := { group := 0, after := [], length := mLen d, payload := [], source := none,
                        dst := some (if bit d 149 then 2 ^ 40 + fld d 408 40 else mLocal d),
                        head := s.msgHead lc 0x20 (fld d 224 32) (mEp d) (mOffset d) (mClass d) (mChan d) d }
      let no := (s.core p).nextOp
      (s.addOp p d .plain [t] false).pumpOp p no

end Sys2Proof.Machine
end

