-- ==== Sys2Proof/Machine/Operands.lean ====
section
/-!
DEFINITION. The operand forms of the control unit: registers, immediates, scratchpad addresses and branch targets
(R43, R47, R48, R51).
-/
namespace Sys2Proof.Machine

/-- The value of a register; g0 reads as zero (R43). -/
def Ctx.get (x : Ctx) (r : Reg) : Word := if r = 0 then 0 else x.regs[r]

/-- The context with a register written; a write to g0 is discarded (R43). -/
def Ctx.set (x : Ctx) (r : Reg) (v : Word) : Ctx := if r = 0 then x else { x with regs := x.regs.set r v }

/-- The context at the next instruction: the program counter advances by 4 modulo 65,536 (R43). -/
def Ctx.advance (x : Ctx) : Ctx := { x with pc := x.pc + 4 }

/-- The running context of a core (R44). -/
def Core.ctx (c : Core) : Ctx := if c.onComp then c.companion else c.primary

/-- The core with its running context replaced. -/
def Core.setCtx (c : Core) (x : Ctx) : Core := if c.onComp then { c with companion := x } else { c with primary := x }

/-- An immediate sign-extended to 64 bits (R47). -/
def sext16 (i : BitVec 16) : Word := i.signExtend 64

/-- An immediate zero-extended to 64 bits (R47). -/
def zext16 (i : BitVec 16) : Word := i.zeroExtend 64

/-- The address RA + sext(IMM16) of a load or store (R48). -/
def Ctx.address (x : Ctx) (ra : Reg) (imm : BitVec 16) : Nat := (x.get ra + sext16 imm).toNat

/-- A load or store address is legal: a multiple of its access size and below 0x20_0000 (R51). -/
def addressOk (a n : Nat) : Bool := decide (a % n = 0) && decide (a < 0x200000)

/-- A block or descriptor of `n` bytes at `a` is aligned to `n` and inside the scratchpad (R55, R56). -/
def blockOk (a n : Nat) : Bool := decide (a % n = 0) && decide (a + n ≤ 0x200000)

/-- The target of a branch: the branch's address plus 4·sext(OFF16), modulo 65,536 (R43, R48). -/
def branchTarget (pc : BitVec 16) (off : BitVec 16) : BitVec 16 := pc + 4 * off

/-- The target of JAL: the jump's address plus 4·sext(OFF21), modulo 65,536 (R43, R48). -/
def jumpTarget (pc : BitVec 16) (off : BitVec 21) : BitVec 16 := pc + 4 * off.truncate 16

/-- The link value PC + 4 modulo 65,536 (R48). -/
def linkValue (pc : BitVec 16) : Word := (pc + 4).zeroExtend 64

end Sys2Proof.Machine
end

