-- ==== Sys2Proof/Machine/Flags.lean ====
section
/-!
DEFINITION. The arithmetic of the control unit (R48–R50) and the conditions its branches test. The block has no flags
register: every condition is computed where it is used.
-/
namespace Sys2Proof.Machine

/-- A truth value as a register value. -/
def truth (b : Bool) : Word := if b then 1 else 0

/-- Shift and rotate amounts are RB[5:0] (R49). -/
def amountOf (b : Word) : Nat := b.toNat % 64

/-- DIV (R50): truncates toward zero; all ones on division by zero; −2^63 by −1 gives −2^63. -/
def divS (a b : Word) : Word := if b = 0 then BitVec.allOnes 64 else BitVec.ofInt 64 (a.toInt.tdiv b.toInt)

/-- REM (R50): the sign of the dividend; the dividend on division by zero. -/
def remS (a b : Word) : Word := if b = 0 then a else BitVec.ofInt 64 (a.toInt.tmod b.toInt)

/-- DIVU (R50). -/
def divU (a b : Word) : Word := if b = 0 then BitVec.allOnes 64 else BitVec.ofNat 64 (a.toNat / b.toNat)

/-- REMU (R50). -/
def remU (a b : Word) : Word := if b = 0 then a else BitVec.ofNat 64 (a.toNat % b.toNat)

/-- The high 64 bits of the signed product (R49). -/
def mulHigh (a b : Word) : Word := BitVec.ofInt 64 (a.toInt * b.toInt / 2 ^ 64)

/-- The high 64 bits of the unsigned product (R49). -/
def mulHighU (a b : Word) : Word := BitVec.ofNat 64 (a.toNat * b.toNat / 2 ^ 64)

/-- Leading zeros among the low `n` bits, counted from bit n − 1 down (R50). -/
def leadingZeros (v : Nat) : Nat → Nat
  | 0 => 0
  | n + 1 => if v.testBit n then 0 else 1 + leadingZeros v n

/-- Trailing zeros among `n` bits from bit `i` up (R50). -/
def trailingZeros (v i : Nat) : Nat → Nat
  | 0 => 0
  | n + 1 => if v.testBit i then 0 else 1 + trailingZeros v (i + 1) n

/-- The number of ones among the low `n` bits (R49). -/
def onesCount (v : Nat) : Nat → Nat
  | 0 => 0
  | n + 1 => b2n (v.testBit n) + onesCount v n

/-- The smaller or larger of two values by a comparison that says whether the first is below the second. -/
def pick (below : Bool) (a b : Word) : Word := if below then a else b

/-- RA is below RB as a signed number. -/
def lessS (a b : Word) : Bool := decide (a.toInt < b.toInt)

/-- RA is below RB as an unsigned number. -/
def lessU (a b : Word) : Bool := decide (a.toNat < b.toNat)

/-- Bits [16q+15:16q] of a register replaced (R48). -/
def insertQuarter (v : Word) (q : BitVec 2) (i : BitVec 16) : Word :=
  (v &&& ~~~((0xFFFF : Word) <<< (16 * q.toNat))) ||| (zext16 i <<< (16 * q.toNat))

end Sys2Proof.Machine
end

