-- ==== Sys2Proof/Machine/Ctu.lean ====
section
/-!
DEFINITION. The control unit (R43–R55, R58, R63–R65, R83–R87, R245, R246): its instructions, each in the context that is
running on the logical core that the command names.
-/
namespace Sys2Proof.Machine

/-! ## Running a context -/

/-- The state with the running context of a core replaced. -/
def State.putCtx (s : State) (p : Nat) (x : Ctx) : State := s.updCore p (·.setCtx x)

/-- Copies the descriptor at a scratchpad address into an engine's queue (R58) and counts it as pushed. -/
def State.pushDesc (s : State) (p e a : Nat) : State :=
  let s1 := s.updCore p (fun c =>
    c.setEngine e { c.engine e with queue := (c.engine e).queue ++ [c.sp.num a (descSize e)] })
  s1.count (Key.descIssued (physCluster p)) 1

/-- Ends the stall of the running context of a core if what it waits for has come (R52, R58, R64): SCWAIT once the
counter has reached the target, QWAIT once the queue holds an entry, PUSHD once the queue has room. -/
def State.wakeRunning (s : State) (p : Nat) : State :=
  let c := s.core p
  let x := c.ctx
  match x.stall with
  | some (.sync n t) =>
    if reached (c.ctr n.toNat) t.toNat then s.putCtx p { x.advance with st := .ready, stall := none } else s
  | some (.queue q rd _) =>
    match (c.queue q.val).entries with
    | a :: _ => s.putCtx p { (x.set rd (BitVec.ofNat 64 a)).advance with st := .ready, stall := none }
    | [] => s
  | some (.push e a) =>
    if s.queueOpen p e.val then (s.pushDesc p e.val a).putCtx p { x.advance with st := .ready, stall := none } else s
  | _ => s

/-- A stalled companion gives the control unit back where R246 says so; then the running context's stall ends where it can. -/
def State.wake (s : State) (p : Nat) : State := (s.giveBack p).wakeRunning p

/-- The control unit returns to the primary, whose QWAIT returns where its queue holds an entry (R246). -/
def State.switchBack (s : State) (p : Nat) : State := (s.updCore p (fun c => { c with onComp := false })).wakeRunning p

/-- The running context stalls in SCWAIT, QWAIT or PUSHD; a companion that does so while the primary's queue holds an entry gives the
control unit back (R52, R58, R246). -/
def State.stallCtx (s : State) (p : Nat) (x : Ctx) (w : Stall) : State :=
  let s1 := s.putCtx p { x with st := .waiting, stall := some w }
  if (s.core p).onComp && (s.core p).primaryEntry then s1.switchBack p else s1

/-- The running context can execute an instruction: it is ready, not held at an unfinished one, and its core is not under
reset. -/
def State.canIssue (s : State) (p : Nat) : Bool :=
  (s.core p).ctx.st == .ready && (s.core p).ctx.stall == none && !s.coreHeld p

/-- One instruction of a core's running context. A command for a context that is stalled, halted or not loaded has no
effect beyond ending a stall that can end (log entry 9). -/
def ctuOp (core : CoreId) (s : State) (body : Nat → Ctx → State → State) : Host.Outcome State Fault Refusal :=
  match s.physOf core.toNat with
  | none => .next s
  | some p =>
    let s1 := s.wake p
    .next (if s1.canIssue p then body p (s1.core p).ctx s1 else s1)

/-- The number of the running context in an event record (R88). -/
def Core.ctxSource (c : Core) : Nat := b2n c.onComp

/-- Halts the running context at its program counter; a companion that halts gives the control unit back (R45, R246). -/
def State.haltCtx (s : State) (p : Nat) : State :=
  s.updCore p (fun c => { c.setCtx { c.ctx with st := .halted, stall := none } with onComp := false })

/-- A CTU fault (R55): the context halts at the instruction, CTU_FAULT is posted, CTU_FAULTS incremented. -/
def State.ctuFault (s : State) (p cause detail : Nat) : State :=
  let c := s.core p
  ((s.haltCtx p).post p 3 c.ctxSource cause 0 c.ctx.pc.toNat detail).count (Key.ctuFaults (physCluster p)) 1

/-! ## Register operations -/

/-- An ALU operation on RA and RB (R48, R49). -/
def aluOp (f : Word → Word → Word) (core : CoreId) (rd ra rb : Reg) (s : State) : Host.Outcome State Fault Refusal :=
  ctuOp core s fun p x s => s.putCtx p (x.set rd (f (x.get ra) (x.get rb))).advance

/-- An operation on RA and an immediate (R48). -/
def immOp (f : Word → Word) (core : CoreId) (rd ra : Reg) (s : State) : Host.Outcome State Fault Refusal :=
  ctuOp core s fun p x s => s.putCtx p (x.set rd (f (x.get ra))).advance

/-- ADD (R49, R50: the sum modulo 2^64). -/
def execAdd (core : CoreId) (rd ra rb : Reg) (s : State) : Host.Outcome State Fault Refusal :=
  aluOp (fun a b => a + b) core rd ra rb s

/-- SUB (R49, R50: the difference modulo 2^64). -/
def execSub (core : CoreId) (rd ra rb : Reg) (s : State) : Host.Outcome State Fault Refusal :=
  aluOp (fun a b => a - b) core rd ra rb s

/-- AND (R49). -/
def execAluAnd (core : CoreId) (rd ra rb : Reg) (s : State) : Host.Outcome State Fault Refusal :=
  aluOp (fun a b => a &&& b) core rd ra rb s

/-- OR (R49). -/
def execAluOr (core : CoreId) (rd ra rb : Reg) (s : State) : Host.Outcome State Fault Refusal :=
  aluOp (fun a b => a ||| b) core rd ra rb s

/-- XOR (R49). -/
def execAluXor (core : CoreId) (rd ra rb : Reg) (s : State) : Host.Outcome State Fault Refusal :=
  aluOp (fun a b => a ^^^ b) core rd ra rb s

/-- SHL (R49). -/
def execShl (core : CoreId) (rd ra rb : Reg) (s : State) : Host.Outcome State Fault Refusal :=
  aluOp (fun a b => a <<< amountOf b) core rd ra rb s

/-- SHR (R49). -/
def execShr (core : CoreId) (rd ra rb : Reg) (s : State) : Host.Outcome State Fault Refusal :=
  aluOp (fun a b => a >>> amountOf b) core rd ra rb s

/-- SRA (R49). -/
def execSra (core : CoreId) (rd ra rb : Reg) (s : State) : Host.Outcome State Fault Refusal :=
  aluOp (fun a b => a.sshiftRight (amountOf b)) core rd ra rb s

/-- ROTL (R49). -/
def execRotl (core : CoreId) (rd ra rb : Reg) (s : State) : Host.Outcome State Fault Refusal :=
  aluOp (fun a b => a.rotateLeft (amountOf b)) core rd ra rb s

/-- SLT (R49). -/
def execSlt (core : CoreId) (rd ra rb : Reg) (s : State) : Host.Outcome State Fault Refusal :=
  aluOp (fun a b => truth (lessS a b)) core rd ra rb s

/-- SLTU (R49). -/
def execSltu (core : CoreId) (rd ra rb : Reg) (s : State) : Host.Outcome State Fault Refusal :=
  aluOp (fun a b => truth (lessU a b)) core rd ra rb s

/-- MIN (R49). -/
def execAluMin (core : CoreId) (rd ra rb : Reg) (s : State) : Host.Outcome State Fault Refusal :=
  aluOp (fun a b => pick (lessS a b) a b) core rd ra rb s

/-- MAX (R49). -/
def execAluMax (core : CoreId) (rd ra rb : Reg) (s : State) : Host.Outcome State Fault Refusal :=
  aluOp (fun a b => pick (lessS a b) b a) core rd ra rb s

/-- MINU (R49). -/
def execMinu (core : CoreId) (rd ra rb : Reg) (s : State) : Host.Outcome State Fault Refusal :=
  aluOp (fun a b => pick (lessU a b) a b) core rd ra rb s

/-- MAXU (R49). -/
def execMaxu (core : CoreId) (rd ra rb : Reg) (s : State) : Host.Outcome State Fault Refusal :=
  aluOp (fun a b => pick (lessU a b) b a) core rd ra rb s

/-- MUL (R49, R50). -/
def execMul (core : CoreId) (rd ra rb : Reg) (s : State) : Host.Outcome State Fault Refusal :=
  aluOp (fun a b => a * b) core rd ra rb s

/-- MULH (R49). -/
def execMulh (core : CoreId) (rd ra rb : Reg) (s : State) : Host.Outcome State Fault Refusal :=
  aluOp (mulHigh) core rd ra rb s

/-- MULHU (R49). -/
def execMulhu (core : CoreId) (rd ra rb : Reg) (s : State) : Host.Outcome State Fault Refusal :=
  aluOp (mulHighU) core rd ra rb s

/-- DIV (R50). -/
def execDiv (core : CoreId) (rd ra rb : Reg) (s : State) : Host.Outcome State Fault Refusal :=
  aluOp (divS) core rd ra rb s

/-- DIVU (R50). -/
def execDivu (core : CoreId) (rd ra rb : Reg) (s : State) : Host.Outcome State Fault Refusal :=
  aluOp (divU) core rd ra rb s

/-- REM (R50). -/
def execRem (core : CoreId) (rd ra rb : Reg) (s : State) : Host.Outcome State Fault Refusal :=
  aluOp (remS) core rd ra rb s

/-- REMU (R50). -/
def execRemu (core : CoreId) (rd ra rb : Reg) (s : State) : Host.Outcome State Fault Refusal :=
  aluOp (remU) core rd ra rb s

/-- CLZ (R50). -/
def execClz (core : CoreId) (rd ra rb : Reg) (s : State) : Host.Outcome State Fault Refusal :=
  aluOp (fun a _ => BitVec.ofNat 64 (leadingZeros a.toNat 64)) core rd ra rb s

/-- CTZ (R50). -/
def execCtz (core : CoreId) (rd ra rb : Reg) (s : State) : Host.Outcome State Fault Refusal :=
  aluOp (fun a _ => BitVec.ofNat 64 (trailingZeros a.toNat 0 64)) core rd ra rb s

/-- POPC (R49). -/
def execPopc (core : CoreId) (rd ra rb : Reg) (s : State) : Host.Outcome State Fault Refusal :=
  aluOp (fun a _ => BitVec.ofNat 64 (onesCount a.toNat 64)) core rd ra rb s

/-- ADDI (R48). -/
def execAddi (core : CoreId) (rd ra : Reg) (imm : BitVec 16) (s : State) : Host.Outcome State Fault Refusal :=
  immOp (fun a => (fun a i => a + sext16 i) a imm) core rd ra s

/-- ANDI (R48). -/
def execAndi (core : CoreId) (rd ra : Reg) (imm : BitVec 16) (s : State) : Host.Outcome State Fault Refusal :=
  immOp (fun a => (fun a i => a &&& zext16 i) a imm) core rd ra s

/-- ORI (R48). -/
def execOri (core : CoreId) (rd ra : Reg) (imm : BitVec 16) (s : State) : Host.Outcome State Fault Refusal :=
  immOp (fun a => (fun a i => a ||| zext16 i) a imm) core rd ra s

/-- XORI (R48). -/
def execXori (core : CoreId) (rd ra : Reg) (imm : BitVec 16) (s : State) : Host.Outcome State Fault Refusal :=
  immOp (fun a => (fun a i => a ^^^ zext16 i) a imm) core rd ra s

/-- SLTI (R48). -/
def execSlti (core : CoreId) (rd ra : Reg) (imm : BitVec 16) (s : State) : Host.Outcome State Fault Refusal :=
  immOp (fun a => (fun a i => truth (lessS a (sext16 i))) a imm) core rd ra s

/-- SHI with SHL (R48). -/
def execShiShl (core : CoreId) (rd ra : Reg) (amount : BitVec 6) (s : State) : Host.Outcome State Fault Refusal :=
  immOp (fun a => a <<< amount.toNat) core rd ra s

/-- SHI with SHR (R48). -/
def execShiShr (core : CoreId) (rd ra : Reg) (amount : BitVec 6) (s : State) : Host.Outcome State Fault Refusal :=
  immOp (fun a => a >>> amount.toNat) core rd ra s

/-- SHI with SRA (R48). -/
def execShiSra (core : CoreId) (rd ra : Reg) (amount : BitVec 6) (s : State) : Host.Outcome State Fault Refusal :=
  immOp (fun a => a.sshiftRight amount.toNat) core rd ra s

/-- SHI with ROTL (R48). -/
def execShiRotl (core : CoreId) (rd ra : Reg) (amount : BitVec 6) (s : State) : Host.Outcome State Fault Refusal :=
  immOp (fun a => a.rotateLeft amount.toNat) core rd ra s

/-- SEL (R49): RD := RA if RD is not 0, else RB. -/
def execAluSel (core : CoreId) (rd ra rb : Reg) (s : State) : Host.Outcome State Fault Refusal :=
  ctuOp core s fun p x s => s.putCtx p (x.set rd (if x.get rd ≠ 0 then x.get ra else x.get rb)).advance

/-- LUI (R48): RD := sext(IMM16) shl 16. -/
def execLui (core : CoreId) (rd : Reg) (imm : BitVec 16) (s : State) : Host.Outcome State Fault Refusal :=
  ctuOp core s fun p x s => s.putCtx p (x.set rd (sext16 imm <<< 16)).advance

/-- INSQ (R48). -/
def execInsq (core : CoreId) (rd : Reg) (quarter : BitVec 2) (imm : BitVec 16) (s : State) :
    Host.Outcome State Fault Refusal :=
  ctuOp core s fun p x s => s.putCtx p (x.set rd (insertQuarter (x.get rd) quarter imm)).advance

/-! ## Loads and stores -/

/-- The value of `n` loaded bytes, sign-extended or zero-extended to 64 bits (R48). -/
def loadValue (n : Nat) (signed : Bool) (v : Nat) : Word :=
  if signed then BitVec.ofInt 64 (sgn (8 * n) v) else BitVec.ofNat 64 v

/-- A load of `n` bytes (R48, R51); an illegal address is CTU fault 0x02 (R55). -/
def loadOp (n : Nat) (signed : Bool) (core : CoreId) (rd ra : Reg) (imm : BitVec 16) (s : State) :
    Host.Outcome State Fault Refusal :=
  ctuOp core s fun p x s =>
    if addressOk (x.address ra imm) n then
      s.putCtx p (x.set rd (loadValue n signed ((s.core p).sp.num (x.address ra imm) n))).advance
    else s.ctuFault p 2 (x.address ra imm)

/-- A store of the low `n` bytes of the register that the RD field names (R48, R51). -/
def storeOp (n : Nat) (core : CoreId) (rd ra : Reg) (imm : BitVec 16) (s : State) : Host.Outcome State Fault Refusal :=
  ctuOp core s fun p x s =>
    if addressOk (x.address ra imm) n then
      (s.spWrite p (x.address ra imm) (leBytes n (x.get rd).toNat)).putCtx p x.advance
    else s.ctuFault p 2 (x.address ra imm)

/-- LB (R48, R51). -/
def execLb (core : CoreId) (rd ra : Reg) (imm : BitVec 16) (s : State) : Host.Outcome State Fault Refusal :=
  loadOp 1 true core rd ra imm s

/-- LBU (R48, R51). -/
def execLbu (core : CoreId) (rd ra : Reg) (imm : BitVec 16) (s : State) : Host.Outcome State Fault Refusal :=
  loadOp 1 false core rd ra imm s

/-- LH (R48, R51). -/
def execLh (core : CoreId) (rd ra : Reg) (imm : BitVec 16) (s : State) : Host.Outcome State Fault Refusal :=
  loadOp 2 true core rd ra imm s

/-- LHU (R48, R51). -/
def execLhu (core : CoreId) (rd ra : Reg) (imm : BitVec 16) (s : State) : Host.Outcome State Fault Refusal :=
  loadOp 2 false core rd ra imm s

/-- LW (R48, R51). -/
def execLw (core : CoreId) (rd ra : Reg) (imm : BitVec 16) (s : State) : Host.Outcome State Fault Refusal :=
  loadOp 4 true core rd ra imm s

/-- LWU (R48, R51). -/
def execLwu (core : CoreId) (rd ra : Reg) (imm : BitVec 16) (s : State) : Host.Outcome State Fault Refusal :=
  loadOp 4 false core rd ra imm s

/-- LD (R48, R51). -/
def execLd (core : CoreId) (rd ra : Reg) (imm : BitVec 16) (s : State) : Host.Outcome State Fault Refusal :=
  loadOp 8 true core rd ra imm s

/-- SB (R48, R51). -/
def execSb (core : CoreId) (rd ra : Reg) (imm : BitVec 16) (s : State) : Host.Outcome State Fault Refusal :=
  storeOp 1 core rd ra imm s

/-- SH (R48, R51). -/
def execSh (core : CoreId) (rd ra : Reg) (imm : BitVec 16) (s : State) : Host.Outcome State Fault Refusal :=
  storeOp 2 core rd ra imm s

/-- SW (R48, R51). -/
def execSw (core : CoreId) (rd ra : Reg) (imm : BitVec 16) (s : State) : Host.Outcome State Fault Refusal :=
  storeOp 4 core rd ra imm s

/-- SD (R48, R51). -/
def execSd (core : CoreId) (rd ra : Reg) (imm : BitVec 16) (s : State) : Host.Outcome State Fault Refusal :=
  storeOp 8 core rd ra imm s

/-! ## Branches and jumps -/

/-- A branch: to PC + 4·sext(OFF16) if the comparison holds, else to the next instruction (R48). -/
def branchOp (test : Word → Word → Bool) (core : CoreId) (ra rb : Reg) (off : BitVec 16) (s : State) :
    Host.Outcome State Fault Refusal :=
  ctuOp core s fun p x s =>
    s.putCtx p (if test (x.get ra) (x.get rb) then { x with pc := branchTarget x.pc off } else x.advance)

/-- BEQ (R48). -/
def execBeq (core : CoreId) (ra rb : Reg) (off : BitVec 16) (s : State) : Host.Outcome State Fault Refusal :=
  branchOp (fun a b => a == b) core ra rb off s

/-- BNE (R48). -/
def execBne (core : CoreId) (ra rb : Reg) (off : BitVec 16) (s : State) : Host.Outcome State Fault Refusal :=
  branchOp (fun a b => a != b) core ra rb off s

/-- BLT (R48). -/
def execBlt (core : CoreId) (ra rb : Reg) (off : BitVec 16) (s : State) : Host.Outcome State Fault Refusal :=
  branchOp (lessS) core ra rb off s

/-- BGE (R48). -/
def execBge (core : CoreId) (ra rb : Reg) (off : BitVec 16) (s : State) : Host.Outcome State Fault Refusal :=
  branchOp (fun a b => !lessS a b) core ra rb off s

/-- BLTU (R48). -/
def execBltu (core : CoreId) (ra rb : Reg) (off : BitVec 16) (s : State) : Host.Outcome State Fault Refusal :=
  branchOp (lessU) core ra rb off s

/-- BGEU (R48). -/
def execBgeu (core : CoreId) (ra rb : Reg) (off : BitVec 16) (s : State) : Host.Outcome State Fault Refusal :=
  branchOp (fun a b => !lessU a b) core ra rb off s

/-- JAL (R48). -/
def execJal (core : CoreId) (rd : Reg) (off : BitVec 21) (s : State) : Host.Outcome State Fault Refusal :=
  ctuOp core s fun p x s => s.putCtx p { x.set rd (linkValue x.pc) with pc := jumpTarget x.pc off }

/-- JALR (R48): to (RA + sext(IMM16)) and 0xFFFC, with RA read before RD is written. -/
def execJalr (core : CoreId) (rd ra : Reg) (imm : BitVec 16) (s : State) : Host.Outcome State Fault Refusal :=
  ctuOp core s fun p x s =>
    s.putCtx p { x.set rd (linkValue x.pc) with pc := ((x.get ra + sext16 imm).truncate 16) &&& 0xFFFC }

/-! ## Descriptors -/

/-- PUSHD (R52, R58): fault 0x06 for engine 3 or a bad address; stalls while the queue is full. -/
def execPushd (core : CoreId) (engine : BitVec 2) (ra : Reg) (s : State) : Host.Outcome State Fault Refusal :=
  ctuOp core s fun p x s =>
    if h : engine.toNat < 3 then
      if blockOk (x.get ra).toNat (descSize engine.toNat) then
        if s.queueOpen p engine.toNat then (s.pushDesc p engine.toNat (x.get ra).toNat).putCtx p x.advance
        else
          (s.stallCtx p x (.push ⟨engine.toNat, h⟩ (x.get ra).toNat)).countClocks (Key.queueFullClocks (physCluster p))
      else s.ctuFault p 6 (x.get ra).toNat
    else s.ctuFault p 6 (x.get ra).toNat

/-- PUSHDN (R52, R58): RD := 0 if pushed, 1 if the queue was full. -/
def execPushdn (core : CoreId) (engine : BitVec 2) (rd ra : Reg) (s : State) : Host.Outcome State Fault Refusal :=
  ctuOp core s fun p x s =>
    if engine.toNat < 3 ∧ blockOk (x.get ra).toNat (descSize engine.toNat) then
      if s.queueOpen p engine.toNat then
        (s.pushDesc p engine.toNat (x.get ra).toNat).putCtx p (x.set rd 0).advance
      else s.putCtx p (x.set rd 1).advance
    else s.ctuFault p 6 (x.get ra).toNat

/-! ## Sync counters -/

/-- The counter number RA[7:0] (R52). -/
def ctrOf (x : Ctx) (ra : Reg) : BitVec 8 := (x.get ra).truncate 8

/-- SCWAIT (R52, R64). -/
def execScwait (core : CoreId) (ra rb : Reg) (s : State) : Host.Outcome State Fault Refusal :=
  ctuOp core s fun p x s =>
    if reached ((s.core p).ctr (ctrOf x ra).toNat) (x.get rb).toNat then s.putCtx p x.advance
    else s.stallCtx p x (.sync (ctrOf x ra) ((x.get rb).truncate 32))

/-- SCTEST (R52, R64). -/
def execSctest (core : CoreId) (rd ra rb : Reg) (s : State) : Host.Outcome State Fault Refusal :=
  ctuOp core s fun p x s =>
    s.putCtx p (x.set rd (truth (reached ((s.core p).ctr (ctrOf x ra).toNat) (x.get rb).toNat))).advance

/-- SCREAD (R52). -/
def execScread (core : CoreId) (rd ra : Reg) (s : State) : Host.Outcome State Fault Refusal :=
  ctuOp core s fun p x s => s.putCtx p (x.set rd (BitVec.ofNat 64 ((s.core p).ctr (ctrOf x ra).toNat))).advance

/-- SCSET (R52, R65). -/
def execScset (core : CoreId) (ra rb : Reg) (s : State) : Host.Outcome State Fault Refusal :=
  ctuOp core s fun p x s =>
    (s.updCore p (·.setCtr (ctrOf x ra).toNat (x.get rb).toNat)).putCtx p x.advance

/-- SCADD (R52, R63): adds modulo 2^32. -/
def execScadd (core : CoreId) (ra rb : Reg) (s : State) : Host.Outcome State Fault Refusal :=
  ctuOp core s fun p x s =>
    (s.updCore p (fun c => c.setCtr (ctrOf x ra).toNat (c.ctr (ctrOf x ra).toNat + (x.get rb).toNat))).putCtx p x.advance

/-! ## Queues -/

/-- The payload bytes a slot holds (R85, R87). -/
def slotPayload (slotLog2 : Nat) : Nat := 2 ^ slotLog2 - 16

/-- A configuration block with a mode other than 0 is valid (R83). -/
def qcfgValid (q blk : Nat) : Bool :=
  let base := fld blk 0 21
  let sl := fld blk 24 5
  let cl := fld blk 32 4
  let mode := fld blk 36 2
  (if q = 16 then sl == 5 && mode == 1 else decide (6 ≤ sl) && decide (sl ≤ 16) && decide (mode ≤ 2))
    && decide (1 ≤ cl) && decide (cl ≤ 12) && decide (base % 2 ^ sl = 0) && spRange base (2 ^ (cl + sl))

/-- The queue with a valid block of a mode other than 0 in effect (R83). Entries still held stay; the ring starts at its
first slot. -/
def Queue.enable (x : Queue) (blk : Nat) : Queue :=
  { x with mode := fld blk 36 2, base := fld blk 0 21, slotLog2 := fld blk 24 5, countLog2 := fld blk 32 4,
           event := bit blk 38, srcNode := fld blk 64 32, srcEp := fld blk 96 16, next := 0 }

/-- QCFG (R52, R83, R84, R87). A block with MODE = 0 leaves the rest of the queue's configuration, its EVENT bit too, so that a message under way
to it still posts CHANNEL_READY when it completes: DESIGN CHOICE (log entry 27). Where the queue index and the block address are both bad R55
gives no order: DESIGN CHOICE, cause 0x03 first (log entry 55). -/
def execQcfg (core : CoreId) (ra rb : Reg) (s : State) : Host.Outcome State Fault Refusal :=
  ctuOp core s fun p x s =>
    let q := (x.get ra).toNat
    let a := (x.get rb).toNat
    let blk := (s.core p).sp.num a 16
    let old := (s.core p).queue q
    if 16 < q then s.ctuFault p 3 q
    else if !blockOk a 16 then s.ctuFault p 2 a
    else if fld blk 36 2 = 0 then (s.updCore p (·.setQueue q { old with mode := 0 })).putCtx p x.advance
    else if old.mode ≠ 0 ∨ qcfgValid q blk = false then s.ctuFault p 4 a
    else
      let s1 := (s.updCore p (·.setQueue q (old.enable blk))).putCtx p x.advance
      if fld blk 36 2 = 2 then
        s1.sendGrant (fld blk 64 32) (fld blk 96 16) core.toNat q (2 ^ fld blk 32 4) (slotPayload (fld blk 24 5))
      else s1

/-- QWAIT (R52): RD := the head entry's address, or a stall until there is one. -/
def execQwait (core : CoreId) (rd ra : Reg) (s : State) : Host.Outcome State Fault Refusal :=
  ctuOp core s fun p x s =>
    let q := (x.get ra).toNat
    if h : q < 17 then
      match ((s.core p).queue q).entries with
      | a :: _ => s.putCtx p (x.set rd (BitVec.ofNat 64 a)).advance
      | [] => s.stallCtx p x (.queue ⟨q, h⟩ rd s.ftime)
    else s.ctuFault p 3 q

/-- QPEEK (R52). -/
def execQpeek (core : CoreId) (rd ra : Reg) (s : State) : Host.Outcome State Fault Refusal :=
  ctuOp core s fun p x s =>
    let q := (x.get ra).toNat
    if 16 < q then s.ctuFault p 3 q
    else
      s.putCtx p (x.set rd (match ((s.core p).queue q).entries with
        | a :: _ => BitVec.ofNat 64 a
        | [] => BitVec.allOnes 64)).advance

/-- QREL (R52, R84, R87, R90): more entries than are occupied is fault 0x07. -/
def execQrel (core : CoreId) (ra rb : Reg) (s : State) : Host.Outcome State Fault Refusal :=
  ctuOp core s fun p x s =>
    let q := (x.get ra).toNat
    let n := (x.get rb).toNat % 2 ^ 13
    let old := (s.core p).queue q
    if 16 < q then s.ctuFault p 3 q
    else if old.entries.length < n then s.ctuFault p 7 n
    else
      let s1 := (s.updCore p (·.setQueue q { old with entries := old.entries.drop n })).putCtx p x.advance
      if old.mode = 2 then s1.sendReturn old.srcNode old.srcEp core.toNat q n else s1

/-- The queue status word (R53). -/
def Queue.status (q : Queue) : Nat := q.entries.length + 2 ^ 16 * q.claimed.length + 2 ^ 32 * q.mode

/-- QSTAT (R52, R53). -/
def execQstat (core : CoreId) (rd ra : Reg) (s : State) : Host.Outcome State Fault Refusal :=
  ctuOp core s fun p x s =>
    let q := (x.get ra).toNat
    if 16 < q then s.ctuFault p 3 q
    else s.putCtx p (x.set rd (BitVec.ofNat 64 ((s.core p).queue q).status)).advance

/-! ## System operations -/

/-- The lockstep copies of a core are compared, at a SWAPPT or HALT (R511). -/
def State.lockCheck (s : State) (p : Nat) : State :=
  if s.get Key.redundancyEnable = 1 then s.updCore p (fun c => { c with crc := c.crc.compare }) else s

/-- HALT (R45, R52): the program counter stays at the instruction. -/
def execHalt (core : CoreId) (s : State) : Host.Outcome State Fault Refusal :=
  ctuOp core s fun p _ s => (s.lockCheck p).haltCtx p

/-- YIELD (R52, R246): in the companion, returns the control unit to the primary when its queue holds an entry. -/
def execCtuYield (core : CoreId) (s : State) : Host.Outcome State Fault Refusal :=
  ctuOp core s fun p x s =>
    let s1 := s.putCtx p x.advance
    if (s.core p).onComp && (s.core p).primaryEntry then
      s1.switchBack p
    else s1

/-- IFILL (R46, R52, R55): stalls the context until the copy is complete. -/
def execIfill (core : CoreId) (rd ra rb : Reg) (s : State) : Host.Outcome State Fault Refusal :=
  ctuOp core s fun p x s =>
    let src := (x.get ra).toNat
    let len := (x.get rb).toNat
    let dst := (x.get rd).toNat
    if src + len ≤ 0x200000 ∧ dst + len ≤ 0x10000 ∧ len % 4 = 0 then
      s.putCtx p { x with stall := some (.ifill src len dst) }
    else s.ctuFault p 5 src

/-- The end of an IFILL copy (R46). No effect where the running context is not in an IFILL. -/
def execIfillComplete (core : CoreId) (s : State) : Host.Outcome State Fault Refusal :=
  match s.physOf core.toNat with
  | none => .next s
  | some p =>
    let c := s.core p
    match c.ctx.stall with
    | some (.ifill src len dst) =>
      .next ((s.updCore p (fun c => { c with ibuf := c.ibuf.writeN dst (c.sp.readN src len) })).putCtx p
        { c.ctx.advance with stall := none })
    | _ => .next s

/-- DRD (R52, R54): the context stalls until the value returns. -/
def execDrd (core : CoreId) (rd ra : Reg) (s : State) : Host.Outcome State Fault Refusal :=
  ctuOp core s fun p x s =>
    s.putCtx p { x with stall := some (.drd (fld (x.get ra).toNat 8 16) (fld (x.get ra).toNat 0 8) rd) }

/-- FTIME (R52, R355). -/
def execFtime (core : CoreId) (rd : Reg) (s : State) : Host.Outcome State Fault Refusal :=
  ctuOp core s fun p x s => s.putCtx p (x.set rd (BitVec.ofNat 64 s.ftime)).advance

/-- CTXID (R52). -/
def execCtxid (core : CoreId) (rd : Reg) (s : State) : Host.Outcome State Fault Refusal :=
  ctuOp core s fun p x s => s.putCtx p (x.set rd (truth (s.core p).onComp)).advance

/-- COREID (R52): own node address in [63:32], own logical core ID in [12:0]. -/
def execCoreid (core : CoreId) (rd : Reg) (s : State) : Host.Outcome State Fault Refusal :=
  ctuOp core s fun p x s => s.putCtx p (x.set rd (BitVec.ofNat 64 (2 ^ 32 * s.node + core.toNat))).advance

/-- CYCLES (R52): the count of arithmetic clocks since program load, which has advanced by a free amount since it was last
read (log entry 6). -/
def execCycles (core : CoreId) (rd : Reg) (s : State) : Host.Outcome State Fault Refusal :=
  ctuOp core s fun p x s =>
    let n := ((s.core p).cycles + s.free) % 2 ^ 64
    ((s.updCore p (fun c => { c with cycles := n })).putCtx p (x.set rd (BitVec.ofNat 64 n)).advance).tick

/-- BACKFILL_SWITCH (R245): the control unit switches to the companion when every condition holds; otherwise no effect. -/
def execBackfillSwitch (core : CoreId) (s : State) : Host.Outcome State Fault Refusal :=
  match s.physOf core.toNat with
  | none => .next s
  | some p =>
    let c := s.core p
    match c.primary.stall with
    | some (.queue q _ since) =>
      if s.flag Key.backfillEnable ∧ s.get Key.companionPartition ≠ 0 ∧ c.onComp = false ∧ s.coreHeld p = false
          ∧ (c.companion.st = .ready ∨ c.companion.st = .waiting)
          ∧ q.val < 16 ∧ bit (s.get Key.pipeChannelMask) q.val ∧ (c.queue q.val).entries = []
          ∧ s.get Key.backfillThreshold ≤ s.ftime - since then
        .next ((s.updCore p (fun c => { c with onComp := true })).count (Key.backfillSwitches (physCluster p)) 1)
      else .next s
    | _ => .next s

end Sys2Proof.Machine
end

