-- ==== Sys2Proof/Machine/Curve.lean ====
section
/-!
DEFINITION. Ed448 of RFC 8032 and X448 of RFC 7748, which R517 names: the field of 2^448 − 2^224 − 1, the Edwards curve with d = −39081, and
the Montgomery ladder.
-/
namespace Sys2Proof.Machine

/-! ## The field -/

/-- The prime of both curves. -/
def prime448 : Nat := 2 ^ 448 - 2 ^ 224 - 1

def fMul (a b : Nat) : Nat := a * b % prime448
def fAdd (a b : Nat) : Nat := (a + b) % prime448
def fSub (a b : Nat) : Nat := (a + (prime448 - b % prime448)) % prime448

/-- A power in the field, by the bits of the exponent below place `n`, highest first. -/
def fPow (a e : Nat) : Nat → Nat → Nat
  | 0, r => r
  | n + 1, r => fPow a e n (if bit e n then fMul (fMul r r) a else fMul r r)

/-- The inverse; 0 for 0. -/
def fInv (a : Nat) : Nat := fPow a (prime448 - 2) 448 1

/-! ## Ed448 (RFC 8032, section 5.2) -/

/-- −39081 in the field. -/
def edwardsD : Nat := prime448 - 39081

/-- The order of the base point. -/
def edwardsOrder : Nat := 2 ^ 446 - 13818066809895115352007386748515426880336692474882178609894547503885

/-- A point in projective coordinates. -/
abbrev EdPoint := Nat × Nat × Nat

/-- The base point. -/
def edwardsBase : EdPoint :=
  (224580040295924300187604334099896036246789641632564134246125461686950415467406032909029192869357953282578032075146446173674602635247710,
   298819210078481492676017930443930673437544040154080242095928241372331506189835876003536878655418784733982303233503462500531545062832660, 1)

/-- The sum of two points, equal ones included. -/
def edAdd (p q : EdPoint) : EdPoint :=
  let zz := fMul p.2.2 q.2.2
  let sq := fMul zz zz
  let xx := fMul p.1 q.1
  let yy := fMul p.2.1 q.2.1
  let e := fMul edwardsD (fMul xx yy)
  let cross := fSub (fSub (fMul (fAdd p.1 p.2.1) (fAdd q.1 q.2.1)) xx) yy
  (fMul (fMul zz (fSub sq e)) cross, fMul (fMul zz (fAdd sq e)) (fSub yy xx), fMul (fSub sq e) (fAdd sq e))

/-- A multiple of a point, by the bits of the scalar below place `n`, highest first. -/
def edMul (k : Nat) (p : EdPoint) : Nat → EdPoint → EdPoint
  | 0, r => r
  | n + 1, r => edMul k p n (if bit k n then edAdd (edAdd r r) p else edAdd r r)

/-- A multiple of a point. -/
def edTimes (k : Nat) (p : EdPoint) : EdPoint := edMul k p 456 (0, 1, 1)

/-- The 57 bytes of a point: y, and the lowest bit of x in the highest place. -/
def edEncode (p : EdPoint) : List Byte :=
  let w := fInv p.2.2
  leBytes 57 (fMul p.2.1 w + fMul p.1 w % 2 * 2 ^ 455)

/-- The point that 57 bytes encode, if they encode one. -/
def edDecode (bs : List Byte) : Option EdPoint :=
  let v := leNat bs
  let y := v % 2 ^ 455
  let sign := v / 2 ^ 455
  let yy := fMul y y
  let u := fSub yy 1
  let w := fSub (fMul edwardsD yy) 1
  let u3w := fMul (fMul (fMul u u) u) w
  let x := fMul u3w (fPow (fMul (fMul (fMul u u) u3w) (fMul w w)) ((prime448 - 3) / 4) 448 1)
  if bs.length ≠ 57 ∨ prime448 ≤ y ∨ fMul w (fMul x x) ≠ u ∨ (x = 0 ∧ sign = 1) then none
  else some (if x % 2 = sign then x else fSub 0 x, y, 1)

/-- The hash of pure Ed448 with an empty context, as 114 bytes. -/
def edHash (m : List Byte) : List Byte := shake256 ("SigEd448".toList.map (fun c => BitVec.ofNat 8 c.toNat) ++ [0, 0] ++ m) 114

/-- The secret scalar and the prefix of a seed. -/
def edSecret (seed : List Byte) : Nat × List Byte :=
  let h := shake256 seed 114
  let v := leNat (h.take 57) % 2 ^ 447
  (v - v % 4 + 2 ^ 447, h.drop 57)

/-- The public key of a seed. -/
@[irreducible] def ed448Public (seed : List Byte) : List Byte := edEncode (edTimes (edSecret seed).1 edwardsBase)

/-- The signature of a message. -/
@[irreducible] def ed448Sign (seed m : List Byte) : List Byte :=
  let a := edSecret seed
  let r := leNat (edHash (a.2 ++ m)) % edwardsOrder
  let point := edEncode (edTimes r edwardsBase)
  let k := leNat (edHash (point ++ ed448Public seed ++ m)) % edwardsOrder
  point ++ leBytes 57 ((r + k * a.1) % edwardsOrder)

/-- A signature of a message by a public key is valid: the group equation with the cofactor 4, as RFC 8032 gives it first. -/
@[irreducible] def ed448Valid (key m sig : List Byte) : Bool :=
  let s := leNat (sig.drop 57)
  match edDecode (sig.take 57), edDecode key with
  | some r, some a =>
    let k := leNat (edHash (sig.take 57 ++ key ++ m)) % edwardsOrder
    decide (sig.length = 114) && decide (s < edwardsOrder)
      && edEncode (edTimes (4 * s) edwardsBase) == edEncode (edAdd (edTimes 4 r) (edTimes (4 * k) a))
  | _, _ => false

/-! ## X448 (RFC 7748, section 5) -/

/-- One step of the ladder on (x2, z2, x3, z3) for the point with coordinate `u`. -/
def ladderStep (u : Nat) (c : Nat × Nat × Nat × Nat) : Nat × Nat × Nat × Nat :=
  let a := fAdd c.1 c.2.1
  let b := fSub c.1 c.2.1
  let aa := fMul a a
  let bb := fMul b b
  let e := fSub aa bb
  let da := fMul (fSub c.2.2.1 c.2.2.2) a
  let cb := fMul (fAdd c.2.2.1 c.2.2.2) b
  let sum := fAdd da cb
  let diff := fSub da cb
  (fMul aa bb, fMul e (fAdd aa (fMul 39081 e)), fMul sum sum, fMul u (fMul diff diff))

/-- The two points change places. -/
def ladderSwap (c : Nat × Nat × Nat × Nat) : Nat × Nat × Nat × Nat := (c.2.2.1, c.2.2.2, c.1, c.2.1)

/-- The ladder over the bits of the scalar below place `n`, highest first. -/
def ladder (k u : Nat) : Nat → Nat × Nat × Nat × Nat → Nat × Nat × Nat × Nat
  | 0, c => c
  | n + 1, c => ladder k u n (if bit k n then ladderSwap (ladderStep u (ladderSwap c)) else ladderStep u c)

/-- X448 of a scalar and a coordinate. -/
def x448 (scalar point : List Byte) : List Byte :=
  let v := leNat (scalar.take 56) % 2 ^ 447
  let u := leNat (point.take 56) % prime448
  let c := ladder (v - v % 4 + 2 ^ 447) u 448 (1, 0, u, 1)
  leBytes 56 (fMul c.1 (fInv c.2.1))

/-- The public key of a private key. -/
@[irreducible] def x448Public (priv : List Byte) : List Byte := x448 priv (leBytes 56 5)

/-- The secret that a private key shares with a public key. -/
@[irreducible] def x448Shared (priv pub : List Byte) : List Byte := x448 priv pub

end Sys2Proof.Machine
end

