-- ==== Sys2Proof/Machine/Barrier.lean ====
section
/-!
DEFINITION. The bucket sequencer (R269, R270), the commit barrier (R290, R291), and the fields and the completion of a Troy
command (R294, R297).
-/
namespace Sys2Proof.Machine

/-! ## The sequencer (R269, R270) -/

/-- off(b). -/
def Sequencer.off (q : Sequencer) (b : Nat) : Nat := (b + 65536 - q.first) % 65536

/-- The open step has unfinished buckets. -/
def Sequencer.unfinished (q : Sequencer) : Bool := q.isOpen && decide (q.off q.u < q.count)

/-- The step is open, and the bucket is one of it that U has not passed. -/
def Sequencer.admits (q : Sequencer) (b : Nat) : Bool := q.isOpen && decide (q.off b < q.count) && decide (q.off q.u ≤ q.off b)

/-- exchange_start and agree_start do not refuse. -/
def Sequencer.mayExchange (q : Sequencer) (b : Nat) : Bool :=
  q.admits b && !q.fin.contains (b % 256) && !q.run.contains (b % 256)

/-- Another bucket keeps the context of bucket `b` (R271). -/
def Sequencer.keptFrom (q : Sequencer) (b : Nat) : Bool := q.holds.any (fun h => h % 256 == b % 256 && h != b)

/-- The bucket lies within the window. -/
def Sequencer.inWindow (q : Sequencer) (b : Nat) : Bool := decide (q.off b < q.off q.u + 256)

/-- U passes finished buckets; the first argument bounds how many. -/
def Sequencer.pass : Nat → Sequencer → Sequencer
  | 0, q => q
  | n + 1, q =>
    if q.off q.u < q.count ∧ q.fin.contains (q.u % 256) then
      Sequencer.pass n { q with fin := q.fin.filter (· != q.u % 256), u := (q.u + 1) % 65536 }
    else q

/-- agree_end of a bucket that is finished; it no longer keeps its context (R271). -/
def Sequencer.finish (q : Sequencer) (b : Nat) : Sequencer :=
  Sequencer.pass 257 { q with holds := q.holds.filter (· != b), fin := if q.fin.contains (b % 256) then q.fin else q.fin ++ [b % 256] }

/-- The step is opened. -/
def Sequencer.opened (q : Sequencer) (step first count : Nat) : Sequencer :=
  { q with isOpen := true, step := step, first := first, count := count, u := first, fin := [], run := [], zones := [] }

/-! ## Fields of a command record (R294) -/

def tCmd (r : Nat) : Nat := fld r 0 8
def tProgram (r : Nat) : Nat := fld r 8 4
def tTable (r : Nat) : Nat := fld r 16 8
def tVerdict (r : Nat) : Nat := fld r 24 3
def tRerun (r : Nat) : Bool := bit r 27
def tBf16 (r : Nat) : Bool := bit r 28
def tE4m3 (r : Nat) : Bool := bit r 29
def tBank (r : Nat) : Bool := bit r 31
def tStep (r : Nat) : Nat := fld r 32 32
def tBucket (r : Nat) : Nat := fld r 64 16
def tExp (r : Nat) : Nat := fld r 80 16
def tCount (r : Nat) : Nat := fld r 96 25
def tCore (r : Nat) : Nat := fld r 128 16
def tCtr (r : Nat) : Nat := fld r 144 8
def tResult (r : Nat) : Nat := fld r 160 21
def tLedger (r : Nat) : Nat := fld r 192 18
def tLand (r : Nat) : Nat := fld r 224 40
def tMaster (r : Nat) : Nat := fld r 272 40
def tM1 (r : Nat) : Nat := fld r 320 40
def tM1Scale (r : Nat) : Nat := fld r 368 40
def tV (r : Nat) : Nat := fld r 416 40
def tVScale (r : Nat) : Nat := fld r 464 40
def tBankOffset (r : Nat) : Nat := fld r 512 40
def tBf16Shard (r : Nat) : Nat := fld r 560 40
def tE4m3Shard (r : Nat) : Nat := fld r 608 40
def tShardElem (r : Nat) : Nat := fld r 656 25
def tScaleOff (r : Nat) : Nat := fld r 688 32

/-! ## Completion (R295, R297) -/

/-- The counts of a completion record: blocks updated, skipped by the ledger, skipped by the verdict, left untouched, and
elements whose new master is not finite. -/
structure TroyCounts where
  updated : Nat
  skipped : Nat
  passed  : Nat
  errors  : Nat
  nonfin  : Nat
deriving DecidableEq, Repr

/-- No block touched. -/
def TroyCounts.none : TroyCounts := { updated := 0, skipped := 0, passed := 0, errors := 0, nonfin := 0 }

/-- The completion record (R297). -/
def troyRecord (r status : Nat) (k : TroyCounts) : List Byte :=
  leBytes 32 (status + tCmd r * 2 ^ 8 + tBucket r * 2 ^ 16 + tStep r * 2 ^ 32 + k.updated % 2 ^ 32 * 2 ^ 64
    + k.skipped % 2 ^ 32 * 2 ^ 96 + k.passed % 2 ^ 32 * 2 ^ 128 + k.errors % 2 ^ 32 * 2 ^ 160 + k.nonfin % 2 ^ 32 * 2 ^ 192)

/-- The counter and amount of a Troy status (R297). -/
def State.troyStatusCount (s : State) (n status errors : Nat) : State :=
  match status with
  | 0 => s
  | 3 => s.count (Key.troyLedgerErrors n) errors
  | 4 => s.count (Key.troyReadUncorrectable n) 1
  | 5 => s.count Key.commitRefused 1
  | _ => s.count (Key.troyRefused n) 1

/-- A command has somewhere to complete: NOTIFY_CORE is valid and RESULT_ADDR aligned (R295). -/
def State.troyPlace (s : State) (r : Nat) : Option Nat := if tResult r % 32 = 0 then s.physOf (tCore r) else none

/-- A command completes (R297): the record, then NOTIFY_CTR, both dropped where the core is under reset (R480); one with nowhere to complete shows
only in TROY_REFUSED. -/
def State.troyFinish (s : State) (n r status : Nat) (k : TroyCounts) : State :=
  match s.troyPlace r with
  | none => s.count (Key.troyRefused n) 1
  | some q =>
    let s1 := if s.coreHeld q then s else (s.spWrite q (tResult r) (troyRecord r status k)).incCtr q (tCtr r) 1
    (s1.count (Key.troyCommands n) 1).troyStatusCount n status k.errors

/-! ## The barrier (R290, R291) -/

/-- A step is released: every COMMIT for it that is armed or held completes with OK (log entry 17). -/
def State.releaseStep (s : State) (step : Nat) : State :=
  let mine := fun (c : HeldCommit) => tStep c.cmd == step
  (s.commits.filter mine).foldl (fun s c => s.troyFinish c.setting c.cmd 0 TroyCounts.none)
    { s with seq := { s.seq with released := some step }, commits := s.commits.filter (fun c => !mine c) }

/-- The barrier releases once a COMMIT is armed and the agreement of its step is complete (R290). -/
def State.releaseIfDue (s : State) : State :=
  if s.seq.isOpen ∧ s.seq.unfinished = false ∧ s.commits.any (fun c => c.armed && tStep c.cmd == s.seq.step) then
    (s.count Key.commitReleases 1).releaseStep s.seq.step
  else s

/-- Held COMMITs of the step that has been opened are armed (R291). -/
def State.armHeld (s : State) : State :=
  { s with commits := s.commits.map (fun c => if tStep c.cmd = s.seq.step then { c with armed := true } else c) }

end Sys2Proof.Machine
end

