-- ==== Sys2Proof/Machine/Clasp.lean ====
section
/-!
DEFINITION. The Clasp: descriptor fields of collectives and buckets (R264, R406), the algorithms as the parts each member sends
and receives (R407, R420, R421), the combining modes (R408), openers (R415, R416), and how a collective moves on.
-/
namespace Sys2Proof.Machine

/-! ## Descriptor fields (R406, R264) -/

/-- SRC_HBM, DST_HBM. -/
def kSrcHbm (d : Nat) : Bool := bit d 149
def kDstHbm (d : Nat) : Bool := bit d 150
/-- AXIS, MODE, GROUP, RANK, CONTEXT, KEY, ROOT. -/
def kAxis (d : Nat) : Nat := fld d 192 2
def kMode (d : Nat) : Nat := fld d 194 3
def kGroup (d : Nat) : Nat := fld d 200 7
def kRank (d : Nat) : Nat := fld d 208 6
def kContext (d : Nat) : Nat := fld d 216 10
def kKey (d : Nat) : Nat := fld d 232 16
def kRoot (d : Nat) : Nat := fld d 248 6
/-- SRC_DEV, STEP, DST_DEV, DST_ADDR, LAUNCH_TIME. -/
def kSrcDev (d : Nat) : Nat := fld d 256 40
def kStep (d : Nat) : Nat := fld d 352 32
def kDstDev (d : Nat) : Nat := fld d 384 40
def kDstAddr (d : Nat) : Nat := fld d 424 21
def kLaunch (d : Nat) : Nat := fld d 448 64
/-- ALGO, at one place in both. -/
def kAlgo (d : Nat) : Nat := fld d 182 2
/-- ATTEMPT, BUCKET_ID, GRAIN_EXP, N_PARAMS, GROUP, RANK of a bucket descriptor. -/
def uAttempt (d : Nat) : Nat := fld d 190 2
def uId (d : Nat) : Nat := fld d 192 16
def uExp (d : Nat) : Nat := fld d 208 16
def uParams (d : Nat) : Nat := fld d 224 25
def uGroup (d : Nat) : Nat := fld d 249 7
def uRank (d : Nat) : Nat := fld d 256 6
/-- ACC_ADDR, TALLY_COUNT, TALLY_ADDR, LAND_ADDR, SIDE_ADDR, SIDE_COUNT, STEP. -/
def uAcc (d : Nat) : Nat := fld d 264 40
def uTallies (d : Nat) : Nat := fld d 304 13
def uTally (d : Nat) : Nat := fld d 352 40
def uLand (d : Nat) : Nat := fld d 392 40
def uSide (d : Nat) : Nat := fld d 432 21
def uSides (d : Nat) : Nat := fld d 456 12
def uStep (d : Nat) : Nat := fld d 480 32

/-! ## The algorithm (R407) -/

/-- A power of two that an axis can have as its size. -/
def isPow2 (d : Nat) : Bool := [1, 2, 4, 8, 16, 32, 64].contains d

/-- What ALGO resolves to on an axis: 1 RING, 2 HALVING, or nothing where it is a reserved value. -/
def State.algoOf (s : State) (a d algo : Nat) : Option Nat :=
  let ring := s.wraps a || decide (d ≤ 2)
  match algo with
  | 0 => if isPow2 d then some 2 else if ring then some 1 else none
  | 1 => if ring then some 1 else none
  | 2 => if isPow2 d then some 2 else none
  | _ => none

/-- The algorithm of GROUP_FORM and BARRIER; 0 is the line form. -/
def State.formAlgo (s : State) (a d : Nat) : Nat := if isPow2 d then 2 else if s.wraps a || decide (d ≤ 2) then 1 else 0

/-! ## The parts a member sends and receives (R420, R421) -/

/-- A part that a member of a collective sends to a rank (`out`) or receives from it: the PHASE of its packets, the place of
the part in the member's own order, the bytes of the collective's data, and whether it is combined or stored as it is. -/
structure Leg where
  out   : Bool
  peer  : Nat
  phase : Nat
  order : Nat
  lo    : Nat
  hi    : Nat
  add   : Bool
deriving DecidableEq, Repr

/-- The bytes of the data proper: the checksums of an exchange lie beyond them (log entry 16). -/
def Coll.main (c : Coll) : Nat := if c.op = 0x23 then c.length else c.data.length

/-- The bytes of a slice or contribution (R261, R410). -/
def Coll.slot (c : Coll) : Nat :=
  if c.op = 0x33 then c.length
  else if c.op = 0x23 then 32768 * ceilDiv c.length (32768 * c.group)
  else 64 * ceilDiv c.data.length (64 * c.group)

/-- The byte ranges of slices `a` to `b − 1`, an exchange's checksums with them. -/
def Coll.ranges (c : Coll) (a b : Nat) : List (Nat × Nat) :=
  [(min c.main (a * c.slot), min c.main (b * c.slot))]
    ++ (if c.op = 0x23 then [(c.length + 8 * a, c.length + 8 * b)] else [])

/-- The half of a range that travels in a direction: the lower half in plus, the upper half in minus (R420). -/
def halfOf (dir : Nat) (r : Nat × Nat) : Nat × Nat :=
  let mid := r.1 + min (r.2 - r.1) (32 * ceilDiv (r.2 - r.1) 64)
  if dir = 0 then (r.1, mid) else (mid, r.2)

/-- The next rank around the ring in a direction. -/
def ringNext (dir k d : Nat) : Nat := if dir = 0 then (k + 1) % d else (k + d - 1) % d

/-- An operation combines; an operation then distributes. -/
def combines (op : Nat) : Bool := [0x23, 0x24, 0x30, 0x31, 0x32, 0x35].contains op
def distributes (op : Nat) : Bool := [0x24, 0x30, 0x31, 0x33, 0x35].contains op

/-- The bytes that travel in a direction as the chunk of rank `r` (R420). The data of an ALL_REDUCE is split into two halves by offset
and each half cut into D chunks; where R410 places slices or contributions, each of them is split (log entry 16). -/
def Coll.chunk (c : Coll) (r dir : Nat) : List (Nat × Nat) :=
  if combines c.op && distributes c.op then
    let h := halfOf dir (0, c.data.length)
    let n := 32 * ceilDiv (h.2 - h.1) (32 * c.group)
    [(min h.2 (h.1 + r * n), min h.2 (h.1 + (r + 1) * n))]
  else (c.ranges r (r + 1)).map (halfOf dir)

/-- The combining phase of the ring for the chunk of rank `r` in a direction. -/
def Coll.ringIn (c : Coll) (r dir : Nat) : List Leg :=
  (c.chunk r dir).flatMap (fun h =>
    (if c.rank = ringNext dir r c.group then []
     else [{ out := false, peer := ringNext (1 - dir) c.rank c.group, phase := 0, order := 0, lo := h.1, hi := h.2, add := true }])
    ++ (if c.rank = r then []
        else [{ out := true, peer := ringNext dir c.rank c.group, phase := 0, order := 1, lo := h.1, hi := h.2, add := false }]))

/-- The distribution of byte ranges from rank `r` around the ring in a direction. -/
def Coll.ringOut (c : Coll) (r dir : Nat) (rs : List (Nat × Nat)) : List Leg :=
  rs.flatMap (fun h =>
    (if c.rank = r then []
     else [{ out := false, peer := ringNext (1 - dir) c.rank c.group, phase := 1, order := 2, lo := h.1, hi := h.2, add := false }])
    ++ (if ringNext dir c.rank c.group = r then []
        else [{ out := true, peer := ringNext dir c.rank c.group, phase := 1, order := 3, lo := h.1, hi := h.2, add := false }]))

/-- The legs of RING. -/
def Coll.ringLegs (c : Coll) : List Leg :=
  if c.group < 2 then []
  else if c.op = 0x34 then
    [0, 1].flatMap (fun dir => c.ringOut c.root dir [halfOf dir (0, c.data.length)])
  else
    (List.range c.group).flatMap (fun r =>
      [0, 1].flatMap (fun dir =>
        (if combines c.op then c.ringIn r dir else []) ++ (if distributes c.op then c.ringOut r dir (c.chunk r dir) else [])))

/-- The legs of the line form: out along the ranks, and back. -/
def Coll.lineLegs (c : Coll) : List Leg :=
  let n := c.data.length
  (if c.rank = 0 then []
   else [{ out := false, peer := c.rank - 1, phase := 0, order := 0, lo := 0, hi := n, add := true },
         { out := true, peer := c.rank - 1, phase := 1, order := 3, lo := 0, hi := n, add := false }])
  ++ (if c.rank + 1 = c.group then []
      else [{ out := true, peer := c.rank + 1, phase := 0, order := 1, lo := 0, hi := n, add := false },
            { out := false, peer := c.rank + 1, phase := 1, order := 2, lo := 0, hi := n, add := false }])

/-- The low `m` bits of a number in reverse order. -/
def revBits (m r : Nat) : Nat := (List.range m).foldl (fun v i => if bit r i then v + 2 ^ (m - 1 - i) else v) 0

/-- FP32_TREE applies (R421). -/
def Coll.treeMode (c : Coll) : Bool := c.op == 0x31 && c.mode == 2

/-- The legs of one step j of HALVING: the combining step, and the doubling step that undoes it. -/
def Coll.halvingStep (c : Coll) (j : Nat) : List Leg :=
  let m := Nat.log2 c.group
  let b := if c.treeMode then j else m - 1 - j
  let pos := if c.treeMode then revBits m c.rank else c.rank
  let h := c.group / 2 ^ (j + 1)
  let base := pos / (2 * h) * (2 * h)
  let keep := base + pos / h % 2 * h
  let other := base + (1 - pos / h % 2) * h
  let peer := c.rank ^^^ 2 ^ b
  let leg := fun (out : Bool) (phase order at_ : Nat) (add : Bool) =>
    (c.ranges at_ (at_ + h)).map (fun r =>
      ({ out := out, peer := peer, phase := phase, order := order, lo := r.1, hi := r.2, add := add } : Leg))
  (if combines c.op then leg true j (2 * j) other false ++ leg false j (2 * j + 1) keep true else [])
    ++ (if distributes c.op then
          leg true (8 + j) (100 + 2 * (m - 1 - j)) keep false ++ leg false (8 + j) (101 + 2 * (m - 1 - j)) other false
        else [])

/-- The leg of one doubling step of a BROADCAST by HALVING. -/
def Coll.castStep (c : Coll) (j : Nat) : List Leg :=
  let m := Nat.log2 c.group
  let b := m - 1 - j
  let rel := (c.rank ^^^ c.root) / 2 ^ b
  if 1 < rel then []
  else [{ out := rel == 0, peer := c.rank ^^^ 2 ^ b, phase := 8 + j, order := 100 + 2 * b, lo := 0, hi := c.data.length,
          add := false }]

/-- The legs of a member, empty ones left out. -/
def Coll.legs (c : Coll) : List Leg :=
  (match c.algo with
   | 1 => c.ringLegs
   | 2 => (List.range (Nat.log2 c.group)).flatMap (fun j => if c.op = 0x34 then c.castStep j else c.halvingStep j)
   | _ => c.lineLegs).filter (fun l => decide (l.lo < l.hi))

/-- The ranks with which the algorithm exchanges data. -/
def Coll.peers (c : Coll) : List Nat := (c.legs.map (·.peer)).eraseDups

/-! ## What has been received -/

/-- The bytes from `lo` to `hi` have been received in a phase; the first argument bounds the number of parts. -/
def coveredFrom (got : List (Nat × Nat × Nat)) (phase hi : Nat) : Nat → Nat → Bool
  | 0, lo => decide (hi ≤ lo)
  | n + 1, lo =>
    if hi ≤ lo then true
    else match got.find? (fun g => g.1 == phase && decide (g.2.1 ≤ lo) && decide (lo < g.2.2)) with
      | some g => coveredFrom got phase hi n g.2.2
      | none => false

/-- The bytes from `lo` to `hi` have been received in a phase. -/
def Coll.covered (c : Coll) (phase lo hi : Nat) : Bool := coveredFrom c.got phase hi c.got.length lo

/-- Every part that a member receives before place `order` of its order has come for the bytes from `lo` to `hi`. -/
def Coll.ready (c : Coll) (legs : List Leg) (order lo hi : Nat) : Bool :=
  legs.all (fun l => l.out || decide (order ≤ l.order) || decide (l.hi ≤ lo) || decide (hi ≤ l.lo)
    || c.covered l.phase (max lo l.lo) (min hi l.hi))

/-- The member has received all (R410). -/
def Coll.complete (c : Coll) : Bool := c.launched && c.legs.all (fun l => l.out || c.covered l.phase l.lo l.hi)

/-! ## Combining (R408) -/

/-- The mode of the element at a byte offset. An agreement sums its status words, takes the maximum and sums the limbs. -/
def Coll.modeAt (c : Coll) (off : Nat) : Nat :=
  if c.op = 0x24 then (if off < 32 then 4 else if off < 48 then 3 else 1)
  else if c.op = 0x23 then 0
  else if c.op = 0x30 ∨ c.op = 0x35 then 3
  else c.mode

/-- Element bytes of a mode. -/
def elemBytes (mode : Nat) : Nat := if mode = 1 then 16 else if mode = 2 then 4 else if mode = 4 then 32 else 8

/-- A field of two status words added, saturating at all ones (R266). -/
def satField (a b lo n : Nat) : Nat := min (fld a lo n + fld b lo n) (2 ^ n - 1) * 2 ^ lo

/-- The sum of two status words (R266). -/
def addStatus (a b : Nat) : Nat := satField a b 0 32 + satField a b 32 32 + satField a b 64 16 + satField a b 80 16

/-- The combination of two elements, as patterns. -/
def combineElem (mode a b : Nat) : Nat :=
  match mode with
  | 0 => (a + b) % 2 ^ 64
  | 1 => (a + b) % 2 ^ 128
  | 2 => fp32 ((ofFp32 a).add (ofFp32 b))
  | 3 => max a b
  | _ => addStatus a b

/-- The combination of bytes from a byte offset on; the first argument bounds the number of elements. -/
def Coll.combine (c : Coll) : Nat → Nat → List Byte → List Byte → List Byte
  | 0, _, _, _ => []
  | n + 1, off, a, b =>
    if a.isEmpty then []
    else
      let k := elemBytes (c.modeAt off)
      leBytes k (combineElem (c.modeAt off) (leNat (a.take k)) (leNat (b.take k))) ++ Coll.combine c n (off + k) (a.drop k) (b.drop k)

/-- The offsets of the INT128 elements of a contribution that are −2^127. -/
def Coll.flagsOf (c : Coll) : List Nat :=
  ((List.range (c.data.length / 16)).map (16 * ·)).filter (fun o =>
    c.modeAt o == 1 && leNat ((c.data.drop o).take 16) == 2 ^ 127)

/-- The flags of the elements in a packet, as bits by element (log entry 13). -/
def Coll.flagBits (c : Coll) (lo hi : Nat) : Nat :=
  (c.flags.filter (fun o => decide (lo ≤ o) && decide (o < hi))).foldl (fun m o => m ||| 2 ^ ((o - lo) / 16)) 0

/-- The flagged offsets that a packet's bits name. -/
def flagOffsets (bits lo n : Nat) : List Nat := ((List.range (n / 16)).filter (bit bits)).map (fun i => lo + 16 * i)

/-- The combined data: a flagged element is −2^127. -/
def Coll.result (c : Coll) : List Byte :=
  c.flags.foldl (fun d o => d.take o ++ leBytes 16 (2 ^ 127) ++ d.drop (o + 16)) c.data

/-! ## Packets (R415) -/

/-- The place of a Clasp context: each axis has 1,024 contexts of its own in the rim dies that carry it (R414, R573). -/
def collKey (axis context : Nat) : Nat := 1024 * axis + context

/-- A node address with another coordinate on an axis. -/
def withCoord (node a v : Nat) : Nat := node - coord node a * 2 ^ (8 * a) + v * 2 ^ (8 * a)

/-- OPERAND, from the place of a context. -/
def operandOf (context key phase kind : Nat) : Nat := context % 1024 + key * 2 ^ 10 + phase * 2 ^ 26 + kind * 2 ^ 30

/-- A packet of a collective to a rank. Both its endpoints are the issuing core's (log entry 16). -/
def State.collPacket (s : State) (ctx : Nat) (c : Coll) (peer phase kind off : Nat) (fields : Nat) (bs : List Byte) : Packet :=
  let lc := (s.logicalOf c.owner).getD 0
  { Packet.blank with
    destNode := BitVec.ofNat 32 (withCoord s.node c.axis peer), destEp := BitVec.ofNat 16 lc, srcEp := BitVec.ofNat 16 lc,
    srcNode := BitVec.ofNat 32 s.node, op := BitVec.ofNat 8 c.op, offset := BitVec.ofNat 40 off,
    length := BitVec.ofNat 11 bs.length, cls := 2, channel := BitVec.ofNat 4 c.channel,
    jobTag := BitVec.ofNat 8 (s.get Key.jobTag), operand := BitVec.ofNat 32 (operandOf ctx c.key phase kind),
    payload := bs, fields := BitVec.ofNat 512 fields }

/-- The opener of a member (R415). -/
def Coll.opener (c : Coll) : Nat :=
  c.op + c.mode * 2 ^ 8 + c.algo * 2 ^ 11 + b2n c.epoch * 2 ^ 13 + c.attempt * 2 ^ 14 + c.group * 2 ^ 16 + b2n c.norm * 2 ^ 23
    + c.rank * 2 ^ 24 + c.step % 2 ^ 32 * 2 ^ 32 + c.length % 2 ^ 32 * 2 ^ 64 + c.gexp * 2 ^ 96 + c.sig * 2 ^ 128

/-- The ranks to which a member sends DATA: its streams (R415). -/
def Coll.targets (c : Coll) : List Nat := ((c.legs.filter (·.out)).map (·.peer)).eraseDups

/-- The member's openers, one for each stream that it sends. -/
def State.sendOpeners (s : State) (ctx : Nat) (c : Coll) : State :=
  c.targets.foldl (fun s k => s.sendPacket (s.collPacket ctx c k 0 1 0 0 (leBytes 64 c.opener))) s

/-- ABORT to every member with which the algorithm exchanges data (R423). -/
def State.sendAborts (s : State) (ctx : Nat) (c : Coll) : State :=
  c.peers.foldl (fun s k => s.sendPacket (s.collPacket ctx c k 0 2 0 0 (List.replicate 32 0))) s

/-- The parts a member can send now: (rank, phase, first, end), at most 1,024 bytes each. -/
def Coll.sendable (c : Coll) : List (Nat × Nat × Nat × Nat) :=
  let legs := c.legs
  (legs.filter (·.out)).flatMap (fun l =>
    (((List.range (ceilDiv (l.hi - l.lo) 1024)).map (fun i => (l.lo + 1024 * i, min l.hi (l.lo + 1024 * (i + 1))))).filter
      (fun r => !c.sent.contains (l.phase, r.1, l.peer) && c.ready legs l.order r.1 r.2)).map
      (fun r => (l.peer, l.phase, r.1, r.2)))

/-! ## Device memory of this package -/

/-- A read by device address. -/
def State.devRead (s : State) (a len : Nat) : State × Option (List Byte) := s.hbmRead (devSetting a) (devOffset a) len

/-- A read by device address that ends at the first uncorrectable line. -/
def State.devReadTo (s : State) (a len : Nat) : State × List Byte := s.hbmReadTo (devSetting a) (devOffset a) len

/-- A write by device address of descriptor `no` of a core. -/
def State.devWrite (s : State) (p no a : Nat) (bs : List Byte) : State :=
  s.hbmWrite (devSetting a) (s.coreWho ((s.logicalOf p).getD 0) no) (devOffset a) bs

/-! ## The partial in the destination (R417, R423) -/

/-- The bytes from `lo` to `hi` of a member's data are held in its destination in device memory: by HALVING, what has arrived for
them (log entry 16). -/
def Coll.inDest (c : Coll) (lo hi : Nat) : Bool :=
  c.algo == 2 && [0x31, 0x33, 0x34].contains c.op && kDstHbm c.desc && c.got.any (fun g => decide (g.2.1 < hi) && decide (lo < g.2.2))

/-- The controller of the destination takes the accesses of an adder, where there are any (R480). -/
def State.destServes (s : State) (c : Coll) : Bool :=
  !(c.algo == 2 && [0x31, 0x33, 0x34].contains c.op && kDstHbm c.desc) || s.controllerOpen (devSetting (kDstDev c.desc))

/-- The bytes from `lo` to `hi` of a member's data are read where they are held in its destination: whether the read succeeds. -/
def State.destRead (s : State) (c : Coll) (lo hi : Nat) : State × Bool :=
  if c.inDest lo hi then
    let r := s.devRead (kDstDev c.desc + lo) (hi - lo)
    (r.1, r.2.isSome)
  else (s, true)

/-- An adder writes a part of `n` bytes at `lo` into the destination. What the destination holds before the end is undefined (R410). -/
def State.destWrite (s : State) (c : Coll) (lo n : Nat) : State :=
  if c.inDest lo (lo + n) then (s.devWrite c.owner c.opNo (kDstDev c.desc + lo) (s.freeBytes n)).tick else s

/-! ## Arriving packets (R416, R417) -/

/-- Fields of OPERAND. -/
def opContext (p : Packet) : Nat := fld p.operand.toNat 0 10
def opKey (p : Packet) : Nat := fld p.operand.toNat 10 16
def opPhase (p : Packet) : Nat := fld p.operand.toNat 26 4
def opKind (p : Packet) : Nat := fld p.operand.toNat 30 2

/-- The state with a collective replaced. -/
def State.setColl (s : State) (ctx : Nat) (c : Coll) : State := { s with colls := put ctx c s.colls }

/-- A collective fails with a status, the first one that does. -/
def State.failColl (s : State) (ctx status : Nat) : State :=
  match look ctx s.colls with
  | none => s
  | some c => s.setColl ctx { c with fail := some (c.fail.getD status) }

/-- What an opener compares: every field but RANK, and for GROUP_FORM but SIGNATURE (R416). -/
def openerKey (op o : Nat) : Nat × Nat × Nat :=
  (fld o 0 24, fld o 64 48, if op = 0x30 then 0 else fld o 128 128)

/-- The opener of a stream meets the collective that holds its context with its KEY (R416): the stream is accepted, or rejected
and gone. -/
def State.judge (s : State) (ctx : Nat) (c : Coll) (t : Stream) : State × List Stream :=
  match t.opener with
  | none => (s, [t])
  | some p =>
    let o := leNat p.payload
    if fld o 32 32 ≠ c.step % 2 ^ 32 then ((s.count (Key.collStepMismatch c.axis) 1).failColl ctx 0x0B, [])
    else if openerKey c.op o ≠ openerKey c.op c.opener then ((s.count (Key.collDisagree c.axis) 1).failColl ctx 0x0B, [])
    else (s, [{ t with accepted := true }])

/-- The streams of a context and KEY. -/
def ofColl (ctx : Nat) (c : Coll) (t : Stream) : Bool := t.context == ctx && t.key == c.key

/-- Parked streams of a collective's context and KEY meet it, where no stream from their source is open in it; judged, they no longer
hold their link's credits (R416). -/
def State.unpark (s : State) (ctx : Nat) : State :=
  let ts := s.streams
  (ts.foldl (fun (a : State) t =>
    match look ctx a.colls with
    | none => { a with streams := a.streams ++ [t] }
    | some c =>
      if !ofColl ctx c t || t.accepted || (ts ++ a.streams).any (fun u => ofColl ctx c u && u.accepted && u.src == t.src) then
        { a with streams := a.streams ++ [t] }
      else
        let r := a.judge ctx c t
        let b := { r.1 with streams := r.1.streams ++ r.2 }
        if t.opener.isNone then b else (t.opener.toList ++ t.waiting).foldl State.freeSpace b) { s with streams := [] })

/-- An accepted DATA packet of a rank finds its part (R417): the part, once every earlier part of its bytes has come. -/
def Coll.legFor (c : Coll) (p : Packet) : Option Leg :=
  let legs := c.legs
  let lo := p.offset.toNat
  let hi := lo + p.payload.length
  legs.find? (fun l => !l.out && l.phase == opPhase p && l.peer == coord p.srcNode.toNat c.axis && decide (l.lo ≤ lo)
    && decide (hi ≤ l.hi) && c.ready legs l.order lo hi && !c.covered l.phase lo hi)

/-- A DATA packet is combined with the local operand, or stored as it is (R417). -/
def Coll.absorb (c : Coll) (l : Leg) (p : Packet) : Coll :=
  let lo := p.offset.toNat
  let n := p.payload.length
  let here := (c.data.drop lo).take n
  let new := if l.add then c.combine n lo here p.payload else p.payload
  let arrived := flagOffsets p.fields.toNat lo n
  let kept := if l.add then c.flags else c.flags.filter (fun o => decide (o < lo) || decide (lo + n ≤ o))
  { c with data := c.data.take lo ++ new ++ c.data.drop (lo + n), flags := (kept ++ arrived).eraseDups,
           got := c.got ++ [(l.phase, lo, lo + n)] }

/-- One waiting packet of an accepted stream: an ABORT fails the collective; a DATA packet of the other EPOCH is discarded and
fails it; another is taken if it can be, and where its part is combined with one in the destination and that read is uncorrectable
the collective fails (R423). Answers the packets still waiting. -/
def State.takePacket (s : State) (ctx : Nat) (t : Stream) (p : Packet) : State × List Packet :=
  match look ctx s.colls with
  | none => (s, [p])
  | some c =>
    if opKind p = 2 then (s.failColl ctx 0x0B, [])
    else if t.opener.any (fun o => bit (leNat o.payload) 13 != p.epoch) then
      ((s.count (Key.collEpochDrops c.axis) 1).failColl ctx 0x0B, [])
    else if !c.launched || c.fail.isSome || !s.destServes c then (s, [p])
    else
      match c.legFor p with
      | some l =>
        let lo := p.offset.toNat
        let n := p.payload.length
        let r := if l.add then s.destRead c lo (lo + n) else (s, true)
        if r.2 then ((r.1.destWrite (c.absorb l p) lo n).setColl ctx (c.absorb l p), []) else (r.1.failColl ctx 0x0C, [])
      | none => (s, [p])

/-- Every accepted stream of a collective offers its waiting packets once. -/
def State.takeWaiting (s : State) (ctx : Nat) : State :=
  let ts := s.streams
  ts.foldl (fun (a : State) t =>
    if t.context == ctx && t.accepted then
      let r := t.waiting.foldl (fun (b : State × List Packet) p =>
        let x := b.1.takePacket ctx t p
        (x.1, b.2 ++ x.2)) (a, [])
      { r.1 with streams := r.1.streams ++ [{ t with waiting := r.2 }] }
    else { a with streams := a.streams ++ [t] }) { s with streams := [] }

/-- A member sends one part: to a rank, in a phase, the bytes from a first one to an end. Where they lie in the destination and are
uncorrectable, the collective fails (R423). -/
def State.sendPart (s : State) (ctx : Nat) (r : Nat × Nat × Nat × Nat) : State :=
  match look ctx s.colls with
  | none => s
  | some c =>
    let x := s.destRead c r.2.2.1 r.2.2.2
    if c.fail.isSome then s
    else if x.2 then
      (x.1.sendPacket (x.1.collPacket ctx c r.1 r.2.1 0 r.2.2.1 (c.flagBits r.2.2.1 r.2.2.2)
        ((c.data.drop r.2.2.1).take (r.2.2.2 - r.2.2.1)))).setColl ctx { c with sent := c.sent ++ [(r.2.1, r.2.2.1, r.1)] }
    else x.1.failColl ctx 0x0C

/-- The source's own router finds no route for a stream of a collective (R384). -/
def State.collUnreachable (s : State) (ctx : Nat) (c : Coll) : Bool := c.targets.any (fun k => s.noRoute (s.collPacket ctx c k 0 1 0 0 []))

/-- A member sends every part that it can send, after its openers. An exchange for which its own router finds no route ends
with UNREACHABLE (R276, R384). -/
def State.sendParts (s : State) (ctx : Nat) : State :=
  match look ctx s.colls with
  | none => s
  | some c =>
    if !c.launched || c.fail.isSome || !s.destServes c then s
    else if !c.opened && c.op == 0x23 && s.collUnreachable ctx c then (s.count Key.msgUnreachable 1).failColl ctx 7
    else
      let s1 := if c.opened then s else (s.sendOpeners ctx c).setColl ctx { c with opened := true }
      c.sendable.foldl (fun s r => s.sendPart ctx r) s1

/-- The packets that wait in the streams of a context. -/
def State.waitingIn (s : State) (ctx : Nat) : Nat :=
  (s.streams.filter (fun t => t.context == ctx && t.accepted)).foldl (fun n t => n + t.waiting.length) 0

/-- A collective moves on as far as it can. -/
def State.pumpColl (s : State) (ctx : Nat) : State :=
  let s1 := (s.unpark ctx).sendParts ctx
  (List.range (s1.waitingIn ctx)).foldl (fun s _ => (s.takeWaiting ctx).sendParts ctx) s1

/-- The axis along which a source lies. -/
def State.axisFrom (s : State) (node : Nat) : Nat := (axes.find? (fun a => coord node a != coord s.node a)).getD 0

/-- The place of the context that an arriving packet names, on the axis along which its source lies. -/
def State.keyOf (s : State) (p : Packet) : Nat := collKey (s.axisFrom p.srcNode.toNat) (opContext p)

/-- A DATA packet joins a stream: a gap of more than ADDER_FORWARD_LIMIT after the one before it is a stall (R418). -/
def State.gapCount (s : State) (t : Stream) (p : Packet) : State :=
  if opKind p = 0 ∧ t.last.any (fun k => decide (s.get Key.adderForwardLimit < s.ftime - k)) then
    s.count (Key.claspForwardStalls (s.axisFrom p.srcNode.toNat)) 1
  else s

/-- A packet joins its stream: the latest one of its source, context and KEY; an OPENER begins one. An ABORT fails the collective that
holds its context with its KEY; with no stream and no such collective it has no effect (R423). A packet that its stream takes, and
one that ends here, frees its buffer space; one that is parked holds it (R416). -/
def State.joinStream (s : State) (p : Packet) : State :=
  let src := p.srcNode.toNat
  let at_ := s.keyOf p
  let mine := fun (t : Stream) => t.src == src && t.context == at_ && t.key == opKey p
  let fresh : Stream := { src := src, context := at_, key := opKey p, opener := none, accepted := false, waiting := [], last := none }
  let held := (look at_ s.colls).any (fun c => c.key == opKey p)
  match opKind p with
  | 1 =>
    if s.streams.any (fun t => mine t && t.opener.isNone) then
      { s with streams := s.streams.map (fun t => if mine t && t.opener.isNone then { t with opener := some p } else t) }
    else { s with streams := s.streams ++ [{ fresh with opener := some p }] }
  | k =>
    if k = 2 ∧ held then (s.failColl at_ 0x0B).freeSpace p
    else
      match (s.streams.reverse).find? mine with
      | some t =>
        let s1 := { s.gapCount t p with streams := s.streams.filter (fun u => u != t) ++
          [{ t with waiting := t.waiting ++ [p], last := if k = 0 then some s.ftime else t.last }] }
        if t.accepted then s1.freeSpace p else s1
      | none =>
        if k = 2 then s.freeSpace p
        else { s with streams := s.streams ++ [{ fresh with waiting := [p], last := some s.ftime }] }

end Sys2Proof.Machine
end

