-- ==== Sys2Proof/Machine/Neighbour.lean ====
section
/-!
DEFINITION. What a link says in CONTROL frames (R351, R352, R358): its neighbour record, its state and the time.
-/
namespace Sys2Proof.Machine

/-- GROUP_FORMED of an axis (R412). -/
def State.formed (s : State) (a : Nat) : Bool := s.flag (Key.groupFormed a)

/-- The signature in a port's record: its axis's, or zero while no group is formed (R412). -/
def State.portSignature (s : State) (p : Nat) : Nat :=
  if s.portAxis p < 4 ∧ s.formed (s.portAxis p) then s.get (Key.groupSignature (s.portAxis p)) else 0

/-- The neighbour record of a link of a port (R352). -/
def State.nbRecord (s : State) (p l : Nat) : NbRecord :=
  { serial := BitVec.ofNat 64 s.fuses.serial, port := BitVec.ofNat 4 p, axis := BitVec.ofNat 3 (s.portAxis p),
    dir := s.portDir p == 1, index := BitVec.ofNat 3 ((s.portLinks p).filter (fun k => decide (k < l))).length,
    minor := BitVec.ofNat 8 (s.get Key.xflVersion % 256), major := BitVec.ofNat 8 (s.get Key.xflVersion / 256),
    fwBuild := BitVec.ofNat 32 (s.get Key.fwBuild), node := BitVec.ofNat 32 s.node,
    epoch := BitVec.ofNat 32 (s.get (Key.tableEpoch s.activeVersion)), sig := BitVec.ofNat 128 (s.portSignature p),
    adopt := s.get Key.topoMode == 1 }

/-- The 64 bytes of a neighbour record (R352). -/
def recordBytes (r : NbRecord) : List Byte :=
  leBytes 64 (r.serial.toNat + r.port.toNat * 2 ^ 64 + r.axis.toNat * 2 ^ 68 + b2n r.dir * 2 ^ 71 + r.index.toNat * 2 ^ 72
    + r.minor.toNat * 2 ^ 80 + r.major.toNat * 2 ^ 88 + r.fwBuild.toNat * 2 ^ 96 + r.node.toNat * 2 ^ 128
    + r.epoch.toNat * 2 ^ 160 + r.sig.toNat * 2 ^ 192 + b2n r.adopt * 2 ^ 320)

/-- A control body of 240 bytes. -/
def ctrlBody (bs : List Byte) : List Byte := bs ++ List.replicate (240 - bs.length) 0

/-- The body of a NEIGHBOUR frame (R351). -/
def nbBody (r : NbRecord) : List Byte := ctrlBody (leBytes 8 1 ++ recordBytes r)

/-- The body of a STATE frame (R351). -/
def stateBody (st port : Nat) : List Byte := ctrlBody (leBytes 8 (2 + st % 256 * 2 ^ 8 + port % 16 * 2 ^ 16))

/-- The body of a TIME frame (R358). -/
def timeBody (t : TimeBody) : List Byte :=
  ctrlBody (leBytes 40 (3 + t.hops.toNat * 2 ^ 8 + b2n t.locked * 2 ^ 16 + t.txTime.toNat * 2 ^ 64 + t.echoTx.toNat * 2 ^ 128
    + t.echoRx.toNat * 2 ^ 192 + t.root.toNat * 2 ^ 256))

/-- CTYPE of a control body (R351). -/
def ctypeOf (body : List Byte) : Nat := (body.headD 0).toNat

/-- The neighbour record in a NEIGHBOUR body; its RSV bits are ignored (R11, R352). -/
def nbRead (body : List Byte) : NbRecord :=
  let r := leNat ((body.drop 8).take 64)
  { serial := BitVec.ofNat 64 r, port := BitVec.ofNat 4 (fld r 64 4), axis := BitVec.ofNat 3 (fld r 68 3), dir := bit r 71,
    index := BitVec.ofNat 3 (fld r 72 3), minor := BitVec.ofNat 8 (fld r 80 8), major := BitVec.ofNat 8 (fld r 88 8),
    fwBuild := BitVec.ofNat 32 (fld r 96 32), node := BitVec.ofNat 32 (fld r 128 32), epoch := BitVec.ofNat 32 (fld r 160 32),
    sig := BitVec.ofNat 128 (fld r 192 128), adopt := bit r 320 }

/-- The state and port in a STATE body (R351). -/
def stateRead (body : List Byte) : Nat × Nat :=
  let r := leNat (body.take 3)
  (fld r 8 8, fld r 16 4)

/-- The time fields in a TIME body; its RSV bits are ignored (R11, R358). -/
def timeRead (body : List Byte) : TimeBody :=
  let r := leNat (body.take 40)
  { hops := BitVec.ofNat 8 (fld r 8 8), locked := bit r 16, txTime := BitVec.ofNat 64 (fld r 64 64),
    echoTx := BitVec.ofNat 64 (fld r 128 64), echoRx := BitVec.ofNat 64 (fld r 192 64), root := BitVec.ofNat 64 (fld r 256 64) }

/-- A CONTROL frame leaves a link. -/
def State.sendControl (s : State) (l : Nat) (body : List Byte) : State := s.sendFrame l 2 0 0 body

/-- A link's NEIGHBOUR frame. -/
def State.sendRecord (s : State) (l : Nat) : State :=
  match s.portOf l with
  | none => s
  | some p => s.sendControl l (nbBody (s.nbRecord p l))

/-- A link's STATE frame. -/
def State.sendState (s : State) (l : Nat) : State :=
  match s.portOf l with
  | none => s
  | some p => s.sendControl l (stateBody (s.link l).st p)

/-- ACTIVE links whose record differs from what it was in the state `old` send a NEIGHBOUR frame (R351). -/
def State.announce (s old : State) : State :=
  (List.range 32).foldl (fun s l =>
    match s.portOf l with
    | none => s
    | some p => if (s.link l).st = 5 ∧ s.nbRecord p l ≠ old.nbRecord p l then s.sendRecord l else s) s

/-- The group of an axis is cleared (R413). -/
def State.clearGroup (s : State) (a : Nat) : State := s.set (Key.groupFormed a) 0

end Sys2Proof.Machine
end

