-- ==== Sys2Proof/Machine/Collect.lean ====
section
/-!
DEFINITION. Collectives on a member from start to end (R409–R424), and the buckets (R259–R283): the accumulator, the step, the
exchange and the agreement.
-/
namespace Sys2Proof.Machine

/-! ## What a collective is (R406, R264, R415) -/

/-- The axis of a descriptor's collective. -/
def State.collAxis (s : State) (d : Nat) : Nat := if isBucket (dOp d) then s.get Key.bucketAxis else kAxis d

/-- The Clasp context of a descriptor (R271, R414). -/
def collContext (d : Nat) : Nat := if isBucket (dOp d) then uId d % 256 else kContext d

/-- The place of that context on the axis of the descriptor's collective. -/
def State.collPlace (s : State) (d : Nat) : Nat := collKey (s.collAxis d) (collContext d)

/-- Two axes share a rim die, and so its contexts (R414, R573). -/
def State.axesMeet (s : State) (a b : Nat) : Bool := a == b || (s.carriers a).any (s.carriers b).contains

/-- The context of a descriptor is not free: a collective holds it, or for a bucket operation another bucket keeps it (R271, R414). -/
def State.ctxTaken (s : State) (d : Nat) : Bool :=
  s.colls.any (fun x => x.1 % 1024 == collContext d && s.axesMeet x.2.axis (s.collAxis d))
    || (isBucket (dOp d) && s.seq.keptFrom (uId d))

/-- The collectives that hold a context, one for each axis on which one does (R414). -/
def State.collsAt (s : State) (context : Nat) : List (Nat × Coll) := s.colls.filter (fun x => x.1 % 1024 == context)

/-- The logical core count of the package (R30, R171): by entry, or by the grade's default. -/
def State.coreCount (s : State) : Nat :=
  (look Key.logicalCoreCount.key s.dict).getD (if s.fuses.gradeB then 4320 else 4608)

/-- The job signature for a step (R411). -/
def State.signature (s : State) (step : Nat) : Nat :=
  leNat (shake256 (leBytes 16 (s.get Key.jobSeed) ++ leBytes 1 (s.get Key.rgenId) ++ leBytes 1 (s.get Key.refOrderId)
    ++ leBytes 1 (s.get Key.srFractionBits) ++ leBytes 1 s.orderProfile ++ leBytes 4 s.coreCount ++ leBytes 4 (s.get Key.fwBuild)
    ++ leBytes 4 (s.get (Key.tableEpoch s.activeVersion)) ++ leBytes 4 step ++ List.replicate 28 0) 16)

/-- The collective that a descriptor starts, its data still empty. MODE of its opener is that of the
descriptor, also for an operation that ignores it, and 0 for a bucket operation, which has no such field; LENGTH is 0 for an operation that has no
use for it (R415; log entry 16). -/
def State.collOf (s : State) (p no d : Nat) : Coll :=
  let op := dOp d
  let b := isBucket op
  let a := s.collAxis d
  let bare := op == 0x30 || op == 0x35
  let step := if b then s.seq.step else kStep d
  let group := if b then uGroup d else kGroup d
  { owner := p, opNo := no, desc := d, axis := a, op := op, mode := if b then 0 else kMode d,
    algo := if bare then s.formAlgo a group else (s.algoOf a group (kAlgo d)).getD 0,
    key := if b then uId d else kKey d, step := step, attempt := if b then uAttempt d else 0, group := group,
    rank := if b then uRank d else kRank d, root := kRoot d, norm := op == 0x24 && bit d 150,
    gexp := if b then uExp d else 0,
    length := if op = 0x23 then 8 * uParams d else if b || bare then 0 else mLen d,
    channel := mChan d, epoch := s.activeVersion == 1,
    sig := if op = 0x30 then s.signature step else s.get (Key.groupSignature a),
    launch := if b then 0 else kLaunch d, launched := false, opened := false, data := [], flags := [], got := [], sent := [],
    formed := 0, fail := none }

/-! ## Slices of a bucket (R261) -/

/-- The own slice of a bucket in bytes of the accumulator, as (first, bytes). -/
def ownSlice (d : Nat) : Nat × Nat :=
  let n := 8 * uParams d
  let s := 32768 * ceilDiv n (32768 * uGroup d)
  (min n (uRank d * s), min n ((uRank d + 1) * s) - min n (uRank d * s))

/-- The contribution limit 2^L (R272). -/
def contribLimit (group : Nat) : Nat := 2 ^ (63 - (Nat.log2 (2 * group - 1)))

/-- Numbers of `n` bytes each. -/
def wordsOf (n : Nat) (bs : List Byte) : List Nat := (runsOf n bs).map leNat

/-- The contributions of a bucket: elements outside the limit sent as 0, and how many (R272). -/
def contributions (group : Nat) (acc : List Nat) : List Nat × Nat :=
  let bad := fun g => decide ((contribLimit group : Int) ≤ sgn 64 g) || decide (sgn 64 g ≤ -(contribLimit group : Int))
  (acc.map (fun g => if bad g then 0 else g), (acc.filter bad).length)

/-- The sum of words modulo 2^64. -/
def sum64 (ws : List Nat) : Nat := (ws.foldl (· + ·) 0) % 2 ^ 64

/-! ## Device ranges of this package -/

/-- A device range lies in the usable space of one stack of this package (R265). -/
def State.devOk (s : State) (a len : Nat) : Bool :=
  decide (devSetting a < 24) && (s.stack (devSetting a)).writable (devOffset a) len

/-- Undefined bytes in a stack, without a write of the controller: the stored bytes and those of the buffer (log entry 2). -/
def State.devUndef (s : State) (a len : Nat) : State :=
  let n := devSetting a
  let o := devOffset a
  let x := s.stack n
  let keep := fun (w : WcbEntry) =>
    { w with bytes := w.bytes.filter (fun b => decide (64 * w.line + b.1 < o) || decide (o + len ≤ 64 * w.line + b.1)) }
  (s.setStack n { x with mem := x.mem.writeN o (s.freeBytes len), wcb := x.wcb.map keep }).tick

/-- Undefined bytes at a place: 0 device memory, p + 1 the scratchpad of physical core p. -/
def State.undefAt (s : State) (place a len : Nat) : State :=
  if len = 0 then s
  else if place = 0 then s.devUndef a len
  else (s.spWrite (place - 1) a (s.freeBytes len)).tick

/-! ## Refusals (R265, R409) -/

/-- The destination of a collective, as (place, address, bytes). -/
def collDest (p d : Nat) : Nat × Nat × Nat :=
  let slice := 64 * ceilDiv (mLen d) (64 * kGroup d)
  let len :=
    match dOp d with
    | 0x32 => min (mLen d) ((kRank d + 1) * slice) - min (mLen d) (kRank d * slice)
    | 0x33 => kGroup d * mLen d
    | _ => mLen d
  match dOp d with
  | 0x30 => (0, 0, 0)
  | 0x35 => (0, 0, 0)
  | 0x23 => (0, uLand d, (ownSlice d).2)
  | 0x24 => (0, 0, 0)
  | _ => if kDstHbm d then (0, kDstDev d, len) else (p + 1, kDstAddr d, len)

/-- Why a collective is refused (R409). -/
def State.collCause (s : State) (p d : Nat) : Option Nat :=
  let op := dOp d
  let a := kAxis d
  let bare := op == 0x30 || op == 0x35
  let dst := collDest p d
  let fits := if kDstHbm d then s.devOk dst.2.1 dst.2.2 else spRange dst.2.1 dst.2.2
  let modeBad := (op == 0x31 || op == 0x32)
    && (decide (4 < kMode d) || (kMode d == 2 && (op != 0x31 || s.algoOf a (kGroup d) (kAlgo d) != some 2))
        || mLen d % elemBytes (kMode d) != 0)
  let reserved := decide (kContext d < 256) || kGroup d != s.axisSize a || kRank d != coord s.node a
    || (!bare && (mLen d == 0 || mLen d % 32 != 0 || decide (2097152 < mLen d) || (s.algoOf a (kGroup d) (kAlgo d)).isNone || modeBad
        || (op == 0x34 && decide (kGroup d ≤ kRoot d)) || (op == 0x33 && !fits)))
  let badRange := !bare &&
    ((if kSrcHbm d then kSrcDev d % 64 != 0 || !s.devOk (kSrcDev d) (mLen d) else mLocal d % 32 != 0 || !spRange (mLocal d) (mLen d))
      || (if kDstHbm d then kDstDev d % 64 != 0 else kDstAddr d % 32 != 0) || !fits)
  if reserved then some 2 else if badRange then some 3 else statusCause d

/-- Two device ranges of one stack overlap; an empty one overlaps none. -/
def devOverlap (a n b m : Nat) : Bool :=
  n != 0 && m != 0 && devSetting a == devSetting b && decide (devOffset a < devOffset b + m) && decide (devOffset b < devOffset a + n)

/-- Why a bucket descriptor is refused (R265). -/
def State.bucketCause (s : State) (d : Nat) : Option Nat :=
  let a := s.get Key.bucketAxis
  let own := (ownSlice d).2
  let n := 8 * uParams d
  let badN := uParams d == 0 || decide (16777216 < uParams d)
  let group := uGroup d != s.axisSize a || uRank d != coord s.node a || (s.algoOf a (uGroup d) (kAlgo d)).isNone
  let land := uLand d % 64 != 0 || !s.devOk (uLand d) own
  match dOp d with
  | 0x21 =>
    if mLen d = 0 ∨ mLen d % 8 ≠ 0 ∨ 2097152 < mLen d then some 2
    else if mLocal d % 8 ≠ 0 ∨ uAcc d % 8 ≠ 0 ∨ uTally d % 32 ≠ 0 ∨ uSide d % 32 ≠ 0 ∨ !spRange (mLocal d) (mLen d)
        ∨ !spRange (uSide d) (32 * uSides d) ∨ !s.devOk (uAcc d) (mLen d) ∨ !s.devOk (uTally d) 32 then some 3
    else statusCause d
  | 0x22 => if uParams d = 0 ∨ 65536 < uParams d then some 2 else statusCause d
  | 0x23 =>
    if badN ∨ group ∨ uTallies d = 0 ∨ 4608 < uTallies d ∨ !s.seq.mayExchange (uId d)
        ∨ devOverlap (uLand d) own (uAcc d) n ∨ devOverlap (uLand d) own (uTally d) (32 * uTallies d) then some 2
    else if mLocal d % 64 ≠ 0 ∨ !spRange (mLocal d) 64 ∨ uAcc d % 64 ≠ 0 ∨ !s.devOk (uAcc d) n ∨ uTally d % 32 ≠ 0
        ∨ !s.devOk (uTally d) (32 * uTallies d) ∨ land then some 3
    else statusCause d
  | _ =>
    if badN ∨ group ∨ !s.seq.mayExchange (uId d) then some 2
    else if mLocal d % 64 ≠ 0 ∨ !spRange (mLocal d) (if bit d 150 then 192 else 128) ∨ land then some 3
    else statusCause d

/-! ## The verdict of a bucket (R278–R280, R283) -/

/-- VERDICT (R279) from the completion status, the agreed status word and GROUP. -/
def verdictOf (status agreed group : Nat) : Nat :=
  if status ≠ 0 then 5
  else if fld agreed 64 16 ≠ group then 4
  else if 0 < fld agreed 80 16 then 3
  else if 0 < fld agreed 32 32 then 1
  else if 0 < fld agreed 0 32 then 2
  else 0

/-- The counter of a verdict. -/
def verdictCounter (v : Nat) : Ent :=
  match v with
  | 0 => Key.bucketVerdictApply
  | 1 => Key.bucketVerdictSkipNonfinite
  | 2 => Key.bucketVerdictSkipOverflow
  | 3 => Key.bucketVerdictUnverified
  | 4 => Key.bucketVerdictIncomplete
  | _ => Key.bucketVerdictFailed

/-- Leading zeros of a 64-bit number. -/
def clz64 (v : Nat) : Nat := if v = 0 then 64 else 63 - Nat.log2 v

/-- NEXT_EXP (R280). -/
def State.nextExp (s : State) (verdict agreed maxG gexp : Nat) : Int :=
  let e : Int := sgn 16 gexp
  let x : Int :=
    if verdict = 5 ∨ verdict = 4 ∨ verdict = 3 ∨ maxG = 0 then e
    else if 0 < fld agreed 0 32 then e + (s.get Key.bucketOverflowStep : Int)
    else e + 1 - (clz64 maxG : Int) + (s.get Key.bucketHeadroom : Int)
  max (-32768) (min 32767 x)

/-- The agreed record (R278); a failed one has undefined fields (R279), but for NEXT_EXP = E (R280). -/
def State.agreedRecord (s : State) (c : Coll) (status : Nat) (res : List Byte) : List Byte :=
  let agreed := leNat (res.take 32)
  let maxG := leNat ((res.drop 32).take 8)
  let v := verdictOf status agreed c.group
  let r := if status ≠ 0 then leNat (s.freeBytes 64)
    else agreed + maxG * 2 ^ 256 + c.step % 2 ^ 32 * 2 ^ 320 + c.key * 2 ^ 352 + c.gexp * 2 ^ 368 + c.attempt * 2 ^ 400
  leBytes 64 (r % 2 ^ 384 + unsgn 16 (s.nextExp v agreed maxG c.gexp) * 2 ^ 384 + fld r 400 8 * 2 ^ 400 + v * 2 ^ 408
    + fld r 411 5 * 2 ^ 411 + status * 2 ^ 416 + r / 2 ^ 424 * 2 ^ 424)

/-- The norm record (R283); undefined when STATUS is not OK. -/
def State.normRecord (s : State) (c : Coll) (status : Nat) (res : List Byte) : List Byte :=
  if status ≠ 0 then s.freeBytes 64
  else
    let sq : Nat := leNat ((res.drop 48).take 16) * 2 ^ 64 + leNat ((res.drop 64).take 16)
    let f := fp32 ((Num.ofInt sq).mul (Num.pow2 (2 * sgn 16 c.gexp)))
    leBytes 64 (sq % 2 ^ 256 + c.gexp * 2 ^ 256 + c.key * 2 ^ 272 + f * 2 ^ 288)

/-! ## A collective ends (R410, R412, R423, R275, R276) -/

/-- The exchange record (R275). That of a failed exchange holds the part of st that it had formed, and its fields beyond that are undefined
(R276). -/
def State.exchangeRecord (s : State) (c : Coll) (status : Nat) (slice : List Nat) (arrived : Nat) : List Byte :=
  let landed := sum64 slice
  let maxG := (slice.map (fun g => (sgn 64 g).natAbs)).foldl max 0
  let tail := c.key * 2 ^ 448 + c.gexp * 2 ^ 464 + c.attempt * 2 ^ 480 + status * 2 ^ 488
  if status = 0 then
    leBytes 64 (c.formed % 2 ^ 64 + 2 ^ 64 + b2n (landed != arrived) * 2 ^ 80 + maxG * 2 ^ 256 + arrived * 2 ^ 320 + landed * 2 ^ 384
      + tail)
  else
    leBytes 64 (c.formed % 2 ^ 64 + leNat (s.freeBytes 24) * 2 ^ 256 + tail)

/-- What the end of an exchange writes and counts. -/
def State.endExchange (s : State) (c : Coll) (status : Nat) : State :=
  let own := ownSlice c.desc
  let bs := (c.result.drop own.1).take own.2
  let slice := wordsOf 8 bs
  let arrived := leNat ((c.result.drop (c.length + 8 * c.rank)).take 8)
  let s1 := if status = 0 then s.devWrite c.owner c.opNo (uLand c.desc) bs else s.undefAt 0 (uLand c.desc) own.2
  let s2 := (s1.spWrite c.owner (mLocal c.desc) (s1.exchangeRecord c status slice arrived)).tick
  let s3 := if status = 0 ∧ sum64 slice ≠ arrived then s2.count Key.bucketChecksumMismatches 1 else s2
  let q := s3.seq
  ({ s3 with seq := { q with run := q.run.filter (· != c.key % 256),
                             zones := q.zones ++ [(c.key, 0, uLand c.desc, own.2)] } }).count Key.bucketExchanges 1

/-- What the end of an agreement writes and counts. -/
def State.endAgree (s : State) (c : Coll) (status : Nat) : State :=
  let a := mLocal c.desc
  let v := verdictOf status (leNat (c.result.take 32)) c.group
  let s1 := (s.spWrite c.owner (a + 64) (s.agreedRecord c status c.result)).tick
  let s2 := if c.norm then (s1.spWrite c.owner (a + 128) (s1.normRecord c status c.result)).tick else s1
  let s3 := if c.norm ∧ status = 0 then s2.count Key.bucketNormPasses 1 else s2
  let s4 := s3.count (verdictCounter v) 1
  let q := { s4.seq with zones := s4.seq.zones ++ [(c.key, c.owner + 1, a + 64, if c.norm then 128 else 64)] }
  { s4 with seq := if v ≤ 2 then q.finish c.key else q }

/-- GROUP_FORM compares the maxima with its own words (R412). -/
def Coll.agrees (c : Coll) : Bool :=
  leNat (c.result.take 16) == c.sig && leNat ((c.result.drop 16).take 16) == 2 ^ 128 - 1 - c.sig

/-- The destination of a collective that does not end with OK: undefined (R423), but as it was where the operation was refused at its
start and sent nothing (R413). -/
def State.spoiled (s : State) (c : Coll) (st : Nat) : State :=
  let dst := collDest c.owner c.desc
  if st = 0x0A then s else s.undefAt dst.1 dst.2.1 dst.2.2

/-- The end of a collective with the status found so far: its destination, its records and its counts. Answers the status. -/
def State.endEffect (s : State) (c : Coll) (st : Nat) : State × Nat :=
  let dst := collDest c.owner c.desc
  let lands := fun (bs : List Byte) => if dst.1 = 0 then s.devWrite c.owner c.opNo dst.2.1 bs else s.spWrite c.owner dst.2.1 bs
  match c.op with
  | 0x23 => (s.endExchange c st, st)
  | 0x24 => (s.endAgree c st, st)
  | 0x30 =>
    if st = 0 ∧ c.agrees then
      ((((s.set (Key.groupFormed c.axis) 1).set (Key.groupStep c.axis) c.step).set (Key.groupSignature c.axis) c.sig).announce s, 0)
    else
      let s1 := (s.clearGroup c.axis).announce s
      if st = 0 then (s1.count (Key.groupRefusals c.axis) 1, 0x0A) else (s1, st)
  | 0x35 => (s, st)
  | 0x32 =>
    if st = 0 then (lands ((c.result.drop (min c.length (c.rank * c.slot))).take dst.2.2), 0) else (s.spoiled c st, st)
  | _ => if st = 0 then (lands (c.result.take dst.2.2), 0) else (s.spoiled c st, st)

/-- A collective's descriptor completes with a status (R75, R410, R423); an uncorrectable read stops the engine (R80). -/
def State.endColl (s : State) (c : Coll) (st : Nat) : State :=
  let r := s.endEffect c st
  let s1 := if r.2 = 0 then r.1.count (Key.collCompleted c.axis) 1
    else if r.2 = 0x0B ∨ r.2 = 0x0C then r.1.count (Key.collFailed c.axis) 1 else r.1
  match (s1.core c.owner).op c.opNo with
  | none => s1
  | some o =>
    let s2 := s1.finishOp c.owner { o with status := r.2, leaves := if r.2 = 0 then c.group else 0, fin := true }
    if r.2 = 0x0C then s2.stopEngine c.owner 2 5 c.desc else s2

/-- A collective leaves its context, and its open streams end. -/
def State.releaseColl (s : State) (ctx : Nat) (c : Coll) : State :=
  { s with colls := drop' ctx s.colls, streams := s.streams.filter (fun t => !(ofColl ctx c t && t.accepted)) }

/-- The request of a started descriptor that is outstanding to a controller of this package ends. -/
def State.dropLocal (s : State) (p no : Nat) : State :=
  match (s.core p).op no with
  | none => s
  | some o => (o.msgs.foldl (fun s m => s.closeMsg m.1) s).updOp p no (fun o => { o with msgs := [] })

/-- The endpoint of the controller that a collective's end writes to, where that accepts nothing (R480). -/
def State.endShut (s : State) (c : Coll) : Option Nat :=
  let dst := collDest c.owner c.desc
  if dst.1 = 0 ∧ dst.2.2 ≠ 0 ∧ s.controllerOpen (devSetting dst.2.1) = false then some (0x2000 + devSetting dst.2.1) else none

/-- A collective that has failed or has all it needs ends (R410, R423). One whose destination's controller accepts nothing has its
request dropped, and recovers as R382 says (R480). -/
def State.closeColl (s : State) (ctx : Nat) : State :=
  match look ctx s.colls with
  | none => s
  | some c =>
    match c.fail with
    | some st => (((s.sendAborts ctx c).releaseColl ctx c).dropLocal c.owner c.opNo).endColl c st
    | none =>
      if c.complete && !((s.core c.owner).op c.opNo).any (fun o => !o.msgs.isEmpty) then
        match s.endShut c with
        | some ep => s.localMsg c.owner c.opNo ep
        | none => (s.releaseColl ctx c).endColl c 0
      else s

/-! ## A collective starts (R413, R414, R424) -/

/-- The bytes of a collective's data. -/
def Coll.size (c : Coll) : Nat :=
  match c.op with
  | 0x30 => 32
  | 0x35 => 32
  | 0x24 => if c.norm then 80 else 48
  | 0x23 => c.length + 8 * c.group
  | 0x33 => c.group * c.length
  | _ => c.length

/-- The contribution of a member: its data and its status words as they stand, or none where a read is uncorrectable. The
checksums of an exchange follow its data, and one that meets an uncorrectable line has formed its st of what lies ahead of that (R272, R276;
log entry 16). -/
def State.contribution (s : State) (c : Coll) : State × Option Coll :=
  let d := c.desc
  let src := fun (s : State) => if kSrcHbm d then s.devRead (kSrcDev d) (mLen d) else (s, some ((s.core c.owner).sp.readN (mLocal d) (mLen d)))
  match c.op with
  | 0x30 => (s, some { c with data := leBytes 16 c.sig ++ leBytes 16 (2 ^ 128 - 1 - c.sig) })
  | 0x35 => (s, some { c with data := List.replicate 32 0 })
  | 0x24 =>
    let rec_ := (s.core c.owner).sp.readN (mLocal d) 40
    if c.norm then
      let r := s.devRead (uLand d) (ownSlice d).2
      match r.2 with
      | none => (r.1, none)
      | some bs =>
        let q := ((wordsOf 8 bs).map (fun g => (sgn 64 g).natAbs * (sgn 64 g).natAbs)).foldl (· + ·) 0
        (r.1, some { c with data := rec_ ++ List.replicate 8 0 ++ leBytes 16 (q / 2 ^ 64) ++ leBytes 16 (q % 2 ^ 64) })
    else (s, some { c with data := rec_ ++ List.replicate 8 0 })
  | 0x23 =>
    let r := s.devReadTo (uTally d) (32 * uTallies d)
    let st := (wordsOf 32 (r.2.take (32 * (r.2.length / 32)))).foldl addStatus 0
    if r.2.length < 32 * uTallies d then (r.1.setColl (s.collPlace d) { c with formed := st }, none)
    else
      let r2 := r.1.devReadTo (uAcc d) c.length
      let g := contributions c.group (wordsOf 8 (r2.2.take (8 * (r2.2.length / 8))))
      let s1 := r2.1.count Key.bucketContribOverflows g.2
      let c1 := { c with formed := addStatus st (min g.2 (2 ^ 32 - 1)) }
      let sums := (List.range c.group).map (fun r =>
        sum64 ((g.1.drop (4096 * ceilDiv (uParams d) (4096 * c.group) * r)).take (4096 * ceilDiv (uParams d) (4096 * c.group))))
      if r2.2.length < c.length then (s1.setColl (s.collPlace d) c1, none)
      else (s1, some { c1 with data := (g.1.flatMap (leBytes 8)) ++ sums.flatMap (leBytes 8) })
  | 0x33 =>
    let r := src s
    (r.1, r.2.map (fun bs => { c with data := List.replicate (c.rank * c.length) 0 ++ bs
                                 ++ List.replicate ((c.group - 1 - c.rank) * c.length) 0 }))
  | 0x34 =>
    if c.rank = c.root then
      let r := src s
      (r.1, r.2.map (fun bs => { c with data := bs }))
    else (s, some { c with data := List.replicate c.length 0 })
  | _ =>
    let r := src s
    (r.1, r.2.map (fun bs => { c with data := bs }))

/-- The controllers that a collective reads or writes accept requests (R480). -/
def State.collControllers (s : State) (p d : Nat) : Bool :=
  let dst := collDest p d
  (dst.1 != 0 || dst.2.2 == 0 || s.controllerOpen (devSetting dst.2.1))
    && (!(0x31 ≤ dOp d && dOp d ≤ 0x34 && kSrcHbm d) || s.controllerOpen (devSetting (kSrcDev d)))
    && (dOp d != 0x23 || (s.controllerOpen (devSetting (uAcc d)) && s.controllerOpen (devSetting (uTally d))))
    && (dOp d != 0x24 || !bit d 150 || s.controllerOpen (devSetting (uLand d)))

/-- A collective takes its context and, unless its launch is to come, begins. One whose source read is uncorrectable fails, and tells
every member with which the algorithm exchanges data (R423). The first exchange of a bucket keeps its context (R271). -/
def State.takeContext (s : State) (p no : Nat) (c : Coll) : State :=
  let ctx := s.collPlace c.desc
  let dst := collDest p c.desc
  let r := (s.setColl ctx c).contribution c
  let keep := fun (q : Sequencer) => if c.op = 0x23 ∧ c.key ∉ q.holds then { q with holds := q.holds ++ [c.key] } else q
  let s1 := { r.1 with seq := keep r.1.seq }.updOp p no (fun o => { o with kind := .coll ctx })
  match r.2 with
  | none =>
    match look ctx s1.colls with
    | none => s1
    | some c0 => s1.setColl ctx { c0 with data := List.replicate c0.size 0, fail := some 0x0C }
  | some c1 =>
    let c2 := { c1 with flags := c1.flagsOf, launched := c.launch = 0 || decide (c.launch ≤ s.ftime) }
    let s2 := if c.launch ≠ 0 ∧ c.launch < s.ftime then s1.count (Key.collLaunchLate c.axis) 1 else s1
    (s2.undefAt dst.1 dst.2.1 dst.2.2).setColl ctx c2

/-- A controller that a collective uses accepts nothing: the endpoint that its request goes to (R480). -/
def State.closedFor (s : State) (p d : Nat) : Nat :=
  let dst := collDest p d
  let ns := (if dst.1 = 0 ∧ dst.2.2 ≠ 0 then [devSetting dst.2.1] else [])
    ++ (if 0x31 ≤ dOp d ∧ dOp d ≤ 0x34 ∧ kSrcHbm d then [devSetting (kSrcDev d)] else [])
    ++ (if dOp d = 0x23 then [devSetting (uAcc d), devSetting (uTally d)] else [])
    ++ (if dOp d = 0x24 then [devSetting (uLand d)] else [])
  0x2000 + ((ns.find? (fun n => !s.controllerOpen n)).getD 0)

/-- A collective that waits starts if it can: its context is free, and no other collective of the axis is in progress for GROUP_FORM. It
completes at once with GROUP_REFUSED without its group or unsynchronised. It takes its context once no rim die of the axis is under reset (log
entry 16) and the controllers accept requests; a request to one that does not is dropped, and recovers as R382 says (R480). -/
def State.tryColl (s : State) (p no : Nat) : State :=
  match (s.core p).op no with
  | none => s
  | some o =>
    let c := s.collOf p no o.desc
    if o.kind ≠ .ctxHeld ∨ o.msgs ≠ [] ∨ s.ctxTaken o.desc ∨ (c.op = 0x30 ∧ s.colls.any (fun x => x.2.axis == c.axis)) then s
    else if c.op ≠ 0x30 ∧ (s.flag (Key.groupFormed c.axis) = false ∨ s.get (Key.groupStep c.axis) ≠ c.step) then
      (s.count (Key.groupRefusals c.axis) 1).endColl c 0x0A
    else if c.launch ≠ 0 ∧ s.get Key.timeState ≠ 1 ∧ s.get Key.timeState ≠ 3 then
      (s.count (Key.collLaunchUnsync c.axis) 1).endColl c 0x0A
    else if (s.carriers c.axis).any (fun r => s.resets.any (fun j => j.domain == 5 && j.target == r)) then s
    else if s.collControllers p o.desc = false then s.localMsg p no (s.closedFor p o.desc)
    else s.takeContext p no c

/-! ## Everything moves on -/

/-- Started descriptors that wait for a context, as (core, start number). -/
def State.ctxWaiters (s : State) : List (Nat × Nat) :=
  s.cores.flatMap (fun c => (c.2.ops.filter (fun o => o.kind == .ctxHeld)).map (fun o => (c.1, o.no)))

/-- Every collective moves on and ends if it can, and every waiting one starts if it can. -/
def State.collPass (s : State) : State :=
  let s1 := (s.colls.map Prod.fst).foldl (fun s ctx => (s.pumpColl ctx).closeColl ctx) s
  s1.ctxWaiters.foldl (fun s w => s.tryColl w.1 w.2) s1

/-- Collectives move on until nothing more can: as many passes as there are collectives and waiting ones, and one more. -/
def State.runColls (s : State) : State :=
  (List.range (s.colls.length + 2 * s.ctxWaiters.length + 1)).foldl (fun s _ => s.collPass) s

/-- A collective descriptor starts. -/
def collOp (core : CoreId) (s : State) (op : Nat) : Host.Outcome State Fault Refusal :=
  startMse core s op fun _ p d s =>
    match s.collCause p d with
    | some k => s.engineStop p 2 k d
    | none => (s.addOp p d .ctxHeld [] false).runColls

/-- GROUP_FORM (R412). -/
def execGroupForm (core : CoreId) (s : State) : Host.Outcome State Fault Refusal := collOp core s 0x30

/-- ALL_REDUCE (R405, R410). -/
def execCollAllReduce (core : CoreId) (s : State) : Host.Outcome State Fault Refusal := collOp core s 0x31

/-- REDUCE_SCATTER (R405, R410). -/
def execCollReduceScatter (core : CoreId) (s : State) : Host.Outcome State Fault Refusal := collOp core s 0x32

/-- ALL_GATHER (R405, R410). -/
def execCollAllGather (core : CoreId) (s : State) : Host.Outcome State Fault Refusal := collOp core s 0x33

/-- BROADCAST (R405, R410). -/
def execCollBroadcast (core : CoreId) (s : State) : Host.Outcome State Fault Refusal := collOp core s 0x34

/-- BARRIER (R405). -/
def execCollBarrier (core : CoreId) (s : State) : Host.Outcome State Fault Refusal := collOp core s 0x35

/-- COLLECTIVE_LAUNCH (R424): a collective held in the context, on whichever axis, begins once fabric time has reached its LAUNCH_TIME. -/
def execCollectiveLaunch (context : Nat) (s : State) : Host.Outcome State Fault Refusal :=
  match (s.collsAt context).filter (fun x => !x.2.launched && decide (x.2.launch ≤ s.ftime)) with
  | [] => .next s
  | due => .next (s.whileUp fun s => (due.foldl (fun s x => s.setColl x.1 { x.2 with launched := true }) s).runColls)

/-- A packet of a collective arrives: it joins its stream, or is discarded and frees its buffer space (R416). -/
def collArrival (kind : Nat) (via : Option Port) (p : Packet) (s : State) : Host.Outcome State Fault Refusal :=
  if s.packageHeld || !(isCollPacket p && opKind p == kind) || !s.isOwn p.destNode.toNat then .next s
  else
    match (s.takeIn via p).turnedAway via p with
    | some t => .next (t.freeSpace p)
    | none => .next ((s.takeIn via p).joinStream p).runColls

/-- OPENER_ARRIVAL (R416): parked, accepted or rejected. -/
def execOpenerArrival (via : Option Port) (packet : Packet) (s : State) : Host.Outcome State Fault Refusal :=
  collArrival 1 via packet s

/-- COLLECTIVE_DATA_ARRIVAL (R416, R417). -/
def execCollectiveDataArrival (via : Option Port) (packet : Packet) (s : State) : Host.Outcome State Fault Refusal :=
  collArrival 0 via packet s

/-- ABORT_ARRIVAL (R423). -/
def execAbortArrival (via : Option Port) (packet : Packet) (s : State) : Host.Outcome State Fault Refusal :=
  collArrival 2 via packet s

/-- COLL_PARK_EXPIRY (R416): the parked streams named are discarded, and their buffer space frees. -/
def execCollParkExpiry (node : BitVec 32) (context : Nat) (key : BitVec 16) (s : State) : Host.Outcome State Fault Refusal :=
  let at_ := collKey (s.axisFrom node.toNat) context
  let mine := fun (t : Stream) => t.src == node.toNat && t.context == at_ && t.key == key.toNat && !t.accepted
  let gone := s.streams.filter mine
  .next (s.whileUp fun s => (gone.flatMap (fun t => t.opener.toList ++ t.waiting)).foldl State.freeSpace
    ({ s with streams := s.streams.filter (fun t => !mine t) }.count (Key.collParkExpired (s.axisFrom node.toNat)) gone.length))

/-- COLL_PROGRESS_TIMEOUT (R423). The row names no axis: where collectives of several axes hold the context, which one has made no progress is
free (log entry 16). -/
def execCollProgressTimeout (context : Nat) (s : State) : Host.Outcome State Fault Refusal :=
  match (s.collsAt context).map Prod.fst with
  | [] => .next (s.whileUp State.runColls)
  | [at_] => .next (s.whileUp fun s => (s.failColl at_ 0x0B).runColls)
  | ats => .next (s.whileUp fun s => (s.tick.failColl (ats.getD (s.free % ats.length) 0) 0x0B).runColls)

/-! ## The bucket operations -/

/-- The bucket operations of the open step that are in progress, held ones with them. -/
def State.stepOps (s : State) : List (Nat × MseOp) :=
  s.cores.flatMap (fun c => (c.2.ops.filter (fun o => isBucket (dOp o.desc))).map (fun o => (c.1, o)))

/-- step_abandon (R270). -/
def State.stepAbandon (s : State) : State :=
  let s1 := s.stepOps.foldl (fun s w =>
    match w.2.kind with
    | .coll ctx => (s.failColl ctx 0x0B).closeColl ctx
    | _ => s.endColl (s.collOf w.1 w.2.no w.2.desc) 0x0B) s
  let q := s1.seq
  let left := q.zones.filter (fun z => q.admits z.1 && !q.fin.contains (z.1 % 256))
  let s2 := left.foldl (fun s z => s.undefAt z.2.1 z.2.2.1 z.2.2.2) s1
  ({ s2 with seq := { q with isOpen := false, zones := [], holds := [] } }).count Key.bucketStepsAbandoned 1

/-- step_open for a started BUCKET_STEP: opens the step, or holds it while the open step is unfinished (R270). -/
def State.stepTry (s : State) (p no : Nat) (abandon : Bool) : State :=
  match (s.core p).op no with
  | none => s
  | some o =>
    if o.kind ≠ .stepHeld then s
    else
      let s0 := s.releaseIfDue
      let s1 := if abandon && s0.seq.unfinished then s0.stepAbandon else s0
      if s1.seq.unfinished then s1
      else
        let s2 := { s1 with seq := s1.seq.opened (uStep o.desc) (uId o.desc) (uParams o.desc) }.armHeld
        (s2.finishOp p { o with leaves := 1 }).runColls

/-- BUCKET_STEP (R270). -/
def execBucketStep (core : CoreId) (s : State) : Host.Outcome State Fault Refusal :=
  startMse core s 0x22 fun _ p d s =>
    match s.bucketCause d with
    | some k => s.engineStop p 2 k d
    | none =>
      let no := (s.core p).nextOp
      (s.addOp p d .stepHeld [] false).stepTry p no (bit d 149)

/-- BUCKET_STEP_RELEASE (R270): a held BUCKET_STEP opens its step once the previous one is finished. -/
def execBucketStepRelease (core : CoreId) (no : Nat) (s : State) : Host.Outcome State Fault Refusal :=
  match s.physOf core.toNat with
  | none => .next s
  | some p => .next (s.whileUp fun s => s.stepTry p no false)

/-- exchange_start once the bucket lies within the window: the exchange runs and goes for its context. -/
def State.admitExchange (s : State) (p no b : Nat) : State :=
  ({ s with seq := { s.seq with run := s.seq.run ++ [b % 256] } }.updOp p no (fun o => { o with kind := .ctxHeld })).runColls

/-- BUCKET_EXCHANGE (R270, R272). -/
def execBucketExchange (core : CoreId) (s : State) : Host.Outcome State Fault Refusal :=
  startMse core s 0x23 fun _ p d s =>
    match s.bucketCause d with
    | some k => s.engineStop p 2 k d
    | none =>
      let no := (s.core p).nextOp
      let s1 := s.addOp p d .windowHeld [] false
      if s.seq.inWindow (uId d) then s1.admitExchange p no (uId d) else s1

/-- BUCKET_WINDOW_ADMIT (R270): a held exchange is admitted once its bucket falls within the window. -/
def execBucketWindowAdmit (core : CoreId) (no : Nat) (s : State) : Host.Outcome State Fault Refusal :=
  match s.physOf core.toNat with
  | none => .next s
  | some p =>
    match (s.core p).op no with
    | none => .next s
    | some o =>
      if o.kind ≠ .windowHeld then .next s
      else .next (s.whileUp fun s => if s.seq.inWindow (uId o.desc) then s.admitExchange p no (uId o.desc)
        else s.countClocks Key.bucketWindowStallClocks)

/-- BUCKET_AGREE (R278). -/
def execBucketAgree (core : CoreId) (s : State) : Host.Outcome State Fault Refusal :=
  startMse core s 0x24 fun _ p d s =>
    match s.bucketCause d with
    | some k => s.engineStop p 2 k d
    | none => (s.addOp p d .ctxHeld [] false).runColls

/-! ## BUCKET_ADD (R267, R268) -/

/-- Two BUCKET_ADDs of a core touch a byte in common. -/
def addsOverlap (a b : Nat) : Bool :=
  devOverlap (uAcc a) (mLen a) (uAcc b) (mLen b) || devOverlap (uTally a) 32 (uTally b) 32
    || devOverlap (uAcc a) (mLen a) (uTally b) 32 || devOverlap (uTally a) 32 (uAcc b) (mLen b)

/-- An earlier BUCKET_ADD of the core that touches the same bytes has not taken effect (R268). -/
def Core.addBusy (c : Core) (no d : Nat) : Bool :=
  c.ops.any (fun o => decide (o.no < no) && dOp o.desc == 0x21 && !o.fin && addsOverlap o.desc d)

/-- One element's sum, 0 outside the 64-bit range, and whether it was (R267). -/
def addGrain (a g : Nat) : Nat × Bool :=
  let v := sgn 64 a + sgn 64 g
  if -(2 ^ 63) ≤ v ∧ v ≤ 2 ^ 63 - 1 then (unsgn 64 v, false) else (0, true)

/-- What the tile records add to a tally (R118, R267). -/
def sideCounts (bs : List Byte) : Nat :=
  (wordsOf 32 bs).foldl (fun t r => addStatus t (fld r 64 12 + fld r 32 12 * 2 ^ 32)) 0

/-- The effect of a BUCKET_ADD. An uncorrectable read leaves the accumulator elements and the tally undefined. -/
def State.bucketAdd (s : State) (p no d : Nat) : State :=
  let sp := (s.core p).sp
  let src := sp.readN (mLocal d) (mLen d)
  let side := sideCounts (sp.readN (uSide d) (32 * uSides d))
  let r1 := if bit d 149 then (s, some (List.replicate (mLen d) 0)) else s.devRead (uAcc d) (mLen d)
  let r2 := if bit d 149 then (r1.1, some (List.replicate 32 0)) else r1.1.devRead (uTally d) 32
  match r1.2, r2.2 with
  | some acc, some tally =>
    let sums := if bit d 149 then (wordsOf 8 src).map (fun g => (g, false))
      else List.zipWith addGrain (wordsOf 8 acc) (wordsOf 8 src)
    let spill := (sums.filter (·.2)).length
    let t := addStatus (addStatus (leNat tally) (min spill (2 ^ 32 - 1))) side
    (((r2.1.devWrite p no (uAcc d) (sums.flatMap (fun v => leBytes 8 v.1))).devWrite p no (uTally d) (leBytes 32 t)).count
      Key.bucketAddOverflows spill).markFin p no
  | _, _ =>
    (((r2.1.devUndef (uAcc d) (mLen d)).devUndef (uTally d) 32).markFin p no).updOp p no (fun o => { o with status := 0x0C, leaves := 0 })

/-- A BUCKET_ADD takes effect if it is its turn and its controllers accept requests; a request to one that does not is dropped, and
recovers as R382 says (R480). -/
def State.addTry (s : State) (p no : Nat) : State :=
  match (s.core p).op no with
  | none => s
  | some o =>
    let shut := [devSetting (uAcc o.desc), devSetting (uTally o.desc)].find? (fun n => !s.controllerOpen n)
    if o.fin || dOp o.desc != 0x21 || (s.core p).addBusy no o.desc || !o.msgs.isEmpty then s
    else
      match shut with
      | some n => s.localMsg p no (0x2000 + n)
      | none => s.bucketAdd p no o.desc

/-- Every BUCKET_ADD of a core that is held tries again, in start order. -/
def State.addAll (s : State) (p : Nat) : State :=
  ((s.core p).ops.filter (fun o => o.kind == .held)).foldl (fun s o => s.addTry p o.no) s

/-- BUCKET_ADD (R267). -/
def execBucketAdd (core : CoreId) (s : State) : Host.Outcome State Fault Refusal :=
  startMse core s 0x21 fun _ p d s =>
    match s.bucketCause d with
    | some k => s.engineStop p 2 k d
    | none =>
      let no := (s.core p).nextOp
      (s.addOp p d .held [] false).addTry p no

/-! ## Completion of local descriptors -/

/-- A local operation that has taken effect completes; one whose read was uncorrectable then stops the engine (R75, R80). -/
def State.completeLocal (s : State) (p : Nat) (o : MseOp) : State :=
  let s1 := if dOp o.desc = 0x21 then (s.finishOp p o).count Key.bucketAdds 1
    else if dOp o.desc = 0x10 then (s.laneOpened p o.desc).finishOp p o
    else s.finishOp p o
  if o.status = 0x0C then s1.stopEngine p 2 5 o.desc else s1

/-- MSE_DESC_COMPLETE (R75): a local operation that has taken effect completes; a FENCE flushes and completes once every
earlier descriptor has completed; a held operation tries again. -/
def execMseDescComplete (core : CoreId) (no : Nat) (s : State) : Host.Outcome State Fault Refusal :=
  match s.physOf core.toNat with
  | none => .next s
  | some p =>
    if s.engineHeld p 2 then .next s
    else
      match (s.core p).op no with
      | none => .next s
      | some o =>
        match o.kind with
        | .fence earlier =>
          if (s.core p).ops.any (fun x => earlier.contains x.no) then .next s
          else .next ((s.fenceFlush core.toNat no).finishOp p o)
        | .held => .next ((s.laneAll p).addAll p)
        | .ctxHeld => .next s.runColls
        | .plain => if o.fin then .next (((s.completeLocal p o).laneAll p).addAll p) else .next s
        | _ => .next s

end Sys2Proof.Machine
end

