-- ==== Sys2Proof/Machine/Mxe.lean ====
section
/-!
DEFINITION. The matrix engine (R93–R127), the reference order it follows (R161–R170) and Assay (R178–R184).
-/
namespace Sys2Proof.Machine

/-! ## Descriptor fields (R98) -/

structure MxeD where
  aAddr : Nat
  aTrans : Bool
  aReuse : Bool
  aFmt : Nat
  aStride : Nat
  bStride : Nat
  bAddr : Nat
  bTrans : Bool
  bReuse : Bool
  bFmt : Nat
  kLen : Nat
  kLast : Bool
  accInit : Bool
  block : Nat
  bank : Nat
  outPath : Nat
  outFmt : Nat
  outTrans : Bool
  sideGran : Nat
  outAddr : Nat
  outStride : Nat
  sideAddr : Nat
  aMxs : Nat
  bMxs : Nat
  aCtx : Nat
  bCtx : Nat
  outCtx : Nat
  tensor : Nat
  mb : Nat
  grainExp : Int
  indexLd : Nat
  indexBase : Nat
deriving DecidableEq, Repr

/-- The fields of an MXE descriptor (R98). -/
def MxeD.of (d : Nat) : MxeD :=
  { aAddr := fld d 128 21, aTrans := bit d 149, aReuse := bit d 150, aFmt := fld d 151 3, aStride := fld d 160 16,
    bStride := fld d 176 16, bAddr := fld d 192 21, bTrans := bit d 213, bReuse := bit d 214, bFmt := fld d 215 3,
    kLen := fld d 224 12, kLast := bit d 236, accInit := bit d 237, block := fld d 238 2, bank := fld d 240 2,
    outPath := fld d 242 2, outFmt := fld d 244 3, outTrans := bit d 247, sideGran := fld d 248 2,
    outAddr := fld d 256 21, outStride := fld d 280 16, sideAddr := fld d 296 21, aMxs := fld d 320 21,
    bMxs := fld d 344 21, aCtx := fld d 368 8, bCtx := fld d 376 8, outCtx := fld d 384 8, tensor := fld d 392 16,
    mb := fld d 408 16, grainExp := sgn 16 (fld d 424 16), indexLd := fld d 440 24, indexBase := fld d 464 48 }

/-- Rows of tiles in a block, along m (R101). -/
def blkM (b : Nat) : Nat := if b = 1 ∨ b = 3 then 2 else 1

/-- Columns of tiles in a block, along n (R101). -/
def blkN (b : Nat) : Nat := if b = 2 ∨ b = 3 then 2 else 1

/-- Whether BANK is permitted (R101). -/
def bankOk (block bank : Nat) : Bool :=
  if block = 0 then true else if block = 3 then bank == 0 else bank == 0 || bank == 2

/-- The tiles of a block as (t, i, j), in order of t (R101). -/
def blkTiles (b : Nat) : List (Nat × Nat × Nat) :=
  (List.range (blkM b * blkN b)).map (fun t => (t, t % blkM b, t / blkM b))

/-- A bank of a core (R96). -/
def Core.bank (c : Core) (n : Nat) : Bank := (look n c.banks).getD Bank.fresh

/-- The core with a bank replaced. -/
def Core.setBank (c : Core) (n : Nat) (x : Bank) : Core := { c with banks := put n x c.banks }

/-- The banks of the block of a descriptor. -/
def MxeD.banks (x : MxeD) : List Nat := (List.range (blkM x.block * blkN x.block)).map (x.bank + ·)

/-- Bits of an operand element (R99). -/
def opBits (f : Nat) : Nat :=
  match f with
  | 0 => 32
  | 1 => 16
  | 2 => 16
  | 5 => 6
  | 6 => 4
  | _ => 8

/-- MXFP formats (R99). -/
def isMx (f : Nat) : Bool := f == 5 || f == 6

/-- The value of an operand element (R99, R128–R134). -/
def opValue (f w : Nat) : Num :=
  match f with
  | 0 => fFP32.decode w
  | 1 => fFP16.decode w
  | 2 => fBF16.decode w
  | 3 => fE4M3.decode w
  | 4 => fE5M2.decode w
  | 5 => fE3M2.decode w
  | 6 => fE2M1.decode w
  | _ => Num.ofInt (sgn 8 w)

/-- The accumulator kind of a format pair, or none outside the operand pairs table (R94). -/
def pairKind (a b : Nat) : Option BankKind :=
  if (a = 3 ∨ a = 4) ∧ (b = 3 ∨ b = 4) then some .exact
  else if a = 7 ∧ b = 7 then some .exact
  else if isMx a ∧ isMx b then some .fp32
  else if a = b ∧ a ≤ 2 then some .fp32
  else none

/-- The raw kind of a block from its banks (R115): exact when any bank is exact, else FP32. -/
def rawKind (ks : List BankKind) : BankKind := if ks.contains .exact then .exact else .fp32

/-- Output element size in bytes (R117). -/
def outSize (f : Nat) (k : BankKind) : Nat :=
  match f with
  | 0 => 4
  | 1 => 2
  | 2 => 2
  | 3 => 1
  | 4 => 1
  | 6 => 8
  | _ => if k = .exact then 16 else 4

/-- Whether a path accepts an output format (R100). -/
def pathOk (path f : Nat) : Bool :=
  if path = 1 then decide (f ≤ 5) else if path = 2 then f == 2 || f == 4 || f == 6 else if path = 3 then decide (f ≤ 6) else f != 7

/-! ## Refusal (R102) -/

/-- An operand's range and alignment (R98, R103, R104): `rows` rows of m or n and K indices. -/
def operandRange (addr stride : Nat) (trans : Bool) (f mxs rows k : Nat) : Bool :=
  decide (addr % 32 = 0)
    && (if trans then rangeOk addr (32 * stride) k (rows * opBits f / 8)
        else rangeOk addr (32 * stride) rows (ceilDiv (k * opBits f) 8))
    && (!isMx f || (decide (mxs % 64 = 0) && rangeOk mxs 64 rows (ceilDiv k 32)))

/-- The kinds the block's banks have once the descriptor has accumulated. -/
def MxeD.kindsAfter (x : MxeD) (op : Nat) (c : Core) : List BankKind :=
  if op = 1 then [(pairKind x.aFmt x.bFmt).getD .fp32]
  else if op = 2 then [if x.aFmt = 0 then .fp32 else .exact]
  else x.banks.map (fun b => (c.bank b).kind)

/-- Reserved field values of an MMA, COMBINE or DRAIN (R102, R110, cause 0x02), whatever OUT_PATH is (log entry 21). -/
def MxeD.reserved (x : MxeD) (op : Nat) (c : Core) : Bool :=
  let ks := x.kindsAfter op c
  let line := (if x.outTrans then 64 * blkM x.block else 32 * blkN x.block) * outSize x.outFmt (rawKind ks)
  !bankOk x.block x.bank
    || (op == 3 && x.outPath == 0)
    || !pathOk x.outPath x.outFmt
    || (x.outFmt == 5 && ks.contains .exact && ks.contains .fp32)
    || !c.ctxOk x.outCtx
    || !c.ctxOk x.aCtx
    || (op != 2 && !c.ctxOk x.bCtx)
    || x.outStride == 0
    || decide (32 * x.outStride < line)
    || (op == 1 && ((pairKind x.aFmt x.bFmt).isNone || x.kLen == 0 || decide (2048 < x.kLen)
        || (x.kLen % 32 != 0 && !x.kLast) || x.aStride == 0 || x.bStride == 0
        || (x.aTrans && isMx x.aFmt) || (x.bTrans && isMx x.bFmt)
        || (!x.accInit && x.banks.any (fun b => (c.bank b).closed
            || ((c.bank b).kind != .empty && some (c.bank b).kind != pairKind x.aFmt x.bFmt)))))
    || (op == 2 && (!(x.aFmt == 0 || x.aFmt == 7) || x.aStride == 0
        || x.banks.any (fun b => (c.bank b).kind != .empty
            && (c.bank b).kind != (if x.aFmt == 0 then BankKind.fp32 else BankKind.exact))))

/-- Ranges and alignment of an MMA, COMBINE or DRAIN (R102, cause 0x03). -/
def MxeD.rangesOk (x : MxeD) (op : Nat) (c : Core) : Bool :=
  let m := 64 * blkM x.block
  let n := 32 * blkN x.block
  let s := outSize x.outFmt (rawKind (x.kindsAfter op c))
  let rs := if x.aFmt = 0 then 4 else 16
  (op != 1 || (operandRange x.aAddr x.aStride x.aTrans x.aFmt x.aMxs m x.kLen
      && operandRange x.bAddr x.bStride x.bTrans x.bFmt x.bMxs n x.kLen))
    && (op != 2 || (decide (x.aAddr % 32 = 0)
      && (if x.aTrans then rangeOk x.aAddr (32 * x.aStride) n (m * rs) else rangeOk x.aAddr (32 * x.aStride) m (n * rs))))
    && decide (x.outAddr % 32 = 0) && decide (x.sideAddr % 32 = 0)
    && (!(x.outPath == 1 || x.outPath == 2)
      || ((if x.outTrans then rangeOk x.outAddr (32 * x.outStride) n (m * s)
            else rangeOk x.outAddr (32 * x.outStride) m (n * s))
        && (x.sideGran == 0 || spRange x.sideAddr (blkM x.block * blkN x.block * (if x.sideGran = 1 then 32 else 288)))))

/-- The ENGINE_STOP cause of a refused descriptor, if it is refused (R102). -/
def MxeD.refusal (x : MxeD) (op : Nat) (c : Core) : Option Nat :=
  if x.reserved op c then some 2 else if !x.rangesOk op c then some 3 else none

/-! ## Operands (R103–R106) -/

/-- `n` bits of a memory from a bit address on. -/
def Mem.bits (m : Mem) (a n : Nat) : Nat := m.num (a / 8) (n / 8 + 2) / 2 ^ (a % 8) % 2 ^ n

/-- The element codes of an operand, row by row (R103). -/
def readOperand (m : Mem) (addr stride : Nat) (trans : Bool) (f rows k : Nat) : List (List Nat) :=
  let b := opBits f
  (List.range rows).map (fun r => (List.range k).map (fun j =>
    if trans then m.bits (8 * (addr + j * 32 * stride) + r * b) b else m.bits (8 * (addr + r * 32 * stride) + j * b) b))

/-- The block-scale codes of an MXFP operand, row by row (R104). -/
def readScales (m : Mem) (mxs f rows k : Nat) : List (List Nat) :=
  if isMx f then (List.range rows).map (fun r => (List.range (ceilDiv k 32)).map (fun g => (m.read (mxs + 64 * r + g)).toNat))
  else []

/-- An operand as the array uses it: the staged copy where R106 honours a reuse, else the scratchpad's bytes now. The flag
says that a reuse was asked for and not honoured. R106 does not say whether block scales count toward the 128 KiB an operand
may occupy: DESIGN CHOICE, the elements alone count (log entry 55). -/
def stageOperand (m : Mem) (old : Option Staged) (addr stride : Nat) (trans reuse : Bool) (f mxs rows k : Nat) :
    Staged × Bool :=
  let key := [addr, b2n trans, f, stride, mxs, k, rows]
  let fresh : Staged := { key := key, elems := readOperand m addr stride trans f rows k, scales := readScales m mxs f rows k }
  match old with
  | some x => if reuse && x.key == key && decide (rows * k * opBits f ≤ 8 * 0x20000) then (x, false) else (fresh, reuse)
  | none => (fresh, reuse)

/-! ## Accumulation (R107–R110, R120, R121) -/

/-- The special tag of an exact value (R121): 0 finite, 1 +∞, 2 −∞, 3 NaN. -/
def tagOf : Num → Nat
  | .nan => 3
  | .inf s => if s then 2 else 1
  | .fin _ _ _ => 0

/-- The tag of a sum (R120). -/
def tagAdd (a b : Nat) : Nat := if a = 0 then b else if b = 0 then a else if a = b then a else 3

/-- An exact value in units of 2^−32; every product of exact formats is a whole number of them (R107). -/
def units : Num → Int
  | .fin s n d => (if s then -1 else 1) * ((n * 2 ^ 32 / d : Nat) : Int)
  | _ => 0

/-- Adds an exact amount to an entry (R107, R121, R170): the entry, and whether it left [−2^95, 2^95). The value part of a
non-finite entry takes no part. -/
def exactAdd (e : Int × Nat) (v : Int) (tag : Nat) : (Int × Nat) × Nat :=
  let t := tagAdd e.2 tag
  if t ≠ 0 then ((e.1, t), 0)
  else if e.1 + v < -2 ^ 95 ∨ 2 ^ 95 ≤ e.1 + v then ((e.1, 3), 1) else ((e.1 + v, 0), 0)

/-- Adds the grains of one output element of an exact pair (R107, R170). -/
def exactEntry (e : Int × Nat) (a b : List Num) : (Int × Nat) × Nat :=
  (runsOf 32 (List.zipWith Num.mul a b)).foldl (fun acc g =>
    let r := exactAdd acc.1 (g.foldl (fun v x => v + units x) 0) (g.foldl (fun t x => tagAdd t (tagOf x)) 0)
    (r.1, acc.2 + r.2)) (e, 0)

/-- The grain partials of one output element of a wide pair, in increasing grain order (R108, R164). -/
def widePartials (mx : Bool) (a b : List Num) (sa sb : List Num) : List Num :=
  if mx then
    List.zipWith (fun g sc => grainMx sc.1 sc.2 (g.map Prod.fst) (g.map Prod.snd)) (runsOf 32 (a.zip b)) (sa.zip sb)
  else (runsOf 32 (a.zip b)).map (fun g => grainWide (g.map Prod.fst) (g.map Prod.snd))

/-- The value an entry holds (R96, R121, R123). -/
def entryValue (k : BankKind) (e : Int × Nat) : Num :=
  match k with
  | .empty => Num.zero
  | .fp32 => ofFp32 e.1.toNat
  | .exact =>
    match e.2 with
    | 0 => (Num.ofInt e.1).mul (Num.pow2 (-32))
    | 1 => .inf false
    | 2 => .inf true
    | _ => .nan

/-- The entry of a bank; an empty bank's read as +0. -/
def Bank.entry (b : Bank) (i : Nat) : Int × Nat := if b.kind = .empty then (0, 0) else b.entries.getD i (0, 0)

/-- The 2,048 entries of a tile as (row, column), entry 32r + c (R96). -/
def tileCells : List (Nat × Nat) := (List.range 2048).map (fun i => (i / 32, i % 32))

/-- The operands of an MMA as values: rows of A, rows of B, and their block scales. -/
structure MmaIn where
  a : List (List Num)
  b : List (List Num)
  sa : List (List Num)
  sb : List (List Num)

/-- One tile of an MMA: the bank after it and how many entries it set to NaN under R170. -/
def mmaTile (x : MxeD) (kind : BankKind) (y : MmaIn) (old : Bank) (i j : Nat) : Bank × Nat :=
  let start : Bank := if x.accInit then { old with kind := .empty, entries := [] } else old
  let cells := tileCells.map (fun rc =>
    let m := 64 * i + rc.1
    let n := 32 * j + rc.2
    let e := start.entry (32 * rc.1 + rc.2)
    if kind = .exact then exactEntry e (y.a.getD m []) (y.b.getD n [])
    else
      (((fp32 (foldGrains (ofFp32 e.1.toNat)
        (widePartials (isMx x.aFmt) (y.a.getD m []) (y.b.getD n []) (y.sa.getD m []) (y.sb.getD n [])))
        : Nat), 0), 0))
  ({ kind := kind, closed := if x.kLast then true else if x.accInit then false else old.closed, fmt := x.aFmt,
     entries := cells.map Prod.fst },
   cells.foldl (fun a c => a + c.2) 0)

/-- One tile of a COMBINE (R110, R115): raw elements of the tile at block rows and columns i, j. -/
def combineTile (x : MxeD) (m : Mem) (old : Bank) (i j : Nat) : Bank × Nat :=
  let rs := if x.aFmt = 0 then 4 else 16
  let cells := tileCells.map (fun rc =>
    let r := 64 * i + rc.1
    let c := 32 * j + rc.2
    let w := m.num (if x.aTrans then x.aAddr + c * 32 * x.aStride + r * rs else x.aAddr + r * 32 * x.aStride + c * rs) rs
    let e := old.entry (32 * rc.1 + rc.2)
    if x.aFmt = 0 then
      (if x.accInit then (((w : Nat) : Int), 0) else (((fp32 (add32 (ofFp32 e.1.toNat) (ofFp32 w)) : Nat) : Int), 0), 0)
    else
      let v := sgn 128 w
      let t := if v < -2 ^ 95 ∨ 2 ^ 95 ≤ v then 3 else 0
      if x.accInit then ((if t = 0 then v else 0, t), 0) else exactAdd e v t)
  ({ kind := if x.aFmt = 0 then .fp32 else .exact, closed := x.accInit || old.closed, fmt := x.aFmt,
     entries := cells.map Prod.fst },
   cells.foldl (fun a c => a + c.2) 0)

/-! ## Output (R111–R119) -/

/-- What one output element gives: its bytes, |v| as an FP32 pattern, and what it counts. -/
structure OutElem where
  bytes : List Byte
  mag   : Nat
  nonf  : Nat
  sat   : Nat
  ovf   : Nat
  grain : Int
deriving DecidableEq, Repr

/-- The format of an output code 0–4 (R100). -/
def outFormat (f : Nat) : Fmt :=
  match f with
  | 0 => fFP32
  | 1 => fFP16
  | 2 => fBF16
  | 3 => fE4M3
  | _ => fE5M2

/-- The conversion of one element (R111–R115): `acc` the bank's kind and entry, `scale` fA × fB, `q` the quantisation factor,
`raw` the raw kind of the block, `r` the rounding generator's output. -/
def outElem (x : MxeD) (raw kind : BankKind) (e : Int × Nat) (scale q : Num) (r : Nat) : OutElem :=
  let acc := entryValue kind e
  let v := acc.mul scale
  let mag := fp32 v.abs
  let md := if x.outPath = 2 then Round.sr r else Round.rna
  if x.outFmt = 5 then
    if raw = .exact then
      { bytes := leBytes 16 (if kind = .exact then (if e.2 = 0 then unsgn 128 e.1 else 2 ^ 127) else 0), mag := mag,
        nonf := b2n (!acc.isFin), sat := 0, ovf := 0, grain := 0 }
    else { bytes := leBytes 4 (fp32 acc), mag := mag, nonf := b2n (!acc.isFin), sat := 0, ovf := 0, grain := 0 }
  else if x.outFmt = 6 then
    let g := toGrain v x.grainExp r
    { bytes := leBytes 8 (unsgn 64 g.1), mag := mag, nonf := b2n g.2.1, sat := 0, ovf := b2n g.2.2, grain := g.1 }
  else
    let w := v.mul q
    let cv := (outFormat x.outFmt).convert md w
    { bytes := leBytes (outSize x.outFmt .fp32) cv.code, mag := mag, nonf := b2n (!w.isFin), sat := b2n cv.sat, ovf := 0,
      grain := 0 }

/-- The elements of one tile with their cells. -/
def outTile (x : MxeD) (raw : BankKind) (b : Bank) (scale q : Num) (seed step i j : Nat) : List ((Nat × Nat) × OutElem) :=
  tileCells.map (fun rc =>
    (rc, outElem x raw b.kind (b.entry (32 * rc.1 + rc.2)) scale q
      (if x.outPath = 2 then
        rgen seed step x.tensor x.mb (x.indexBase + (64 * i + rc.1) * x.indexLd + (32 * j + rc.2)) else 0)))

/-- The tile record of a tile (R118), 32 bytes. -/
def tileRecord (es : List ((Nat × Nat) × OutElem)) : List Byte :=
  let sum (f : OutElem → Nat) : Nat := es.foldl (fun a e => a + f e.2) 0
  leBytes 32 (es.foldl (fun m e => maxPattern m e.2.mag) 0 + 2 ^ 32 * (sum OutElem.nonf % 2 ^ 12)
    + 2 ^ 48 * (sum OutElem.sat % 2 ^ 12) + 2 ^ 64 * (sum OutElem.ovf % 2 ^ 12)
    + 2 ^ 128 * unsgn 64 (es.foldl (fun a e => a + e.2.grain) 0))

/-- Max-abs value `u` of a tile (R119). -/
def sideMax (gran : Nat) (trans : Bool) (es : List ((Nat × Nat) × OutElem)) (u : Nat) : Nat :=
  (es.filter (fun e => if gran = 3 ∧ trans then e.1.2 == u / 2 && e.1.1 / 32 == u % 2 else e.1.1 == u)).foldl
    (fun m e => maxPattern m e.2.mag) 0

/-- The output of a descriptor from the block's banks (R111–R119): what its completion makes visible. Where output and side
ranges overlap the spec gives no order: DESIGN CHOICE, all output is written before all side output (log entry 55). -/
def State.mxeOutput (s : State) (p d op : Nat) (x : MxeD) : Started :=
  let c := s.core p
  let n := physCluster p
  let tiles := blkTiles x.block
  let base := Started.plain d
  if x.outPath = 0 then base
  else if x.outPath = 3 then
    { base with counts := [(Key.mxeTilesDropped n, tiles.length), (Key.srConversions n, 2048 * tiles.length)] }
  else
    let raw := rawKind (x.banks.map (fun b => (c.bank b).kind))
    let scale := (c.dequant x.aCtx).mul (if op = 2 then Num.pow2 0 else c.dequant x.bCtx)
    let sz := outSize x.outFmt raw
    let outs := tiles.map (fun t =>
      (t, outTile x raw (c.bank (x.bank + t.1)) scale (c.quant x.outCtx) (s.roundKey p) c.rstep t.2.1 t.2.2))
    let all := (outs.map (fun o => o.2.map Prod.snd)).flatten
    let sum (f : OutElem → Nat) : Nat := all.foldl (fun a e => a + f e) 0
    let elems := (outs.map (fun o => o.2.map (fun e =>
      let m := 64 * o.1.2.1 + e.1.1
      let k := 32 * o.1.2.2 + e.1.2
      (if x.outTrans then x.outAddr + k * 32 * x.outStride + m * sz else x.outAddr + m * 32 * x.outStride + k * sz,
       e.2.bytes)))).flatten
    let z := if x.sideGran = 1 then 32 else 288
    let side := if x.sideGran = 0 then [] else outs.map (fun o =>
      (x.sideAddr + o.1.1 * z,
       tileRecord o.2 ++ (if x.sideGran = 1 then [] else
         ((List.range 64).map (fun u => leBytes 4 (sideMax x.sideGran x.outTrans o.2 u))).flatten)))
    { base with
      writes := elems ++ side,
      ctxUps := if x.outCtx = 0xFF then [] else
        [(x.outCtx, all.foldl (fun m e => maxPattern m e.mag) 0, sum OutElem.sat, c.rstep)],
      counts := [(Key.mxeTilesOut n, tiles.length), (Key.mxeNonfiniteOut n, sum OutElem.nonf),
        (Key.mxeSaturatedOut n, sum OutElem.sat), (Key.mxeGrainOverflow n, sum OutElem.ovf),
        (Key.srConversions n, if x.outPath = 2 then 2048 * tiles.length else 0)] }

/-! ## Assay (R178–R184) -/

/-- Whether native tile (i, j) of an MMA is sampled (R179). -/
def State.assaySampled (s : State) (p : Nat) (x : MxeD) (i j : Nat) : Bool :=
  rgen (s.roundKey p ^^^ 0x41535341000000000000000000000000) (s.core p).rstep x.tensor x.mb
      ((x.indexBase + 64 * i * x.indexLd + 32 * j) % 2 ^ 48) % 2 ^ s.get Key.assayRateLog2 == 0

/-- The checker's two sequential FP32 sums of products (R180): y and s. -/
def assaySums (a b : List Num) : Num × Num :=
  (List.zipWith (fun u v => rna32 (u.mul v)) a b).foldl (fun acc q => (add32 acc.1 q, add32 acc.2 q.abs)) (Num.zero, Num.zero)

/-- An operand row widened to FP32, MXFP elements multiplied by their block scale (R180). An element times its scale can lie
outside FP32 (28 × 2^127): DESIGN CHOICE, the exact value is kept and only the product is rounded (log entry 55). -/
def widened (mx : Bool) (row sc : List Num) : List Num :=
  if mx then (List.range row.length).map (fun k => (row.getD k Num.zero).mul (sc.getD (k / 32) Num.zero)) else row

/-- The descriptor's own contribution x to an element (R180). -/
def assayOwn (kind : BankKind) (mx : Bool) (a b sa sb : List Num) : Num :=
  if kind = .exact then (List.zipWith Num.mul a b).foldl Num.add Num.zero
  else foldGrains Num.zero (widePartials mx a b sa sb)

/-- The Assay bin of a tile (R181, R182) from x, y, s of its elements; 15 also where R181 names it. The error is formed in
FP32 with RNA: the difference, then the quotient (log entry 11). R181 names no case for a NaN against an infinity, nor for an
s that is NaN: DESIGN CHOICE, the first places the tile in bin 15 and the second takes no part in S (log entry 55). -/
def assayError (es : List (Num × Num × Num)) : Option Num :=
  let diffs := es.map (fun e =>
    if (e.1.isNaN && e.2.1.isNaN) || (!e.1.isFin && !e.2.1.isFin && e.1 == e.2.1) then some Num.zero
    else if !e.1.isFin || !e.2.1.isFin then none
    else some (rna32 (e.1.sub e.2.1).abs))
  if diffs.any (·.isNone) then none
  else
    let m := (diffs.filterMap id).foldl (fun a b => if a.lt b then b else a) Num.zero
    let big := es.foldl (fun a e => if a.lt e.2.2 then e.2.2 else a) Num.zero
    if big.isZero then (if es.all (fun e => e.1.isZero) then some Num.zero else none)
    else some (rna32 (m.div big))

/-- The bin of an error (R182). -/
def assayBin : Option Num → Nat
  | none => 15
  | some e =>
    if e.isZero then 0
    else if e.lt (Num.pow2 (-22)) then 1
    else
      match (List.range 13).find? (fun (i : Nat) => e.lt (Num.pow2 (2 * ((i : Int) + 2) - 24))) with
      | some i => i + 2
      | none => 15

/-- The threshold exponent of a pair (R183). -/
def State.assayThresh (s : State) (kind : BankKind) (f : Nat) : Int :=
  sgn 32 (s.get (if kind = .exact then Key.assayThreshExact else if isMx f then Key.assayThreshMxfp
    else if f = 2 then Key.assayThreshBf16 else if f = 1 then Key.assayThreshFp16 else Key.assayThreshFp32))

/-- The counts of a sampled tile (R182, R183). -/
def State.assayCounts (s : State) (p lc : Nat) (x : MxeD) (kind : BankKind) (y : MmaIn) (i j : Nat) : List (Ent × Nat) :=
  let mx := isMx x.aFmt
  let es := tileCells.map (fun rc =>
    let a := y.a.getD (64 * i + rc.1) []
    let b := y.b.getD (32 * j + rc.2) []
    let sa := y.sa.getD (64 * i + rc.1) []
    let sb := y.sb.getD (32 * j + rc.2) []
    let q := assaySums (widened mx a sa) (widened mx b sb)
    (assayOwn kind mx a b sa sb, q.1, q.2))
  let e := assayError es
  let n := physCluster p
  let exceeds := match e with
    | none => true
    | some v => !v.lt (Num.pow2 (s.assayThresh kind x.aFmt)) || assayBin e == 15
  [(Key.assaySampled n, 1), (Key.assayHist n (16 * lc + assayBin e), 1), (Key.assayExceeded n, b2n exceeds)]

/-! ## The descriptors -/

/-- The operands of an MMA, and the core with their staged copies and the number of reuses not honoured (R106). They are read
whole when the MMA starts: DESIGN CHOICE among the bytes R126 allows, a byte that another engine changes meanwhile reads as its
old value (log entry 55). -/
def mmaOperands (c : Core) (x : MxeD) : MmaIn × Core × Nat :=
  let sa := stageOperand c.sp c.stageA x.aAddr x.aStride x.aTrans x.aReuse x.aFmt x.aMxs (64 * blkM x.block) x.kLen
  let sb := stageOperand c.sp c.stageB x.bAddr x.bStride x.bTrans x.bReuse x.bFmt x.bMxs (32 * blkN x.block) x.kLen
  ({ a := sa.1.elems.map (·.map (opValue x.aFmt)), b := sb.1.elems.map (·.map (opValue x.bFmt)),
     sa := sa.1.scales.map (·.map e8m0), sb := sb.1.scales.map (·.map e8m0) },
   { c with stageA := some sa.1, stageB := some sb.1 }, b2n sa.2 + b2n sb.2)

/-- Arithmetic clocks of a contraction (R94). -/
def contractClocks (x : MxeD) : Nat :=
  let t := blkM x.block * blkN x.block * x.kLen
  if isMx x.aFmt then ceilDiv t 2 else if x.aFmt = 0 then 16 * t else if x.aFmt ≤ 2 then 2 * t else t

/-- The banks of a block replaced tile by tile; the number of entries set to NaN under R170. -/
def bankTiles (c : Core) (x : MxeD) (f : Bank → Nat → Nat → Bank × Nat) : Core × Nat :=
  (blkTiles x.block).foldl (fun acc t =>
    let r := f (acc.1.bank (x.bank + t.1)) t.2.1 t.2.2
    (acc.1.setBank (x.bank + t.1) r.1, acc.2 + r.2)) (c, 0)

/-- An MMA that is not refused (R105–R109, R111–R119, R178–R184). `lc` is the logical core that executes it. With a sampled tile
it has waited for the checker a free number of clocks (R184, log entry 6). -/
def State.runMma (s : State) (p lc d : Nat) (x : MxeD) : State :=
  let kind := (pairKind x.aFmt x.bFmt).getD .fp32
  let ops := mmaOperands (s.core p) x
  let r := bankTiles ops.2.1 x (mmaTile x kind ops.1)
  let n := physCluster p
  let sampled := if s.flag Key.assayEnable then (blkTiles x.block).filter (fun t => s.assaySampled p x t.2.1 t.2.2) else []
  let assay := sampled.flatMap (fun t => s.assayCounts p lc x kind ops.1 t.2.1 t.2.2)
  let s0 := if sampled.isEmpty then s else (s.count (Key.assayStallClocks n) s.free).tick
  let s1 := s0.setCore p r.1
  let out := s1.mxeOutput p d 1 x
  s1.addStarted p 0 { out with counts := out.counts ++ assay ++
    [(Key.mxeStageReloads n, ops.2.2), (Key.exactRangeOverflows n, r.2), (Key.mxeBusyClocks n, contractClocks x)] }

/-- MMA (R97, R102, R107–R109, R111–R119). -/
def execMma (core : CoreId) (s : State) : Host.Outcome State Fault Refusal :=
  startOp core s 0 1 fun p d s =>
    match (MxeD.of d).refusal 1 (s.core p) with
    | some cause => s.engineStop p 0 cause d
    | none => s.runMma p (core.toNat % 16) d (MxeD.of d)

/-- COMBINE (R97, R110, R111–R119). -/
def execMxeCombine (core : CoreId) (s : State) : Host.Outcome State Fault Refusal :=
  startOp core s 0 2 fun p d s =>
    let x := MxeD.of d
    match x.refusal 2 (s.core p) with
    | some cause => s.engineStop p 0 cause d
    | none =>
      let r := bankTiles (s.core p) x (combineTile x (s.core p).sp)
      let s1 := s.setCore p r.1
      let out := s1.mxeOutput p d 2 x
      s1.addStarted p 0 { out with counts := out.counts ++ [(Key.exactRangeOverflows (physCluster p), r.2)] }

/-- DRAIN (R97, R98, R111–R119): output leaves the banks unchanged. -/
def execMxeDrain (core : CoreId) (s : State) : Host.Outcome State Fault Refusal :=
  startOp core s 0 3 fun p d s =>
    let x := MxeD.of d
    match x.refusal 3 (s.core p) with
    | some cause => s.engineStop p 0 cause d
    | none => s.addStarted p 0 (s.mxeOutput p d 3 x)

/-- CLEAR (R97): the block's banks become empty and open. -/
def execMxeClear (core : CoreId) (s : State) : Host.Outcome State Fault Refusal :=
  startOp core s 0 4 fun p d s =>
    let x := MxeD.of d
    if bankOk x.block x.bank then
      (s.updCore p (fun c => x.banks.foldl (fun c b => c.setBank b Bank.fresh) c)).addStarted p 0 (Started.plain d)
    else s.engineStop p 0 2 d

/-- MXE NOP (R97, R98, R102): completes at once after its BANK check. -/
def execMxeNop (core : CoreId) (s : State) : Host.Outcome State Fault Refusal :=
  startOp core s 0 0 fun p d s =>
    if bankOk (MxeD.of d).block (MxeD.of d).bank then s.finishNow p 0 d else s.engineStop p 0 2 d

/-- An MXE descriptor completes (R125). -/
def execMxeDescComplete (core : CoreId) (s : State) : Host.Outcome State Fault Refusal :=
  completeOp core s 0

end Sys2Proof.Machine
end

