-- ==== Sys2Proof/Machine/Trans.lean ====
section
/-!
DEFINITION. The F operations whose exact results are irrational (R199, R200): square roots, exponentials, logarithms,
hyperbolic tangent, sigmoid and error function. Each is evaluated to far more bits than FP32 holds and then rounded once
(log entry 12).
-/
namespace Sys2Proof.Machine

/-- Fraction bits of the fixed-point evaluations. -/
def fxBits : Nat := 400

/-- 1 in fixed point. -/
def fxOne : Nat := 2 ^ fxBits

/-- The integer square root, bit by bit from bit i − 1 down. -/
def isqrtFrom (n : Nat) : Nat → Nat → Nat
  | 0, r => r
  | i + 1, r => if (r + 2 ^ i) * (r + 2 ^ i) ≤ n then isqrtFrom n i (r + 2 ^ i) else isqrtFrom n i r

/-- floor(√n). -/
def isqrt (n : Nat) : Nat := isqrtFrom n (Nat.log2 n / 2 + 1) 0

/-- √(n/d) to 200 bits below the last bit of d, exact where the root is rational. -/
def sqrtRat (n d : Nat) : Num := .fin false (isqrt (n * d * 4 ^ 200)) (d * 2 ^ 200)

/-- The sum of z^(2k+1)/(2k+1) from term k on (sign +) or with alternating signs, given z^(2k+1) in fixed point. -/
def oddSeries (alt : Bool) (zz : Nat) : Nat → Nat → Nat → Int
  | 0, _, _ => 0
  | n + 1, k, t =>
    (if alt && k % 2 == 1 then -((t / (2 * k + 1) : Nat) : Int) else ((t / (2 * k + 1) : Nat) : Int))
      + oddSeries alt zz n (k + 1) (t * zz / fxOne)

/-- atanh z for a fixed-point z of at most 1/3. -/
def fxAtanh (z : Nat) : Int := oddSeries false (z * z / fxOne) 140 0 z

/-- arctan(1/m). -/
def fxAtanInv (m : Nat) : Int := oddSeries true (fxOne / (m * m)) 180 0 (fxOne / m)

/-- ln 2 = 2 atanh(1/3). -/
def fxLn2 : Int := 2 * fxAtanh (fxOne / 3)

/-- π by Machin's formula. -/
def fxPi : Nat := (16 * fxAtanInv 5 - 4 * fxAtanInv 239).toNat

/-- The sum of r^k/k! from term k on, given the term. -/
def expSeries (r : Nat) : Nat → Nat → Nat → Nat
  | 0, _, _ => 0
  | n + 1, k, t => t + expSeries r n (k + 1) (t * r / fxOne / (k + 1))

/-- A rational in fixed point, rounded down. -/
def fxOf (s : Bool) (n d : Nat) : Int := if s then -(((n * fxOne + d - 1) / d : Nat) : Int) else ((n * fxOne / d : Nat) : Int)

/-- e^x for a fixed-point x. -/
def fxExp (x : Int) : Num :=
  let k := x / fxLn2
  (Num.fin false (expSeries (x - k * fxLn2).toNat 110 0 fxOne) fxOne).mul (Num.pow2 k)

/-- A value that every format rounds up to beyond FP32's range, and one that rounds to +0. -/
def hugeNum : Num := Num.pow2 1000
def tinyNum : Num := Num.pow2 (-1000)

/-- e^x of a finite value, before rounding. Beyond ±105 the rounded result is infinity or +0. -/
def expExact (s : Bool) (n d : Nat) : Num :=
  if n = 0 then Num.pow2 0
  else if 105 * d < n then (if s then tinyNum else hugeNum) else fxExp (fxOf s n d)

/-- The natural logarithm of a positive rational, in fixed point. -/
def fxLn (n d : Nat) : Int :=
  let e := floorLog2 n d
  let a := if 0 ≤ e then n else n * 2 ^ (-e).toNat
  let b := if 0 ≤ e then d * 2 ^ e.toNat else d
  e * fxLn2 + 2 * fxAtanh ((a - b) * fxOne / (a + b))

/-- A fixed-point value. -/
def fxNum (x : Int) : Num := .fin (decide (x < 0)) x.natAbs fxOne

/-- The error function's series from term k on: (−1)^k x^(2k+1)/(k!(2k+1)), given x^(2k+1)/k!. -/
def erfSeries (xx : Nat) : Nat → Nat → Nat → Int
  | 0, _, _ => 0
  | n + 1, k, t =>
    (if k % 2 = 1 then -((t / (2 * k + 1) : Nat) : Int) else ((t / (2 * k + 1) : Nat) : Int))
      + erfSeries xx n (k + 1) (t * xx / fxOne / (k + 1))

/-- SQRT (R199, R200). -/
def sqrt32 : Num → Num
  | .nan => .nan
  | .inf s => if s then .nan else .inf false
  | .fin s n d => if n = 0 then .fin s 0 1 else if s then .nan else rna32 (sqrtRat n d)

/-- RSQRT. -/
def rsqrt32 : Num → Num
  | .nan => .nan
  | .inf s => if s then .nan else Num.zero
  | .fin s n d => if n = 0 then .inf s else if s then .nan else rna32 (sqrtRat d n)

/-- RCP: 1/a, ±0 giving ±∞ and ±∞ giving ±0. -/
def rcp32 (a : Num) : Num := rna32 ((Num.pow2 0).div a)

/-- EXP. -/
def exp32 : Num → Num
  | .nan => .nan
  | .inf s => if s then Num.zero else .inf false
  | .fin s n d => rna32 (expExact s n d)

/-- EXP2: exact at integers. -/
def exp2_32 : Num → Num
  | .nan => .nan
  | .inf s => if s then Num.zero else .inf false
  | .fin s n d =>
    if 200 * d < n then rna32 (if s then tinyNum else hugeNum)
    else
      let x : Int := (if s then -1 else 1) * (n : Int)
      let k := x / (d : Int)
      let f := (x % (d : Int)).toNat
      if f = 0 then rna32 (Num.pow2 k)
      else rna32 ((fxExp ((f : Int) * fxLn2 / (d : Int))).mul (Num.pow2 k))

/-- LOG. -/
def log32 : Num → Num
  | .nan => .nan
  | .inf s => if s then .nan else .inf false
  | .fin s n d => if n = 0 then .inf true else if s then .nan else if n = d then Num.zero else rna32 (fxNum (fxLn n d))

/-- LOG2: exact at powers of two. -/
def log2_32 : Num → Num
  | .nan => .nan
  | .inf s => if s then .nan else .inf false
  | .fin s n d =>
    if n = 0 then .inf true
    else if s then .nan
    else
      let e := floorLog2 n d
      if (Num.fin false n d).eqv (Num.pow2 e) then Num.ofInt e
      else rna32 ((fxNum (fxLn n d)).div (fxNum fxLn2))

/-- TANH. -/
def tanh32 : Num → Num
  | .nan => .nan
  | .inf s => .fin s 1 1
  | .fin s n d =>
    if n = 0 then .fin s 0 1
    else if 40 * d < n then .fin s 1 1
    else
      let e := fxExp (fxOf false (2 * n) d)
      let t := rna32 ((e.sub (Num.pow2 0)).div (e.add (Num.pow2 0)))
      if s then t.neg else t

/-- SIGMOID. -/
def sigmoid32 : Num → Num
  | .nan => .nan
  | .inf s => if s then Num.zero else Num.pow2 0
  | .fin s n d => let e := expExact true n d
                  if s then rna32 (e.div ((Num.pow2 0).add e)) else rna32 ((Num.pow2 0).div ((Num.pow2 0).add e))

/-- ERF. -/
def erf32 : Num → Num
  | .nan => .nan
  | .inf s => .fin s 1 1
  | .fin s n d =>
    if n = 0 then .fin s 0 1
    else if 4 * d ≤ n then .fin s 1 1
    else
      let x := n * fxOne / d
      let v := rna32 ((fxNum (2 * erfSeries (x * x / fxOne) 220 0 x)).div (.fin false (isqrt (fxPi * fxOne)) fxOne))
      if s then v.neg else v

end Sys2Proof.Machine
end

