-- ==== Sys2Proof/Machine/FgeOps.lean ====
section
/-!
DEFINITION. The Filigree engine's values and operations: lane types, stage operations and reductions (R195–R214).
-/
namespace Sys2Proof.Machine

/-- The lane types of R196. -/
inductive LaneTy where
  | f | i | g
deriving DecidableEq, Repr

/-- A value in the chain: F, I as its 32-bit pattern, or G. -/
inductive LaneV where
  | f (x : Num)
  | i (w : Nat)
  | g (v : Int)
deriving DecidableEq, Repr

/-- The F value of a lane. -/
def LaneV.num : LaneV → Num
  | .f x => x
  | _ => Num.zero

/-- The I pattern of a lane. -/
def LaneV.word : LaneV → Nat
  | .i w => w
  | _ => 0

/-- The signed I value of a lane. -/
def LaneV.int (l : LaneV) : Int := sgn 32 l.word

/-- The G value of a lane. -/
def LaneV.grain : LaneV → Int
  | .g v => v
  | _ => 0

/-- Zero of a lane type, +0 for F. -/
def laneZero : LaneTy → LaneV
  | .f => .f Num.zero
  | .i => .i 0
  | .g => .g 0

/-- An immediate as a lane type reads it (R196). -/
def immLane (t : LaneTy) (w : Nat) : LaneV :=
  match t with
  | .f => .f (ofFp32 w)
  | .i => .i w
  | .g => .g (sgn 32 w)

/-- What an operand of a stage operation takes: a lane type, or any one type X. -/
inductive OpTy where
  | ty (t : LaneTy)
  | any
deriving DecidableEq, Repr

/-- The operand types and the result of a stage operation (R198), or none when reserved. -/
def opSig (op : Nat) : Option (List OpTy × OpTy) :=
  let f := OpTy.ty .f
  let i := OpTy.ty .i
  if op = 4 then some ([f, f, f], f)
  else if 1 ≤ op ∧ op ≤ 7 then some ([f, f], f)
  else if 8 ≤ op ∧ op ≤ 0x14 then some ([f], f)
  else if op = 0x18 then some ([f, f], i)
  else if op = 0x19 then some ([i, .any, .any], .any)
  else if op = 0x1A then some ([i], f)
  else if op = 0x1B then some ([f], i)
  else if 0x20 ≤ op ∧ op ≤ 0x2B then some ([i, i], i)
  else if op = 0x30 then some ([.any, i], .any)
  else if op = 0x38 then some ([.ty .g, .ty .g], .ty .g)
  else none

/-- MAX of two F values (R200): NaN wins, +0 is above −0. -/
def fmax (a b : Num) : Num :=
  if a.isNaN || b.isNaN then .nan
  else if a.lt b then b else if b.lt a then a else if a.sign then b else a

/-- MIN of two F values (R200). -/
def fmin (a b : Num) : Num :=
  if a.isNaN || b.isNaN then .nan
  else if b.lt a then b else if a.lt b then a else if a.sign then a else b

/-- SIGN (R198, R200). -/
def fsign : Num → Num
  | .nan => .nan
  | .inf s => .fin s 1 1
  | .fin s n _ => if n = 0 then .fin s 0 1 else .fin s 1 1

/-- A CMP condition (R201). -/
def fcond (c : Nat) (a b : Num) : Bool :=
  let un := a.isNaN || b.isNaN
  match c with
  | 0 => a.eqv b
  | 1 => !a.eqv b
  | 2 => a.lt b
  | 3 => !un && !b.lt a
  | 4 => b.lt a
  | 5 => !un && !a.lt b
  | _ => un

/-- An ICMP condition (R201). -/
def icond (c : Nat) (a b : Int) : Bool :=
  match c with
  | 0 => decide (a = b)
  | 1 => decide (a ≠ b)
  | 2 => decide (a < b)
  | 3 => decide (a ≤ b)
  | 4 => decide (b < a)
  | _ => decide (b ≤ a)

/-- A chain value and what it counts: NaN converted by CVTI, saturations of CVTI, GADD overflows. -/
structure Stepped where
  v    : LaneV
  nonf : Nat
  sat  : Nat
  ovf  : Nat

/-- A value that counts nothing. -/
def Stepped.of (v : LaneV) : Stepped := { v := v, nonf := 0, sat := 0, ovf := 0 }

/-- An F operation of one or two operands, FMA apart (R198–R200). -/
def fOp (op : Nat) (a b c : Num) : Num :=
  match op with
  | 0x01 => add32 a b
  | 0x02 => rna32 (a.sub b)
  | 0x03 => rna32 (a.mul b)
  | 0x04 => rna32 ((a.mul b).add c)
  | 0x05 => rna32 (a.div b)
  | 0x06 => fmax a b
  | 0x07 => fmin a b
  | 0x08 => a.abs
  | 0x09 => a.neg
  | 0x0A => fsign a
  | 0x0B => sqrt32 a
  | 0x0C => rsqrt32 a
  | 0x0D => rcp32 a
  | 0x0E => exp32 a
  | 0x0F => exp2_32 a
  | 0x10 => log32 a
  | 0x11 => log2_32 a
  | 0x12 => tanh32 a
  | 0x13 => sigmoid32 a
  | _ => erf32 a

/-- An I operation (R198). -/
def iOp (op cond : Nat) (a b : Nat) : Nat :=
  match op with
  | 0x20 => (a + b) % 2 ^ 32
  | 0x21 => (a + 2 ^ 32 - b) % 2 ^ 32
  | 0x22 => a * b % 2 ^ 32
  | 0x23 => if b = 0 then 0xFFFFFFFF else a / b
  | 0x24 => if sgn 32 a < sgn 32 b then b else a
  | 0x25 => if sgn 32 b < sgn 32 a then b else a
  | 0x26 => a &&& b
  | 0x27 => a ||| b
  | 0x28 => a ^^^ b
  | 0x29 => a * 2 ^ (b % 32) % 2 ^ 32
  | 0x2A => a / 2 ^ (b % 32)
  | _ => b2n (icond cond (sgn 32 a) (sgn 32 b))

/-- A stage operation other than PERM on one element (R198–R202). -/
def stageElem (op cond : Nat) (a b c : LaneV) : Stepped :=
  if op ≤ 0x14 then Stepped.of (.f (fOp op a.num b.num c.num))
  else if op = 0x18 then Stepped.of (.i (b2n (fcond cond a.num b.num)))
  else if op = 0x19 then Stepped.of (if a.word ≠ 0 then b else c)
  else if op = 0x1A then Stepped.of (.f (rna32 (Num.ofInt a.int)))
  else if op = 0x1B then
    let k := toInteger 32 .rna a.num
    { v := .i k.code, nonf := b2n k.nonf, sat := b2n k.sat, ovf := 0 }
  else if op = 0x38 then
    let v := a.grain + b.grain
    if v < -2 ^ 63 ∨ 2 ^ 63 ≤ v then { v := .g 0, nonf := 0, sat := 0, ovf := 1 } else Stepped.of (.g v)
  else Stepped.of (.i (iOp op cond a.word b.word))

/-! ## Reductions (R209–R214) -/

/-- A two's complement wrap to 64 bits. -/
def wrap64 (v : Int) : Int := sgn 64 (unsgn 64 v)

/-- One combination of SUM, PROD, MAX or MIN. -/
def redOp (kind : Nat) (a b : LaneV) : LaneV :=
  match a, b with
  | .f x, .f y => .f (if kind = 1 then add32 x y else if kind = 2 then rna32 (x.mul y) else if kind = 3 then fmax x y else fmin x y)
  | .i x, .i y => .i (if kind = 1 then (x + y) % 2 ^ 32 else if kind = 2 then x * y % 2 ^ 32
      else if kind = 3 then iOp 0x24 0 x y else iOp 0x25 0 x y)
  | .g x, .g y => .g (if kind = 1 then wrap64 (x + y) else if kind = 3 then max x y else min x y)
  | x, _ => x

/-- The groups of 64 segment positions with at least one present element (R210). -/
def groupsOf {α : Type} (seg : List (Option α)) : List (List (Option α)) := (runsOf 64 seg).filter (·.any Option.isSome)

/-- SUM, PROD, MAX, MIN of a segment (R210), none when no element is present. -/
def foldRed (kind : Nat) (seg : List (Option LaneV)) : Option LaneV :=
  match (groupsOf seg).filterMap (tree (redOp kind) 7) with
  | [] => none
  | x :: t => some (t.foldl (redOp kind) x)

/-- The identity of a kind (R211). -/
def redIdentity (kind : Nat) (t : LaneTy) : LaneV :=
  match t with
  | .f => .f (if kind = 1 then Num.zero else if kind = 2 then Num.pow2 0 else .inf (kind == 3))
  | .i => .i (if kind = 1 then 0 else if kind = 2 then 1 else if kind = 3 then 0x80000000 else 0x7FFFFFFF)
  | .g => .g (if kind = 1 then 0 else if kind = 3 then -2 ^ 63 else 2 ^ 63 - 1)

/-- Whether `b` beats `a` as the extreme of ARGMAX (`up`) or ARGMIN (R212). -/
def beats (up : Bool) (a b : LaneV) : Bool :=
  match a, b with
  | .f x, .f y => if x.isNaN then false else if y.isNaN then true else if up then x.lt y else y.lt x
  | x, y => if up then decide (x.int < y.int) else decide (y.int < x.int)

/-- ARGMAX or ARGMIN of a segment (R211, R212): the lowest position of the extreme, or of a NaN. -/
def argRed (up : Bool) (seg : List (Option LaneV)) : Nat :=
  match (seg.zipIdx.filterMap (fun x => x.1.map (fun v => (v, x.2)))) with
  | [] => 0xFFFFFFFF
  | x :: t => (t.foldl (fun best y => if beats up best.1 y.1 then y else best) x).2

/-- The tree of F additions over the present elements of one group. -/
def groupSum (f : Num → Num) (g : List (Option Num)) : Num := (tree add32 7 (g.map (·.map f))).getD Num.zero

/-- The number of present elements. -/
def presentCount {α : Type} (g : List (Option α)) : Nat := (g.filter Option.isSome).length

/-- One group folded into the running count, mean and second moment (R213). -/
def meanStep (acc : Option (Nat × Num × Num)) (g : List (Option Num)) : Option (Nat × Num × Num) :=
  let c := presentCount g
  let gmu := rna32 ((groupSum id g).div (Num.ofInt c))
  let q := groupSum (fun x => let y := rna32 (x.sub gmu); rna32 (y.mul y)) g
  match acc with
  | none => some (c, gmu, q)
  | some (n, mu, m2) =>
    let d := rna32 (gmu.sub mu)
    let w := rna32 (.fin false c (n + c))
    let w2 := rna32 (.fin false (n * c) (n + c))
    some (n + c, add32 mu (rna32 (d.mul w)), add32 (add32 m2 q) (rna32 ((rna32 (d.mul d)).mul w2)))

/-- MEAN_RSTD (R213). -/
def meanRstd (seg : List (Option Num)) (eps : Num) : Num × Num :=
  match (groupsOf seg).foldl meanStep none with
  | none => (Num.zero, rsqrt32 eps)
  | some (n, mu, m2) => (mu, rsqrt32 (add32 (rna32 (m2.div (Num.ofInt n))) eps))

/-- RSTD_RMS (R213). -/
def rstdRms (seg : List (Option Num)) (eps : Num) : Num :=
  match (groupsOf seg).map (groupSum (fun x => rna32 (x.mul x))) with
  | [] => rsqrt32 eps
  | x :: t => rsqrt32 (add32 (rna32 ((t.foldl add32 x).div (Num.ofInt (presentCount seg)))) eps)

/-- One group folded into the running maximum and scaled sum (R214). -/
def lseStep (acc : Option (Num × Num)) (g : List (Option Num)) : Option (Num × Num) :=
  let gm := (tree fmax 7 g).getD (.inf true)
  let gs := groupSum (fun x => exp32 (rna32 (x.sub gm))) g
  match acc with
  | none => some (gm, gs)
  | some (m, s) =>
    let m2 := fmax m gm
    some (m2, add32 (rna32 (s.mul (exp32 (rna32 (m.sub m2))))) (rna32 (gs.mul (exp32 (rna32 (gm.sub m2))))))

/-- MAX_LSE (R214). -/
def maxLse (seg : List (Option Num)) : Num × Num :=
  let xs := seg.filterMap id
  if xs.any Num.isNaN then (.nan, .nan)
  else if xs.any (fun x => x == .inf false) then (.inf false, .inf false)
  else
    match ((runsOf 64 seg).filter (·.any (fun x => (x.map Num.isFin).getD false))).foldl lseStep none with
    | none => (.inf true, .inf true)
    | some (m, s) => (m, add32 m (log32 s))

/-- What one reduction of a segment writes, on OUT0 and for paired kinds on OUT1 (R209). -/
def reduceSeg (kind : Nat) (t : LaneTy) (eps : Num) (seg : List (Option LaneV)) : LaneV × LaneV :=
  let fs := seg.map (·.map LaneV.num)
  match kind with
  | 5 => (.i (argRed true seg), .i 0)
  | 6 => (.i (argRed false seg), .i 0)
  | 7 => (.f (maxLse fs).2, .i 0)
  | 8 => (.i (presentCount seg), .i 0)
  | 9 => let r := meanRstd fs eps; (.f r.1, .f r.2)
  | 10 => let r := maxLse fs; (.f r.1, .f r.2)
  | 11 => (.f (rstdRms fs eps), .i 0)
  | k => ((foldRed k seg).getD (redIdentity k t), .i 0)

/-- Whether a reduction kind takes a source of a lane type (R209, R211). -/
def redTakes (kind : Nat) (t : LaneTy) : Bool :=
  match kind with
  | 1 => true
  | 2 => t != .g
  | 3 => true
  | 4 => true
  | 5 => t != .g
  | 6 => t != .g
  | 8 => true
  | 7 => t == .f
  | 9 => t == .f
  | 10 => t == .f
  | 11 => t == .f
  | _ => false

/-- The output format of a reduction (R209). -/
def redFmt (kind : Nat) (t : LaneTy) : Nat :=
  if kind = 5 ∨ kind = 6 ∨ kind = 8 then 8
  else match t with
    | .f => 0
    | .i => 8
    | .g => 9

end Sys2Proof.Machine
end

