-- ==== Sys2Proof/Machine/Troy.lean ====
section
/-!
DEFINITION. The Troy units (R289–R308): their endpoint, the microprogram, the update of a slice, the step ledger, and the COMMIT
command.
-/
namespace Sys2Proof.Machine

/-! ## Units -/

/-- The Troy unit of a setting. -/
def State.troy (s : State) (n : Nat) : Troy := (look n s.troys).getD Troy.fresh

/-- The state with a Troy unit changed. -/
def State.updTroy (s : State) (n : Nat) (f : Troy → Troy) : State := { s with troys := put n (f (s.troy n)) s.troys }

/-- The writer number of a Troy unit in the write-combining buffer. -/
def State.troyWho (s : State) (n : Nat) : Nat := 65536 * s.node + 0x2100 + n

/-- A write of a Troy unit at an offset of its own stack. -/
def State.troyWrite (s : State) (n off : Nat) (bs : List Byte) : State := s.hbmWrite n (s.troyWho n) off bs

/-- "flush" of R304. -/
def State.troyFlush (s : State) (n : Nat) : State := s.hbmFlush n (fun w => w.writers.contains (s.troyWho n))

/-- The offset of a ledger entry in its stack (R299, R316). -/
def State.ledgerAt (s : State) (n i : Nat) : Nat := (s.stack n).ledgerBase + 8 * i

/-- A ledger entry (R299). -/
def ledgerEntry (step bucket : Nat) (bank : Bool) : List Byte := leBytes 8 (step + bucket * 2 ^ 32 + b2n bank * 2 ^ 48 + 2 ^ 63)

/-- The number of 4,096-parameter blocks of a command's slice. -/
def troyBlocks (r : Nat) : Nat := ceilDiv (tCount r) 4096

/-! ## The microprogram (R301, R302) -/

/-- How many operands a micro-operation has; none for a reserved one. -/
def microArity (op : Nat) : Option Nat :=
  match op with
  | 0x01 => some 2
  | 0x02 => some 2
  | 0x03 => some 3
  | 0x04 => some 1
  | 0x05 => some 1
  | 0x06 => some 1
  | 0x07 => some 2
  | 0x08 => some 2
  | 0x09 => some 3
  | 0x10 => some 1
  | 0x11 => some 1
  | 0x12 => some 1
  | _ => none

/-- The source codes that a micro-op word uses. -/
def microSources (w : Nat) : List Nat :=
  [fld w 9 7, fld w 16 7, fld w 23 7].take ((microArity (fld w 0 5)).getD 0)

/-- The words of a slot before END. -/
def microWords (slot : Nat) : List Nat := ((List.range 32).map (fun i => fld slot (32 * i) 32)).takeWhile (fun w => fld w 0 5 != 0)

/-- How often an operation stands in a program. -/
def opCount (ws : List Nat) (op : Nat) : Nat := (ws.filter (fun w => fld w 0 5 == op)).length

/-- A source code stands in a program. -/
def names (ws : List Nat) (code : Nat) : Bool := ws.any (fun w => (microSources w).contains code)

/-- A program keeps the rules of R302. -/
def microOk (ws : List Nat) : Bool :=
  ws.all (fun w => (microArity (fld w 0 5)).isSome && (microSources w).all (fun c => decide (c < 20) || decide (64 ≤ c)))
    && opCount ws 0x10 == 1 && decide (opCount ws 0x11 ≤ 1) && decide (opCount ws 0x12 ≤ 1)
    && (!names ws 18 || opCount ws 0x11 == 1) && (!names ws 19 || opCount ws 0x12 == 1)

/-- The inputs of an element: G, W, M1, V and the constants. -/
structure MicroIn where
  g  : Num
  w  : Num
  m1 : Num
  v  : Num
  ks : List Num

/-- The value of a source code. -/
def MicroIn.source (x : MicroIn) (temps : List Num) (code : Nat) : Num :=
  if code < 16 then temps.getD code Num.zero
  else if code = 16 then x.g
  else if code = 17 then x.w
  else if code = 18 then x.m1
  else if code = 19 then x.v
  else x.ks.getD (code - 64) Num.zero

/-- The result of an arithmetic micro-op (R200, R301). -/
def microOp (op : Nat) (a b c : Num) : Num :=
  match op with
  | 0x01 => add32 a b
  | 0x02 => rna32 (a.mul b)
  | 0x03 => rna32 ((a.mul b).add c)
  | 0x04 => sqrt32 a
  | 0x05 => rsqrt32 a
  | 0x06 => fsign a
  | 0x07 => fmax a b
  | 0x08 => fmin a b
  | _ => if Num.zero.lt a then b else c

/-- The temporaries and the outputs Δ, first moment and root after a word. -/
def microStep (x : MicroIn) (t : List Num × Num × Num × Num) (w : Nat) : List Num × Num × Num × Num :=
  let a := x.source t.1 (fld w 9 7)
  match fld w 0 5 with
  | 0x10 => (t.1, a, t.2.2.1, t.2.2.2)
  | 0x11 => (t.1, t.2.1, a, t.2.2.2)
  | 0x12 => (t.1, t.2.1, t.2.2.1, a)
  | op => (t.1.set (fld w 5 4) (microOp op a (x.source t.1 (fld w 16 7)) (x.source t.1 (fld w 23 7))), t.2)

/-- A program run on an element: Δ, the new first moment and the new root. -/
def microRun (ws : List Nat) (x : MicroIn) : Num × Num × Num :=
  (ws.foldl (microStep x) (List.replicate 16 Num.zero, Num.zero, Num.zero, Num.zero)).2

/-- carat_add (R303). A Carat NaN is a NaN whatever its upper bits read as (R135). -/
def caratAdd (w : Nat) (d : Num) : Nat :=
  let x := ofCarat w
  let h := if x.isNaN then Num.nan else ofFp32 (w / 2 ^ 16)
  let l := rna32 (x.sub h)
  let s := rna32 (h.add d)
  if s.isNaN then 0x7FC000000000
  else if s.isFin then
    let e := (h.add d).sub s
    let t := rna32 (l.add e)
    (fCT48.convert .rna (s.add t)).code
  else fp32 s * 2 ^ 16

/-! ## Refusals (R295) -/

/-- The arrays of an UPDATE as (device address, bytes, banked): those its program uses. -/
def updateArrays (r : Nat) (ws : List Nat) : List (Nat × Nat × Bool) :=
  let n := tCount r
  let sc := 4 * ceilDiv n 128
  [(tLand r, 8 * n, false), (tMaster r, 6 * n, true)]
    ++ (if opCount ws 0x11 = 1 then [(tM1 r, n, true), (tM1Scale r, sc, true)] else [])
    ++ (if opCount ws 0x12 = 1 then [(tV r, n, true), (tVScale r, sc, true)] else [])

/-- The shards an UPDATE writes, as (header address, bytes of data that it needs): the range of a shard that must be usable is its header and
those bytes, whatever more DATA_LEN says (R284, R295; DESIGN CHOICE, log entry 17). -/
def updateShards (r : Nat) : List (Nat × Nat) :=
  let m := tShardElem r + tCount r
  (if tBf16 r then [(tBf16Shard r, 2 * m)] else [])
    ++ (if tE4m3 r then [(tE4m3Shard r, max m (tScaleOff r + 4 * ceilDiv m 128))] else [])

/-- A device range lies in the usable space of a setting's own stack; an address of more than 40 bits is none (R314). -/
def State.ownRange (s : State) (n a len : Nat) : Bool := decide (a < 2 ^ 40) && devSetting a == n && (s.stack n).writable (devOffset a) len

/-- COUNT, NOTIFY_CORE, RESULT_ADDR and the ledger range of an UPDATE or LEDGER_SET are in order, and the stack has a ledger. -/
def State.troyBasic (s : State) (n r : Nat) : Bool :=
  (s.troyPlace r).isSome && decide (1 ≤ tCount r) && decide (tCount r ≤ 16777216)
    && decide (tLedger r + troyBlocks r ≤ 262144) && !(s.stack n).failed

/-- The addresses of an UPDATE are multiples of 64, and SHARD_ELEM of 4,096. -/
def updateAligned (r : Nat) : Bool :=
  [tLand r, tMaster r, tM1 r, tM1Scale r, tV r, tVScale r, tBankOffset r, tBf16Shard r, tE4m3Shard r, tScaleOff r].all
    (fun a => a % 64 == 0) && tShardElem r % 4096 == 0

/-- The program of an UPDATE. -/
def State.troyProgram (s : State) (n r : Nat) : List Nat := microWords ((look (tProgram r) (s.troy n).programs).getD 0)

/-- The header checks of the shards: the status found, 0 where they are in order (R295). -/
def State.shardStatus (s : State) (n : Nat) : List (Nat × Nat) → State × Nat
  | [] => (s, 0)
  | (a, need) :: rest =>
    let r := s.hbmRead n (devOffset a) 64
    match r.2 with
    | none => (r.1, 4)
    | some bs =>
      if fld (leNat bs) 0 16 ≠ 0x5AD0 ∨ fld (leNat bs) 128 40 < need then (r.1, 1) else State.shardStatus r.1 n rest

/-- The status that an UPDATE finds when it starts: BAD_VERDICT before REFUSED (R295). -/
def State.updateStatus (s : State) (n r : Nat) : State × Nat :=
  let ws := s.troyProgram n r
  if 3 ≤ tVerdict r then (s, 2)
  else if !s.troyBasic n r || !microOk ws || !updateAligned r
      || (updateArrays r ws).any (fun a => !s.ownRange n a.1 a.2.1 || (a.2.2 && !s.ownRange n (a.1 + tBankOffset r) a.2.1))
      || (updateShards r).any (fun a => !s.ownRange n a.1 (64 + a.2)) then (s, 1)
  else s.shardStatus n (updateShards r)

/-! ## A block (R298, R303, R304) -/

/-- `n` bytes at a device address of the own stack, gathered by a fold over several reads: none once one is uncorrectable. -/
def State.troyRead (s : State) (n a len : Nat) (ok : Bool) : State × List Byte × Bool :=
  let r := s.hbmRead n (devOffset a) len
  (r.1, r.2.getD [], ok && r.2.isSome)

/-- The values of a block-scaled array from its codes and scales (R158): code × S. -/
def scaledValues (codes scales : List Byte) : List Num :=
  codes.zipIdx.map (fun c =>
    rna32 ((fE4M3.decode c.1.toNat).mul (ofFp32 (leNat ((scales.drop (c.2 / 128 * 4)).take 4)))))

/-- Values encoded as a block-scaled array: codes, scales, and the elements written as 0x7F because they are not finite. -/
def scaledEncode (xs : List Num) : List Byte × List Byte × Nat :=
  let bs := (runsOf 128 xs).map e4m3Encode
  (bs.flatMap (fun b => b.2.map (fun c => BitVec.ofNat 8 c.code)), bs.flatMap (fun b => leBytes 4 b.1),
   (bs.map (fun b => (b.2.filter (·.nonf)).length)).foldl (· + ·) 0)

/-- The five arrays of a block read from a bank: gradient, master, first moment, root, each as bytes with its scales. -/
structure BlockIn where
  land   : List Byte
  master : List Byte
  m1     : List Byte
  m1s    : List Byte
  v      : List Byte
  vs     : List Byte

/-- The inputs of the elements of a block. -/
def BlockIn.inputs (x : BlockIn) (r : Nat) (ks : List Num) : List (MicroIn × Nat) :=
  let m1 := scaledValues x.m1 x.m1s
  let v := scaledValues x.v x.vs
  ((wordsOf 8 x.land).zip (wordsOf 6 x.master)).zipIdx.map (fun e =>
    ({ g := grainValue (sgn 64 e.1.1) (sgn 16 (tExp r)), w := rna32 (ofCarat e.1.2), m1 := m1.getD e.2 Num.zero,
       v := v.getD e.2 Num.zero, ks := ks }, e.1.2))

/-- The block's reads: none where one is uncorrectable. Moments are read only when named (R302). -/
def State.readBlock (s : State) (n r n0 len : Nat) (off : Nat) (ws : List Nat) : State × Option BlockIn :=
  let k := 4 * ceilDiv len 128
  let a := s.troyRead n (tLand r + 8 * n0) (8 * len) true
  let b := a.1.troyRead n (tMaster r + off + 6 * n0) (6 * len) a.2.2
  let use1 := names ws 18
  let use2 := names ws 19
  let c := b.1.troyRead n (tM1 r + off + n0) (if use1 then len else 0) b.2.2
  let d := c.1.troyRead n (tM1Scale r + off + n0 / 32) (if use1 then k else 0) c.2.2
  let e := d.1.troyRead n (tV r + off + n0) (if use2 then len else 0) d.2.2
  let f := e.1.troyRead n (tVScale r + off + n0 / 32) (if use2 then k else 0) e.2.2
  (f.1, if f.2.2 then some { land := a.2.1, master := b.2.1, m1 := c.2.1, m1s := d.2.1, v := e.2.1, vs := f.2.1 } else none)

/-- The writes of an updated block, as (device address, bytes), with its non-finite masters and 0x7F elements. -/
def blockWrites (r n0 off : Nat) (ws : List Nat) (xs : List (MicroIn × Nat)) : List (Nat × List Byte) × Nat × Nat :=
  let outs := xs.map (fun x => (microRun ws x.1, x.2))
  let masters := outs.map (fun o => caratAdd o.2 o.1.1)
  let vals := masters.map ofCarat
  let m1 := scaledEncode (outs.map (fun o => o.1.2.1))
  let v := scaledEncode (outs.map (fun o => o.1.2.2))
  let cp := scaledEncode vals
  let e := tShardElem r + n0
  let has1 := opCount ws 0x11 == 1
  let has2 := opCount ws 0x12 == 1
  ([(tMaster r + off + 6 * n0, masters.flatMap (leBytes 6))]
    ++ (if has1 then [(tM1 r + off + n0, m1.1), (tM1Scale r + off + n0 / 32, m1.2.1)] else [])
    ++ (if has2 then [(tV r + off + n0, v.1), (tVScale r + off + n0 / 32, v.2.1)] else [])
    ++ (if tBf16 r then
          [(tBf16Shard r + 64 + 2 * e, vals.flatMap (fun x => leBytes 2 (fBF16.convert .rna x).code))] else [])
    ++ (if tE4m3 r then [(tE4m3Shard r + 64 + e, cp.1), (tE4m3Shard r + 64 + tScaleOff r + e / 32, cp.2.1)] else []),
   (vals.filter (fun x => !x.isFin)).length,
   (if has1 then m1.2.2 else 0) + (if has2 then v.2.2 else 0) + (if tE4m3 r then cp.2.2 else 0))

/-- The first element and length of a block. -/
def blockSpan (r b : Nat) : Nat × Nat := (4096 * b, min 4096 (tCount r - 4096 * b))

/-- One block of troy_update (R304). Answers the counts and whether processing goes on: an uncorrectable read ends it. -/
def State.troyBlock (s : State) (n r b : Nat) (ws : List Nat) (ks : List Num) (k : TroyCounts) : State × TroyCounts × Bool :=
  let at_ := s.ledgerAt n (tLedger r + b)
  let l := s.hbmRead n at_ 8
  match l.2 with
  | none => (l.1, k, false)
  | some bs =>
    let le := leNat bs
    let valid := bit le 63 && fld le 32 16 == tBucket r
    if valid && fld le 0 32 == tStep r then
      (l.1.count (Key.troyBlocksLedgerSkipped n) 1, { k with skipped := k.skipped + 1 }, true)
    else if !valid || fld le 0 32 != (tStep r + 2 ^ 32 - 1) % 2 ^ 32 then (l.1, { k with errors := k.errors + 1 }, true)
    else if tVerdict r ≠ 0 then
      ((l.1.troyWrite n at_ (ledgerEntry (tStep r) (tBucket r) (bit le 48))).count (Key.troyBlocksVerdictSkipped n) 1,
       { k with passed := k.passed + 1 }, true)
    else
      let sp := blockSpan r b
      let from_ := if bit le 48 then tBankOffset r else 0
      let to_ := if bit le 48 then 0 else tBankOffset r
      let rd := l.1.readBlock n r sp.1 sp.2 from_ ws
      match rd.2 with
      | none => (rd.1, k, false)
      | some x =>
        let w := blockWrites r sp.1 to_ ws (x.inputs r ks)
        let s1 := (w.1.foldl (fun s a => s.troyWrite n (devOffset a.1) a.2) rd.1).troyFlush n
        let s2 := s1.troyWrite n at_ (ledgerEntry (tStep r) (tBucket r) (!bit le 48))
        (((s2.count (Key.troyBlocksUpdated n) 1).count (Key.troyNonfiniteResults n) w.2.1).count (Key.troyNonfiniteEncoded n) w.2.2,
         { k with updated := k.updated + 1, nonfin := k.nonfin + w.2.1 }, true)

/-- The blocks of a slice from block `b` on, `m` of them. -/
def State.troyLoop (s : State) (n r : Nat) (ws : List Nat) (ks : List Num) (k : TroyCounts) (b : Nat) :
    Nat → State × TroyCounts × Bool
  | 0 => (s, k, true)
  | m + 1 =>
    let x := s.troyBlock n r b ws ks k
    if x.2.2 then State.troyLoop x.1 n r ws ks x.2.1 (b + 1) m else x

/-- The constants of an UPDATE. -/
def State.troyKs (s : State) (n r : Nat) : List Num :=
  let t := (look (tTable r) (s.troy n).consts).getD 0
  (List.range 64).map (fun i => ofFp32 (fld t (32 * i) 32))

/-- VERSION is written in the headers of the first `k` selected shards (R284, R304). -/
def State.writeVersions (s : State) (n r k : Nat) : State :=
  ((updateShards r).take k).foldl (fun s a => s.troyWrite n (devOffset a.1 + 8) (leBytes 4 (tStep r))) s

/-- An UPDATE that has started runs to its end (R304). -/
def State.troyUpdate (s : State) (n r : Nat) : State × Nat × TroyCounts :=
  let x := s.troyLoop n r (s.troyProgram n r) (s.troyKs n r) TroyCounts.none 0 (troyBlocks r)
  if !x.2.2 then (x.1, 4, x.2.1)
  else
    let s1 := x.1.troyFlush n
    if 0 < x.2.1.errors then (s1, 3, x.2.1)
    else if tVerdict r ≠ 0 then (s1, 0, x.2.1)
    else
      ((s1.writeVersions n r (updateShards r).length).troyFlush n, 0, x.2.1)

/-- Block `b`, whose writing had begun and whose ledger entry has not reached HBM: the bytes of its other bank and of its copies
are undefined (R305). Answers whether it is such a block. -/
def State.troyBegun (s : State) (n r b : Nat) (ws : List Nat) : State × Bool :=
  let l := s.hbmRead n (s.ledgerAt n (tLedger r + b)) 8
  match l.2 with
  | none => (l.1, false)
  | some bs =>
    let le := leNat bs
    if troyBlocks r ≤ b ∨ !bit le 63 ∨ fld le 32 16 ≠ tBucket r ∨ fld le 0 32 ≠ (tStep r + 2 ^ 32 - 1) % 2 ^ 32 then (l.1, false)
    else
      let sp := blockSpan r b
      let to_ := if bit le 48 then 0 else tBankOffset r
      let zeros := (List.range sp.2).map (fun _ =>
        (({ g := Num.zero, w := Num.zero, m1 := Num.zero, v := Num.zero, ks := [] } : MicroIn), 0))
      ((blockWrites r sp.1 to_ ws zeros).1.foldl (fun s a => s.devUndef a.1 a.2.length) l.1, true)

/-- What a reset of the setting during an UPDATE leaves (R305): the ledger entries of a free number of blocks have reached HBM. The
next block may have been begun, and where its ledger entry was still in the buffer, the one after it too. Where every block was done, of how
many shards VERSION had been written is a free value too, which R305 leaves open (log entry 17). -/
def State.troyInterrupted (s : State) (n r : Nat) : State :=
  let ws := s.troyProgram n r
  let done := s.free % (troyBlocks r + 1)
  let x := s.tick.troyLoop n r ws (s.troyKs n r) TroyCounts.none 0 done
  let s1 := x.1.troyFlush n
  let begun := s1.free % 3
  if !x.2.2 || tVerdict r ≠ 0 then s1.tick
  else if done = troyBlocks r then
    if 0 < x.2.1.errors then s1.tick else (s1.tick.writeVersions n r (s1.free % ((updateShards r).length + 1))).troyFlush n
  else if begun = 0 then s1.tick
  else
    let y := s1.tick.troyBegun n r done ws
    if y.2 && begun = 2 then ((y.1.count (Key.troyBlocksUpdated n) 1).troyBegun n r (done + 1) ws).1 else y.1

/-! ## The endpoint (R293, R296) -/

/-- A PUT to a slot or table takes effect. -/
def State.troyStore (s : State) (n : Nat) (p : Packet) : State :=
  let off := p.offset.toNat
  let v := leNat p.payload
  if off < 0x20000 then s.updTroy n (fun t => { t with programs := put ((off - 0x10000) / 128) v t.programs })
  else s.updTroy n (fun t => { t with consts := put ((off - 0x20000) / 256) v t.consts })

/-- What a PUT at a Troy unit is by its offset and length: 0 a command, 1 a microprogram slot, 2 a constant table. -/
def troyPutKind (p : Packet) : Option Nat :=
  let off := p.offset.toNat
  let len := mLen p.fields.toNat
  if len ≠ p.payload.length then none
  else if off = 0 ∧ len = 128 then some 0
  else if 0x10000 ≤ off ∧ off < 0x10800 ∧ off % 128 = 0 ∧ len = 128 then some 1
  else if 0x20000 ≤ off ∧ off < 0x30000 ∧ off % 256 = 0 ∧ len = 256 then some 2
  else none

/-- The running UPDATE of a unit uses the slot or table that a PUT writes. -/
def Troy.uses (t : Troy) (p : Packet) : Bool :=
  match t.running, t.queue with
  | some _, r :: _ =>
    let off := p.offset.toNat
    tCmd r == 1 && (if off < 0x20000 then tProgram r == (off - 0x10000) / 128 else tTable r == (off - 0x20000) / 256)
  | _, _ => false

/-- A PUT of a program or table: done, or held while it is in use. -/
def State.troyTable (s : State) (n : Nat) (p : Packet) : State :=
  let t := s.troy n
  if t.uses p then
    (if t.heldPuts.any (fun q => q.msgId == p.msgId && q.srcNode == p.srcNode) then s
     else s.updTroy n (fun t => { t with heldPuts := t.heldPuts ++ [p] }))
  else (s.troyStore n p).answer p 0

/-- The outcome of a COMMIT at its arrival (R291, R295). -/
def State.troyCommitNow (s : State) (n r : Nat) : State :=
  let q := s.seq
  let done := fun (s : State) (st : Nat) => s.troyFinish n r st TroyCounts.none
  let rerun := fun (s : State) => done ((s.count Key.commitRerunReleases 1).releaseStep (tStep r)) 0
  let hold := fun (armed : Bool) => { s with commits := s.commits ++ [{ setting := n, cmd := r, armed := armed }] }
  if (s.troyPlace r).isNone then s.count (Key.troyRefused n) 1
  else if q.released = some (tStep r) then done s 0
  else if tRerun r then
    (if q.isOpen then (if q.step = tStep r then rerun (if q.unfinished then s.stepAbandon else s) else done s 5)
     else rerun s)
  else if q.isOpen ∧ q.step = tStep r then hold true
  else if q.isOpen = false ∨ q.step = (tStep r + 2 ^ 32 - 1) % 2 ^ 32 then hold false
  else done s 5

/-- A command record arrives: COMMIT takes effect, UPDATE and LEDGER_SET are queued or refused, a reserved CMD completes with
REFUSED (log entry 17). Answers the status of the PUT. -/
def State.troyArrive (s : State) (n r : Nat) : State × Nat :=
  if tCmd r = 2 then (s.troyCommitNow n r, 0)
  else if tCmd r = 1 ∨ tCmd r = 3 then
    (if 64 ≤ (s.troy n).queue.length then (s.count (Key.troyQueueFull n) 1, 4)
     else (s.updTroy n (fun t => { t with queue := t.queue ++ [r] }), 0))
  else (s.troyFinish n r 1 TroyCounts.none, 0)

/-- A PUT at a Troy unit (R293). -/
def State.receiveTroy (s : State) (p : Packet) : State :=
  let n := p.destEp.toNat - 0x2100
  if s.endpointHeld p.destEp.toNat then s
  else s.receive p fun _ s =>
    if p.srcNode.toNat ≠ s.node ∨ epCore p.srcEp.toNat = false ∨ s.settingFenced n ∨ mNotify p.fields.toNat then s.refuseMsg p 1
    else
      match troyPutKind p with
      | none => s.refuseMsg p 2
      | some 0 =>
        let x := s.troyArrive n (leNat p.payload)
        x.1.answer p x.2
      | some _ => s.troyTable n p

/-- A PUT packet for a Troy unit of the kind that a command names. -/
def troyPut (ok : Bool) (p : Packet) (s : State) : Host.Outcome State Fault Refusal :=
  arrivalIf (p.op == 1 && epTroy p.destEp.toNat && ok) none p s fun s => s.receiveTroy p

/-- A command record of a CMD. -/
def isTroyCmd (p : Packet) (c : Nat) : Bool := troyPutKind p == some 0 && tCmd (leNat p.payload) == c

/-- UPDATE (R293, R296): the command is queued, or refused where the queue is full. -/
def execTroyUpdate (packet : Packet) (s : State) : Host.Outcome State Fault Refusal := troyPut (isTroyCmd packet 1) packet s

/-- COMMIT (R291). -/
def execTroyCommit (packet : Packet) (s : State) : Host.Outcome State Fault Refusal := troyPut (isTroyCmd packet 2) packet s

/-- LEDGER_SET (R296, R300): queued. -/
def execLedgerSet (packet : Packet) (s : State) : Host.Outcome State Fault Refusal := troyPut (isTroyCmd packet 3) packet s

/-- TROY_PROGRAM_PUT (R293). -/
def execTroyProgramPut (packet : Packet) (s : State) : Host.Outcome State Fault Refusal :=
  troyPut (troyPutKind packet == some 1) packet s

/-- TROY_CONST_PUT (R293). -/
def execTroyConstPut (packet : Packet) (s : State) : Host.Outcome State Fault Refusal :=
  troyPut (troyPutKind packet == some 2) packet s

/-- PUT_ARRIVAL (R76–R79, R293, R379–R381). -/
def execPutArrival (via : Option Port) (packet : Packet) (s : State) : Host.Outcome State Fault Refusal :=
  requestArrival 1 via packet s fun s =>
    if epTroy packet.destEp.toNat then s.receiveTroy packet else s.receiveWrite packet

/-! ## Execution (R292, R296, R304) -/

/-- A Troy unit that can work: its setting is neither under reset nor without supply. -/
def State.troyOpen (s : State) (n : Nat) : Bool :=
  s.controllerOpen n && !s.supplyHeld n

/-- TROY_COMMAND_START (R292): the head command starts, an UPDATE only once its step has been released; while it waits, its
clocks count. -/
def execTroyCommandStart (setting : Setting) (s : State) : Host.Outcome State Fault Refusal :=
  let n := setting.val
  let t := s.troy n
  let begin_ := fun (s : State) (st : Nat) => s.updTroy n (fun t => { t with running := some st })
  match t.running, t.queue with
  | none, r :: _ =>
    if !s.troyOpen n then .next s
    else if tCmd r = 3 then .next (begin_ s (if s.troyBasic n r then 0 else 1))
    else
      match s.seq.released with
      | none => .next (s.countClocks (Key.commitWaitClocks n))
      | some k =>
        if k = tStep r then
          let x := s.updateStatus n r
          .next (begin_ x.1 x.2)
        else if reached k ((tStep r + 1) % 2 ^ 32) then .next (begin_ s 6)
        else .next (s.countClocks (Key.commitWaitClocks n))
  | _, _ => .next s

/-- The first `k` entries of a LEDGER_SET are written, each as one 8-byte write (R299), and flushed (R300). -/
def State.ledgerFirst (s : State) (n r k : Nat) : State :=
  ((List.range k).foldl (fun s b =>
    s.troyWrite n (s.ledgerAt n (tLedger r + b)) (ledgerEntry (tStep r) (tBucket r) (tBank r))) s).troyFlush n

/-- LEDGER_SET runs (R300). -/
def State.ledgerSet (s : State) (n r : Nat) : State := s.ledgerFirst n r (troyBlocks r)

/-- TROY_COMMAND_COMPLETE (R297): the running command ends; held PUTs then take effect and complete (R293). -/
def execTroyCommandComplete (setting : Setting) (s : State) : Host.Outcome State Fault Refusal :=
  let n := setting.val
  let t := s.troy n
  match t.running, t.queue with
  | some st, r :: rest =>
    if !s.troyOpen n then .next s
    else
      let x := if st ≠ 0 then (s, st, TroyCounts.none)
        else if tCmd r = 3 then (s.ledgerSet n r, 0, TroyCounts.none)
        else s.troyUpdate n r
      let s1 := x.1.updTroy n (fun t => { t with queue := rest, running := none, heldPuts := [] })
      let s2 := s1.troyFinish n r x.2.1 x.2.2
      .next (t.heldPuts.foldl (fun s p => (s.troyStore n p).answer p 0) s2)
  | _, _ => .next s

/-- COMMIT_BARRIER_RELEASE (R290). -/
def execCommitBarrierRelease (s : State) : Host.Outcome State Fault Refusal := .next (s.whileUp State.releaseIfDue)

end Sys2Proof.Machine
end

