-- ==== Sys2Proof/Machine/Links.lean ====
section
/-!
DEFINITION. Fabric links (R335–R354): frames received, acknowledgement and replay, link states and training, the neighbour check;
fabric time (R355–R361); the table commands (R389, R390); and mesh links out of use (R35).
-/
namespace Sys2Proof.Machine

/-! ## Link states (R350) -/

/-- A link enters a state and says so on the line, where it has one (R351); a link that leaves training has done so once (R555). -/
def State.setLinkSt (s : State) (l st : Nat) : State :=
  let x := s.link l
  if x.st = st then s
  else
    let s0 := s.setLink l { x with st := st }
    let out := decide (2 ≤ x.st) && decide (x.st ≤ 4) && !(decide (2 ≤ st) && decide (st ≤ 4)) && !s.startup.linksOut.contains l
    let s1 := if out then { s0 with startup := { s0.startup with linksOut := s0.startup.linksOut ++ [l] } } else s0
    s1.sendState l

/-- What a link that stops carrying discards (R346): its replay buffer, credits and streams, with the packets in them, and its
record. Parked packets no longer hold buffer space of it, which training sets to the full (R341). -/
def LinkState.discarded (x : LinkState) : LinkState :=
  { x with nbState := 0, nakDue := false, nakSent := none, retries := 0, replay := [], credits := [], owed := [], parked := [], txq := [],
           streams := [], record := none, echoTx := 0, echoRx := 0, sentTx := [], split := false }

/-- The packet of a stream that was partly received: ended with an abort mark, the bytes that never came as zeros (R346). -/
def abortedPacket (bs : List Byte) : Option Packet :=
  if bs.length < 32 then none
  else
    let p := packetOf (bs ++ List.replicate (packetSize bs - bs.length) 0)
    some { p with abort := true }

/-- The packets partly received on a link are ended (R346). -/
def State.abortStreams (s : State) (l : Nat) : State :=
  ((s.link l).streams.filterMap (fun x => abortedPacket x.2)).foldl (fun s p => s.emit (.received ((s.portOf l).getD 0) p)) s

/-- PORT_ENABLE of a port. -/
def State.portEnabled (s : State) (p : Nat) : Bool := s.flag (Key.portEnable p)

/-- A follower's own root, by what it follows; a root's is its own serial (R356, R360). -/
def State.isRoot (s : State) : Bool := s.get Key.timeRole == 1 || s.get Key.timeRole == 2

/-- The root whose time the package has: 0 for none (R358). -/
def State.rootSerial (s : State) : Nat := if s.isRoot then s.fuses.serial else s.timeRoot

/-- The offset of a port is within TIME_UNSYNC_LIMIT; before the first lock any is (R355, R360; log entry 18). -/
def State.offsetOk (s : State) (x : PortState) : Bool :=
  !s.everLocked || decide (x.offset.natAbs ≤ s.get Key.timeUnsyncLimit)

/-- The root of a port is the package's own, or the package has none or is one (R360; log entry 18). -/
def State.rootOk (s : State) (x : PortState) : Bool := s.isRoot || s.timeRoot == 0 || x.root == s.timeRoot

/-- A port is synchronised (R360). -/
def State.synced (s : State) (p : Nat) : Bool :=
  let x := s.port p
  !(s.activeLinks p).isEmpty && x.locked && s.offsetOk x && s.rootOk x

/-- The parent a follower chooses (R357): the synchronised port of TIME_PARENT_MASK with the lowest HOPS, then the lowest
number. -/
def State.bestParent (s : State) : Option Nat :=
  let ps := (List.range 16).filter (fun p => bit (s.get Key.timeParentMask) p && s.synced p && decide ((s.port p).hops < 0xFF))
  ps.foldl (fun (a : Option Nat) p =>
    match a with
    | none => some p
    | some b => if (s.port p).hops < (s.port b).hops then some p else a) none

/-- The flags TIME_SYNCED, with their transitions counted (R360). -/
def State.syncFlags (s : State) : State :=
  (List.range 16).foldl (fun s p =>
    let now := s.synced p
    let was := s.flag (Key.timeSynced p)
    let s1 := if now = was then s else s.set (Key.timeSynced p) (b2n now)
    if was && !now then
      let s2 := s1.count (Key.timeUnsyncEvents p) 1
      if s.rootOk (s.port p) || (s.port p).root == 0 then s2 else s2.count (Key.timeRootMismatch p) 1
    else s1) s

/-- The choice of parent and TIME_STATE (R357, R361). The first lock steps fabric time to the parent (R355). -/
def State.timeUpdate (s : State) : State :=
  if s.isRoot then
    let s1 := s.syncFlags
    ((({ s1 with timeRoot := 0 }.set Key.timeParentPort 0xFF).set Key.timeHops 0).set Key.timeState
      (if s.get Key.timeRole = 2 ∧ s.get Key.timeState = 2 then 2 else 3))
  else
    let s1 := s.syncFlags
    let best := if s1.startup.running ∧ s1.startup.cold then none else s1.bestParent
    let s2 := if best.getD 0xFF = s1.get Key.timeParentPort then s1
      else (s1.set Key.timeParentPort (best.getD 0xFF)).count Key.timeParentChanges 1
    match best with
    | none => ({ s2 with timeRoot := 0 }.set Key.timeHops 0xFF).set Key.timeState (if s2.everLocked then 2 else 0)
    | some p =>
      let x := s2.port p
      let s3 := if s2.everLocked then s2
        else
          let t := { s2 with ftime := unsgn 64 ((s2.ftime : Int) + x.offset), everLocked := true }
          (t.setPort p { x with offset := 0 }).count Key.timeSteps 1
      ({ s3 with timeRoot := x.root }.set Key.timeHops (x.hops + 1)).set Key.timeState 1

/-- A port with no ACTIVE link has lost its neighbour's time. -/
def State.portLost (s : State) (p : Nat) : State :=
  if (s.activeLinks p).isEmpty then (s.setPort p { s.port p with hops := 0xFF, locked := false, root := 0 }).timeUpdate else s

/-- A link stops carrying and enters a state, with the discards of R346. -/
def State.dropLink (s : State) (l st : Nat) : State :=
  let s0 := s.abortStreams l
  let s1 := (s0.setLink l (s0.link l).discarded).setLinkSt l st
  match s.portOf l with
  | none => s1
  | some p => s1.portLost p

/-- A link goes down (R345, R346). -/
def State.linkGoesDown (s : State) (l : Nat) : State := (s.dropLink l 1).count (Key.linkDowns l) 1

/-- The links of a rim die may train: it is neither fenced nor under reset, and the package runs its
firmware (R488, R525). -/
def State.rimUp (s : State) (r : Nat) : Bool :=
  !s.packageHeld && !s.rimFenced r && s.get Key.pkgState != 2 && (!s.startup.running || s.startup.verified)
    && !s.resets.any (fun j => j.domain == 5 && j.target == r)

/-- DISABLED links of enabled ports begin to train (R350). -/
def State.trainLinks (s : State) : State :=
  (List.range 32).foldl (fun s l =>
    if (s.link l).st = 0 ∧ s.rimUp (l / 8) ∧ (s.portOf l).any s.portEnabled then s.setLinkSt l 2 else s) s

/-! ## Retries (R344, R345) -/

/-- A frame sent again: the body and SEQ it had, with the ACK and NAK of now. -/
def LinkState.reform (x : LinkState) (f : Frame) : Frame :=
  let g := { f with ack := BitVec.ofNat 16 x.expect, nak := x.nakDue }
  { g with crc := BitVec.ofNat 32 (crcIeee (frameBytes g)) }

/-- A buffered frame goes again. -/
def State.resendFrame (s : State) (l : Nat) (f : Frame) : State :=
  let x := s.link l
  let s1 := ((s.setLink l x.nakGone).emit (.frame l (x.reform f))).count (Key.xflFramesTx l) 1
  if x.nakDue then s1.count (Key.xflNaksSent l) 1 else s1

/-- A retry: every buffered frame goes again; XFL_RETRY_LIMIT consecutive ones bring the link down (R344, R345). -/
def State.retryLink (s : State) (l : Nat) : State :=
  let x := s.link l
  let s1 := x.replay.foldl (fun s f => s.resendFrame l f.1) (s.count (Key.xflRetries l) 1)
  if s.get Key.xflRetryLimit ≤ x.retries + 1 then s1.linkGoesDown l
  else s1.setLink l { s1.link l with retries := x.retries + 1 }

/-! ## Frames received (R339, R343) -/

/-- A discarded frame: counted, and answered by a NAK unless one has been sent for the expected value (R339, R343). -/
def State.badFrame (s : State) (l : Nat) : State :=
  let x := s.link l
  (s.setLink l { x with nakDue := x.nakSent != some x.expect }).count (Key.xflCrcErrors l) 1

/-- A frame holds its CRC and no reserved value (R339). A body may go on beyond the bytes in use. -/
def frameOk (f : Frame) : Bool :=
  crcIeee (frameBytes f) == f.crc.toNat && f.ftype != 3 && decide (f.body.length ≤ 240)
    && (f.ftype != 0 || (decide (f.vc.toNat ≤ 11) && decide (1 ≤ f.bodyLen.toNat) && decide (f.bodyLen.toNat ≤ 240)
          && decide (f.bodyLen.toNat ≤ f.body.length)))

/-- The acknowledgement in a frame: frames before ACK leave the replay buffer (R344). -/
def State.takeAck (s : State) (l : Nat) (f : Frame) : State :=
  let x := s.link l
  match x.replay with
  | [] => s
  | o :: _ =>
    let k := (f.ack.toNat + 65536 - o.1.seq.toNat) % 65536
    if k = 0 ∨ x.replay.length < k then s else s.setLink l { x with replay := x.replay.drop k, retries := 0 }

/-- The credits in a frame (R341). -/
def State.takeCredits (s : State) (l : Nat) (f : Frame) : State :=
  let x := s.link l
  let v := f.creditVc.toNat
  if f.credits = 0 then s else s.setLink l { x with credits := put v (x.credit v + 32 * f.credits.toNat) x.credits }

/-- The NAK in a frame. -/
def State.takeNak (s : State) (l : Nat) (f : Frame) : State := if f.nak then s.retryLink l else s

/-- A frame of a type is received on a trained link; `body` then handles it. A frame on a link that is not trained, or of
another type, is not this command's (log entry 9). -/
def frameOp (ftype : Nat) (link : Link) (f : Frame) (s : State) (body : State → State) : Host.Outcome State Fault Refusal :=
  if s.packageHeld ∨ (s.link link.val).st < 3 ∨ f.ftype.toNat ≠ ftype then .next s
  else if !frameOk f then .next (s.badFrame link.val)
  else .next (((body (s.takeAck link.val f)).takeNak link.val f).pump)

/-- Whole packets at the front of a received stream come out; the first argument bounds their number. -/
def cutPackets : Nat → List Byte → List Packet × List Byte
  | 0, bs => ([], bs)
  | n + 1, bs =>
    if bs.length < 32 ∨ bs.length < packetSize bs then ([], bs)
    else
      let r := cutPackets n (bs.drop (packetSize bs))
      (packetOf (bs.take (packetSize bs)) :: r.1, r.2)

/-- An accepted DATA frame: its bytes join their stream, the whole packets come out, and their space frees (R340, R341); that of a
packet of a collective, on the channels of its class, only once the packet is taken (R416). -/
def State.acceptData (s : State) (l : Nat) (f : Frame) : State :=
  let x := s.link l
  let v := f.vc.toNat
  let bs := f.body.take f.bodyLen.toNat
  let r := cutPackets 300 ((look v x.streams).getD [] ++ bs)
  let others := ((r.1.filter (fun p => !isCollPacket p)).map (fun p => (packetBytes p).length)).foldl (· + ·) 0
  let s1 := s.setLink l { x with
    expect := (x.expect + 1) % 65536, streams := put v r.2 x.streams,
    owed := if collVc v then (if others = 0 then x.owed else oweMore v others x.owed) else oweMore v bs.length x.owed,
    parked := if collVc v then x.parked ++ (r.1.filter isCollPacket).map (fun p => (v, p)) else x.parked }
  let port := (s.portOf l).getD 0
  r.1.foldl (fun s p => { s with inbound := s.inbound ++ [(port, p)] }.emit (.received port p)) (s1.count (Key.xflFramesRx l) 1)

/-- XFL_DATA_FRAME (R343). A link that is not ACTIVE carries nothing. -/
def execXflDataFrame (link : Link) (frame : Frame) (s : State) : Host.Outcome State Fault Refusal :=
  frameOp 0 link frame s fun s =>
    let l := link.val
    let x := s.link l
    let below := (x.expect + 65536 - frame.seq.toNat) % 65536
    if x.st ≠ 5 then s
    else if below = 0 then (s.acceptData l frame).takeCredits l frame
    else if below ≤ 256 then s.count (Key.xflDuplicates l) 1
    else s.setLink l { x with nakDue := x.nakSent != some x.expect }

/-- XFL_IDLE_FRAME (R342, R343). -/
def execXflIdleFrame (link : Link) (frame : Frame) (s : State) : Host.Outcome State Fault Refusal :=
  frameOp 1 link frame s fun s => (s.takeCredits link.val frame).count (Key.xflFramesRx link.val) 1

/-- XFL_CRC_ERROR (R338, R339, R351): a damaged, reserved or overlapped frame is discarded whole. -/
def execXflCrcError (link : Link) (_frame : Frame) (s : State) : Host.Outcome State Fault Refusal :=
  if s.packageHeld ∨ (s.link link.val).st < 3 then .next s else .next (s.badFrame link.val)

/-- A CONTROL frame whose body says what the command does (`ok`). -/
def controlOp (ok : Bool) (link : Link) (frame : Frame) (s : State) (body : State → State) : Host.Outcome State Fault Refusal :=
  if !ok then .next s
  else
    frameOp 2 link frame s fun s => body ((s.takeCredits link.val frame).count (Key.xflFramesRx link.val) 1)

/-- STATE_FRAME (R350, R351). -/
def execStateFrame (link : Link) (frame : Frame) (state : BitVec 8) (port : BitVec 4) (s : State) : Host.Outcome State Fault Refusal :=
  controlOp (ctypeOf frame.body == 2 && stateRead frame.body == (state.toNat, port.toNat)) link frame s fun s =>
    s.setLink link.val { s.link link.val with nbState := state.toNat }

/-! ## The neighbour check (R353, R354) -/

/-- The record matches the expectation of a port (R353). -/
def State.expected (s : State) (p : Nat) (r : NbRecord) : Bool :=
  (s.get (Key.portExpectSerial p) == 0 || s.get (Key.portExpectSerial p) == r.serial.toNat)
    && (s.get (Key.portExpectPort p) == 0xFF || s.get (Key.portExpectPort p) == r.port.toNat)

/-- A loopback: the package's own serial, not expected. -/
def State.loopback (s : State) (p : Nat) (r : NbRecord) : Bool :=
  r.serial.toNat == s.fuses.serial && s.get (Key.portExpectSerial p) != r.serial.toNat

/-- The other links of a port with an accepted record. -/
def State.otherRecords (s : State) (p l : Nat) : List NbRecord :=
  (s.portLinks p).filterMap (fun k => if k = l then none else (s.link k).record)

/-- Every link of a port that has come to the check or is ACTIVE enters QUARANTINE, each counted (R353, log entry 18). -/
def State.quarantine (s : State) (p : Nat) : State :=
  (s.portLinks p).foldl (fun s l =>
    if (s.link l).st = 4 then (s.setLinkSt l 6).count (Key.portQuarantines p) 1
    else if (s.link l).st = 5 then
      let r := (s.link l).record
      let s1 := s.dropLink l 6
      (s1.setLink l { s1.link l with record := r }).count (Key.portQuarantines p) 1
    else s) s

/-- A link of a port enters ACTIVE with its credits as XFL_SYNC set them, and says who it is. -/
def State.activate (s : State) (l : Nat) : State := (s.setLinkSt l 5).sendRecord l

/-- A link leads to another neighbour than its port's: it alone enters QUARANTINE (R353). -/
def State.splitLink (s : State) (p l : Nat) : State :=
  let s1 := if (s.link l).st = 5 then s.dropLink l 6 else s.setLinkSt l 6
  (s1.setLink l { s1.link l with split := true }).count (Key.linkSplitPort p) 1

/-- A record of a link that has none: it becomes the link's, or the link leads elsewhere than its port (R353). -/
def State.lateRecord (s : State) (p l : Nat) (r : NbRecord) : State :=
  if (s.otherRecords p l).any (fun o => o.serial != r.serial || o.port != r.port) then s.splitLink p l
  else
    let s1 := s.setLink l { s.link l with record := some r }
    s1.setPort p { s1.port p with record := some r }

/-- The first record on a link in NEIGHBOUR decides (R353). -/
def State.checkNeighbour (s : State) (p l : Nat) (r : NbRecord) : State :=
  if r.major.toNat ≠ s.get Key.xflVersion / 256 then
    let s1 := s.setLink l { s.link l with record := none }
    ((s1.setPort p { s1.port p with record := some r }).setLinkSt l 7).count (Key.portVersionHolds p) 1
  else if (s.otherRecords p l).any (fun o => o.serial != r.serial || o.port != r.port) then
    s.splitLink p l
  else
    let s1 := s.setLink l { s.link l with record := some r }
    let s2 := s1.setPort p { s1.port p with record := some r }
    if s.loopback p r then s2.quarantine p
    else if s.expected p r then s2.activate l
    else if s.get Key.topoMode = 0 then s2.quarantine p
    else (s2.activate l).count (Key.portAdoptions p) 1

/-- NEIGHBOUR_FRAME (R351–R353): decides in NEIGHBOUR; later records of the accepted neighbour are reported. A link that its port's
check took along before its own record came has its first record checked against the port's. -/
def execNeighbourFrame (link : Link) (frame : Frame) (record : NbRecord) (s : State) : Host.Outcome State Fault Refusal :=
  controlOp (ctypeOf frame.body == 1 && nbRead frame.body == record) link frame s fun s =>
    let l := link.val
    let x := s.link l
    match s.portOf l with
    | none => s
    | some p =>
      if x.st = 4 then s.checkNeighbour p l record
      else if x.record.isSome then
        let s1 := s.setLink l { x with record := some record }
        s1.setPort p { s1.port p with record := some record }
      else if (x.st = 5 ∨ x.st = 6) ∧ x.split = false then s.lateRecord p l record
      else s

/-- A port's expectation is evaluated again against its accepted record (R354); every link made ACTIVE in adopt mode against the expectation
counts (R353, R362). -/
def State.recheckPort (s : State) (p : Nat) : State :=
  match (s.port p).record with
  | none => s
  | some r =>
    let pass := !s.loopback p r && (s.expected p r || s.get Key.topoMode == 1)
    if pass then
      ((s.portLinks p).foldl (fun s l => if (s.link l).st = 6 ∧ (s.link l).split = false then
        let x := s.link l
        let full := (List.range 12).map (fun v => (v, s.get Key.vcBufferBytes))
        let s1 := (s.setLink l { x with credits := if x.credits = [] then full else x.credits }).activate l
        if s.expected p r then s1 else s1.count (Key.portAdoptions p) 1 else s) s).pump
    else if s.get Key.topoMode = 0 ∨ s.loopback p r then s.quarantine p
    else s

/-! ## Commands of a link -/

/-- XFL_ACK_TIMEOUT (R344). No effect with nothing buffered. -/
def execXflAckTimeout (link : Link) (s : State) : Host.Outcome State Fault Refusal :=
  if s.packageHeld ∨ (s.link link.val).replay = [] then .next s
  else .next ((s.count (Key.xflAckTimeouts link.val) 1).retryLink link.val).pump

/-- LINK_DOWN (R345, R346). -/
def execLinkDown (link : Link) (s : State) : Host.Outcome State Fault Refusal :=
  if s.packageHeld ∨ (s.link link.val).st < 3 then .next s else .next (s.linkGoesDown link.val).pump

/-- LINK_RETRAIN_HOLDOFF_EXPIRY (R346, R350). -/
def execLinkRetrainHoldoffExpiry (link : Link) (s : State) : Host.Outcome State Fault Refusal :=
  if s.packageHeld = false ∧ (s.link link.val).st = 1 ∧ (s.portOf link.val).any s.portEnabled then .next (s.setLinkSt link.val 2) else .next s

/-- PHY_TRAIN_DONE (R350): XFL_SYNC begins with SEQ and ACK at 0. -/
def execPhyTrainDone (link : Link) (s : State) : Host.Outcome State Fault Refusal :=
  let l := link.val
  if s.packageHeld = false ∧ (s.link l).st = 2 then
    .next ((s.setLink l { (s.link l).discarded with txSeq := 0, expect := 0 }).setLinkSt l 3)
  else .next s

/-- XFL_SYNC_DONE (R348, R350): with a skew of at most 128 ns the link has its credits and enters NEIGHBOUR. -/
def execXflSyncDone (link : Link) (skew : Nat) (s : State) : Host.Outcome State Fault Refusal :=
  let l := link.val
  if s.packageHeld = false ∧ (s.link l).st = 3 then
    let s1 := s.set (Key.linkSkew l) (min skew 0xFFFF)
    if 128 < skew then .next (s1.count (Key.linkSkewFails l) 1)
    else
      let full := (List.range 12).map (fun v => (v, s.get Key.vcBufferBytes))
      .next (((s1.setLink l { s1.link l with credits := full }).setLinkSt l 4).sendRecord l)
  else .next s

/-- LINK_TRAIN_TIME_LIMIT (R350). -/
def execLinkTrainTimeLimit (link : Link) (s : State) : Host.Outcome State Fault Refusal :=
  let st := (s.link link.val).st
  if s.packageHeld = false ∧ 2 ≤ st ∧ st ≤ 4 then .next ((s.dropLink link.val 1).count (Key.linkTrainFails link.val) 1) else .next s

/-- STATE_FRAME_TIMER (R351). -/
def execStateFrameTimer (link : Link) (s : State) : Host.Outcome State Fault Refusal :=
  .next (s.whileUp (·.sendState link.val))

/-- NEIGHBOUR_FRAME_TIMER (R351). -/
def execNeighbourFrameTimer (link : Link) (s : State) : Host.Outcome State Fault Refusal :=
  if s.packageHeld = false ∧ [4, 6, 7].contains (s.link link.val).st then .next (s.sendRecord link.val) else .next s

/-- FEC_SECOND (R338). -/
def execFecSecond (link : Link) (worst : BitVec 8) (corrected uncorrectable : Nat) (s : State) : Host.Outcome State Fault Refusal :=
  .next (s.whileUp fun s => ((s.set (Key.fecWorstCw link.val) worst.toNat).count (Key.fecCorrectedSymbols link.val) corrected).count
    (Key.fecUncorrectable link.val) uncorrectable)

/-- A tick of the trained links: what can be sent goes, a link with nothing to send sends IDLE, so the line never falls silent
(R342), and the clocks with a full replay buffer count (R344; log entry 6). -/
def State.tickLinks (s : State) : State :=
  let s1 := s.pump
  ((s1.links.filter (fun x => decide (3 ≤ x.2.st))).map Prod.fst).foldl (fun s l =>
    let s2 := if 256 ≤ (s.link l).replay.length then s.countClocks (Key.xflReplayFullClocks l) else s
    s2.sendFrame l 1 0 0 []) s1

/-! ## Time (R357–R361) -/

/-- The TIME frame of a link (R357, R358). -/
def State.timeFields (s : State) (l : Nat) : TimeBody :=
  let locked := s.isRoot || s.get Key.timeState == 1
  { hops := BitVec.ofNat 8 (if s.isRoot then 0 else if s.get Key.timeState = 1 then s.get Key.timeHops else 0xFF), locked := locked,
    txTime := BitVec.ofNat 64 s.ftime, echoTx := BitVec.ofNat 64 (s.link l).echoTx, echoRx := BitVec.ofNat 64 (s.link l).echoRx,
    root := BitVec.ofNat 64 s.rootSerial }

/-- TIME_SYNC_TIMER (R357): a TIME frame on the lowest ACTIVE link of each ACTIVE port. -/
def execTimeSyncTimer (s : State) : Host.Outcome State Fault Refusal :=
  .next (s.whileUp fun s => (List.range 16).foldl (fun s p =>
    match (s.activeLinks p).head? with
    | none => s
    | some l =>
      let s1 := s.sendControl l (timeBody (s.timeFields l))
      s1.setLink l { s1.link l with sentTx := (s1.link l).sentTx ++ [s.ftime] }) s)

/-- Half of a sum of nanoseconds; where the sum is odd, which whole number is a free value (log entry 2). -/
def State.half (s : State) (x : Int) : Int := (x + (s.free % 2 : Nat)) / 2

/-- A follower steers by its parent's new offset (R361): by its rate, by a step forward, or at half rate until the offset is removed.
Before the first lock it waits for the step of R355. -/
def State.steer (s : State) (o : Int) : State :=
  if s.everLocked = false then s
  else if o.natAbs ≤ s.get Key.timeUnsyncLimit then { s with rateLeft := o }
  else if 0 < o then { s with ftime := unsgn 64 ((s.ftime : Int) + o), rateLeft := 0 }.count Key.timeSteps 1
  else { s with slew := 2 * o.natAbs, rateLeft := 0 }.count Key.timeSlewEvents 1

/-- The offset and delay that a TIME frame gives (R359). -/
def State.takeTime (s : State) (p l : Nat) (t : TimeBody) : State :=
  let t4 : Int := s.ftime
  let t1 : Int := t.echoTx.toNat
  let t2 : Int := t.echoRx.toNat
  let t3 : Int := t.txTime.toNat
  let x := s.port p
  let s0 := s.setLink l { s.link l with echoTx := t.txTime.toNat, echoRx := s.ftime }
  if (s.link l).sentTx.contains t.echoTx.toNat then
    let o := s.half ((t2 - t1) + (t3 - t4))
    let d := s.tick.half ((t4 - t1) - (t3 - t2)) - sgn 32 (s.get (Key.timeAsymCorr p))
    let sat := max (-(2 ^ 31)) (min (2 ^ 31 - 1) o)
    let delay := if 0 ≤ d ∧ d < 2 ^ 32 then d.toNat else s.tick.tick.free % 2 ^ 32
    let s1 := (s0.tick.tick.tick.set (Key.timeOffset p) (unsgn 32 sat)).set (Key.timeDelay p) delay
    let s2 := s1.setPort p { x with offset := o, hops := t.hops.toNat, locked := t.locked, root := t.root.toNat }
    (if !s.isRoot && s.get Key.timeParentPort == p then s2.steer o else s2).timeUpdate
  else (s0.setPort p { x with hops := t.hops.toNat }).timeUpdate

/-- TIME_FRAME (R359–R361). -/
def execTimeFrame (link : Link) (frame : Frame) (time : TimeBody) (s : State) : Host.Outcome State Fault Refusal :=
  controlOp (ctypeOf frame.body == 3 && timeRead frame.body == time) link frame s fun s =>
    match s.portOf link.val with
    | none => s
    | some p => if (s.link link.val).st = 5 then s.takeTime p link.val time else s

/-! ## Table versions (R389, R390) -/

/-- The state with a version in a table state. -/
def State.setTable (s : State) (v st : Nat) : State := s.set (Key.tableState v) st

/-- A version in a table state. -/
def State.tableIn (s : State) (st : Nat) : Option Nat := [0, 1].find? (fun v => s.tableState v == st)

/-- What a command of TABLE_CMD does, or nothing where its condition fails (R390). FLIP clears every group and fails every
collective in progress (R413, R423). -/
def State.tableCommand (s : State) (c : Nat) : Option State :=
  match c with
  | 1 =>
    match s.tableIn 0 with
    | some v => if s.tableState (1 - v) = 2 then some (s.setTable v 1) else none
    | none => none
  | 2 =>
    match s.tableIn 1 with
    | some v =>
      let s1 := axes.foldl State.clearGroup ((s.setTable v 2).setTable (1 - v) 3)
      some (((s1.colls.map Prod.fst).foldl (fun s ctx => s.failColl ctx 0x0B) s1).runColls.announce s)
    | none => none
  | 3 =>
    match s.tableIn 3 with
    | some v => if s.resident v = 0 then some (s.setTable v 0) else none
    | none => none
  | 4 =>
    match s.tableIn 1 with
    | some v => if s.resident v = 0 then some (s.setTable v 0) else none
    | none => none
  | _ => none

/-! ## Mesh links (R33, R35) -/

/-- Two settings are neighbours in the 6 × 4 grid. -/
def meshAdjacent (a b : Nat) : Bool :=
  (a / 6 == b / 6 && (a % 6 == b % 6 + 1 || b % 6 == a % 6 + 1)) || (a % 6 == b % 6 && (a / 6 == b / 6 + 1 || b / 6 == a / 6 + 1))

/-- MESH_LINK_OUT (R35): the link between a setting and its neighbour is out of use; both routers count it, and its 64 retries. -/
def execMeshLinkOut (setting : Setting) (neighbour : Nat) (s : State) : Host.Outcome State Fault Refusal :=
  let a := setting.val
  if s.packageHeld = false ∧ neighbour < 24 ∧ meshAdjacent a neighbour ∧ ¬ s.meshOut.contains (min a neighbour, max a neighbour) then
    .next ([a, neighbour].foldl (fun s n => (s.count (Key.meshLinksOut n) 1).count (Key.meshCrcRetries n) 64)
      { s with meshOut := s.meshOut ++ [(min a neighbour, max a neighbour)] })
  else .next s

end Sys2Proof.Machine
end

