-- ==== Sys2Proof/Machine/Entries.lean ====
section
/-!
DEFINITION. Reading the object dictionary (R36, R54, R462–R467, R475): the entries that exist, the value each holds or reports,
and the reads of CTU programs.
-/
namespace Sys2Proof.Machine

/-! ## Which entries exist -/

/-- The family of an entry, if there is one: the temperatures end at 0x9501.57 (R548). -/
def rowOf (index sub : Nat) : Option EntryRow :=
  if index = 0x9501 ∧ 0x58 ≤ sub then none
  else dictRows.find? (fun r => decide (r.index ≤ index) && decide (index < r.index + r.count) && decide (r.sub ≤ sub)
    && decide (sub < r.sub + r.subs))

/-- In recovery only the 0x1000 and 0xA000 ranges answer (R475, R525). -/
def State.hidden (s : State) (index : Nat) : Bool :=
  s.get Key.pkgState == 2 && index / 256 != 0x10 && index / 4096 != 0xA

/-- The entry that an access names. -/
def State.entryRow (s : State) (index sub : Nat) : Option EntryRow := if s.hidden index then none else rowOf index sub

/-- The stored value of an entry by its key. -/
def State.stored (s : State) (index sub dflt : Nat) : Nat := (look (256 * index + sub) s.dict).getD dflt

/-! ## Values that the package reports -/

/-- A control-unit context's state as CORE_STATE gives it (R45, R92). -/
def ctxCode (st : CtxState) : Nat :=
  match st with
  | .ready => 0
  | .waiting => 1
  | .halted => 2
  | .notLoaded => 3

/-- CORE_STATE of a core (R92). -/
def Core.stateByte (c : Core) : Nat :=
  ctxCode c.primary.st + 4 * ctxCode c.companion.st + 16 * b2n c.mxe.stopped + 32 * b2n c.fge.stopped + 64 * b2n c.mse.stopped

/-- The physical core, within its cluster, that holds logical core `k` of global cluster `n` (R27, R39). -/
def State.mappedCore (s : State) (n k : Nat) : Option Nat :=
  if s.dieFenced (n / 4) ∨ s.coresPerCluster ≤ k then none else ((s.clusterMap n)[k]?).map Fin.val

/-- The physical cores that hold logical cores, or their lockstep copies (R31). -/
def State.mappedCores (s : State) (n : Nat) : List Nat := (List.range 16).filterMap (s.mappedCore n)

/-- The core of a cluster that is under test (R503), but for the quick check. -/
def State.underTest (s : State) (n : Nat) : Option Nat := (s.hall.tests.find? (fun t => t.cluster == n && !t.quick)).map (·.core)

/-- A spare, as CLUSTER_SPARE_MASK shows it: unmapped, good and not under test (R27, R515). -/
def State.isSpare (s : State) (n q : Nat) : Bool :=
  decide (q < 17) && !s.badCore n q && !(s.mappedCores n).contains q && s.underTest n != some q

/-- A cluster that full redundancy leaves without IDs, or whose die is fenced, presents no core (R29, R31, R39). -/
def State.presents (s : State) (n : Nat) : Bool := !s.dieFenced (n / 4) && !(s.redundant && n % 2 == 1)

/-- The axis tables of a version select a direction of an axis for some package (R386). -/
def State.selects (s : State) (v a d : Nat) : Bool :=
  (List.range (s.axisSize a)).any (fun c =>
    let e := s.get (Key.axisRoute v a c)
    c != coord s.node a && bit e 2 && (fld e 0 2 == d + 1 || fld e 0 2 == 3))

/-- A port in use is taken round by its detour (R392): in axis mode the tables of a version that routes packets (R389) select it, it is not
usable, and it has a detour. -/
def State.detouring (s : State) (p : Nat) : Bool :=
  !s.upDown && decide (s.portDetour p < 0x80) && [0, 1].any (fun v => s.tableState v != 0
    && s.portFor v (s.portAxis p) (s.portDir p) == some p && s.selects v (s.portAxis p) (s.portDir p) && !s.usable v p)

/-- PORT_STATE (R362). -/
def State.portState (s : State) (p : Nat) : Nat :=
  let sts := (s.portLinks p).map (fun l => (s.link l).st)
  if s.portMask p = 0 then 0
  else if !s.portEnabled p then 6
  else if sts.contains 5 then 3
  else if sts.contains 6 then 4
  else if sts.contains 7 then 5
  else if sts.any (fun x => decide (2 ≤ x) && decide (x ≤ 4)) then 2
  else 1

/-- The octets of a text as a number, first octet lowest. -/
def textNat (t : String) : Nat := leNat (t.toList.map (fun c => BitVec.ofNat 8 c.toNat))

/-- The last octet of the Chain's MAC address: the ID in use, or 0x1F while claiming (R452). -/
def State.macByte (s : State) : Nat := if s.get Key.chainId = 0 then 0x1F else s.get Key.chainId

/-- The public key of the device identity (R528). -/
def State.identityKey (s : State) : List Byte :=
  ed448Public (shake256 ("XH-440 ID".toList.map (fun c => BitVec.ofNat 8 c.toNat) ++ s.fuses.seed) 57)

/-- The signature block of the device certificate (R518, R529): its key slot, its public key and its signature are those it was made with, the
free content 3 (log entry 2). -/
def certBlock : List Byte :=
  leBytes 8 (0x516E + (Config.freeByte 3 2).toNat % 4 * 2 ^ 16 + 5 * 2 ^ 24) ++ (List.range 57).map (fun i => Config.freeByte 3 (8 + i))
    ++ [0] ++ (List.range 114).map (fun i => Config.freeByte 3 (66 + i)) ++ List.replicate 12 0

/-- The device certificate in the flash (R529): its body and its signature block. -/
def State.deviceCert (s : State) : List Byte :=
  leBytes 16 (0xCE27 + 2 ^ 16 + b2n s.fuses.gradeB * 2 ^ 24 + s.fuses.serial % 2 ^ 64 * 2 ^ 32 + 0xB0 * 2 ^ 96)
    ++ (s.identityKey ++ List.replicate 57 0).take 57 ++ List.replicate 55 0 ++ certBlock

/-- Bits of a field of an installed bundle's header (R500). -/
def State.bundleField (s : State) (slot lo n : Nat) : Nat :=
  match look slot s.hall.slots with
  | none => 0
  | some b => fld (leNat (b.take 64)) lo n

/-- The accepted neighbour record of a port as the entries report it (R362). -/
def State.neighbour (s : State) (p : Nat) (f : NbRecord → Nat) (none_ : Nat) : Nat := ((s.port p).record.map f).getD none_

/-- CLUSTER_STEPS in parts: thermal, power, PROCHOT (R546). -/
def State.clusterStep (s : State) (n which : Nat) : Nat := fld (s.get (Key.clusterSteps n)) (8 * which) 8

/-- The step that rules a cluster's clock (R546). -/
def State.clockStep (s : State) (n : Nat) : Nat := min (s.clusterStep n 0) (min (s.clusterStep n 1) (s.clusterStep n 2))

/-- CLUSTER_MHZ: step/16 of 1,700; where that is no whole number, which neighbour is a free value (R546, log entry 2). -/
def State.clusterClock (s : State) (n : Nat) : Nat :=
  let v := s.clockStep n * 1700
  if v % 16 = 0 then v / 16 else v / 16 + s.free % 2

/-- RESET_LIMIT in ms by domain (R487). -/
def resetLimits : List Nat := [1, 5, 20, 100, 5000, 5000, 10000]

/-- The value of an entry as a number: `i` counts indices and `k` subindices within the family `r`. The families are told apart by
their first key. -/
def State.entryNat (s : State) (r : EntryRow) (i k : Nat) : Nat :=
  match 256 * r.index + r.sub with
  | 0x100001 => s.fuses.serial
  | 0x100002 => textNat (if s.fuses.gradeB then "XH-440B" else "XH-440A")
  | 0x100003 => b2n s.fuses.gradeB
  | 0x100006 => s.fw.running
  | 0x100007 => Config.romVersion
  | 0x100008 => leNat [0x02, 0x53, 0, 0, 0, BitVec.ofNat 8 s.macByte]
  | 0x111002 => s.signature (s.get Key.jobSignatureStep)
  | 0x200001 => s.coresPerCluster
  | 0x200003 => s.coreCount
  | 0x210000 => if s.presents i then (s.mappedCores i).length else 0
  | 0x210001 => if s.presents i then (s.mappedCore i k).getD 0xFF else 0xFF
  | 0x210011 => maskOf 17 (s.isSpare i)
  | 0x240020 => if s.presents i then ((s.mappedCore i k).map (fun q => (s.core (17 * i + q)).stateByte)).getD 0xFF else 0xFF
  | 0x2C0025 => (s.underTest i).getD 0xFF
  | 0x301001 => s.orderProfile
  | 0x301002 => 16 - s.orderProfile
  | 0x366001 => b2n s.seq.isOpen
  | 0x366002 => s.seq.step
  | 0x366003 => s.seq.first
  | 0x366004 => s.seq.count
  | 0x366005 => s.seq.u
  | 0x369001 => b2n s.seq.released.isSome
  | 0x369002 => s.seq.released.getD 0
  | 0x410001 => (s.stack i).pcs
  | 0x410002 => maskOf 32 (fun p => (s.stack i).active.any (fun q => q.val == p))
  | 0x410004 => (s.stack i).capacity
  | 0x410005 => if (s.stack i).failed then 0 else (s.stack i).recordBase
  | 0x410006 => (s.stack i).recordBase
  | 0x410007 => (s.stack i).ledgerBase
  | 0x410008 => (s.stack i).locketBase
  | 0x410009 => (s.stack i).retrainBase
  | 0x41000A => b2n (s.stack i).failed
  | 0x501001 => s.portMask i
  | 0x501002 => s.portAxis i
  | 0x501003 => s.portDir i
  | 0x501007 => s.portState i
  | 0x501008 => (s.activeLinks i).length
  | 0x501009 => s.neighbour i (·.serial.toNat) 0
  | 0x50100A => s.neighbour i (fun n => n.port.toNat + 16 * n.axis.toNat + 128 * b2n n.dir) 0xFF
  | 0x50100B => s.neighbour i (fun n => n.minor.toNat + 256 * n.major.toNat) 0
  | 0x50100C => s.neighbour i (·.fwBuild.toNat) 0
  | 0x50100D => s.neighbour i (·.node.toNat) 0
  | 0x50100E => s.neighbour i (·.epoch.toNat) 0
  | 0x50100F => s.neighbour i (·.sig.toNat) 0
  | 0x510001 => (s.link i).st
  | 0x520001 => s.ftime
  | 0x58000E => s.outstanding
  | 0x580102 => s.activeVersion
  | 0x580103 => s.tableState k
  | 0x580107 => s.resident k
  | 0x581001 => s.portDetour i
  | 0x581003 => b2n (s.detouring i)
  | 0x602010 => (s.host.sessions.filter (fun x => x.2.finished)).length
  | 0x604001 => s.host.recording.st
  | 0x700002 => s.pins.chainStrap
  | 0x801101 => resetLimits.getD k 0
  | 0x811001 => s.bundleField k 32 32
  | 0x811101 => s.bundleField k 64 32
  | 0xA00001 => leNat ((s.fuses.digests.getD k []).take 32)
  | 0xA00101 => s.fuses.revoked % 16
  | 0xA00102 => s.fuses.svn
  | 0xA00103 => s.fw.svn
  | 0xA00104 => s.fw.keySlot
  | 0xA00106 => s.pins.bootStrap
  | 0xA01001 => leNat (s.identityKey.take 57)
  | 0xA01101 => leNat ((s.deviceCert.drop (64 * k)).take 64)
  | 0x901002 => b2n ((look i s.supplies).getD Supply.fresh).stretched
  | 0xA03001 => s.challenge
  | 0x930002 | 0x930003 | 0x930004 => if bit (s.get (Key.railVr i)) 7 then s.stored (r.index + i) (r.sub + k) r.dflt else 0
  | 0x910001 => if s.dieFenced (i / 4) then 0 else s.stored (r.index + i) (r.sub + k) r.dflt
  | 0x910002 => if s.dieFenced (i / 4) then 0 else s.clusterClock i
  | 0x910003 => if s.dieFenced (i / 4) then 0 else s.stored (r.index + i) (r.sub + k) r.dflt
  | _ => s.stored (r.index + i) (r.sub + k) r.dflt

/-! ## Reading -/

/-- The 64 bytes at LOCKET_WINDOW_OFFSET of the Locket region, and the offset moved on (R494). Where the region is not readable the
bytes are free. At the end of the region the offset returns to 0 (log entry 22). -/
def State.locketWindow (s : State) : State × List Byte :=
  let n := s.get Key.locketWindowSetting
  let off := s.get Key.locketWindowOffset
  let x := s.stack n
  let r := if x.lost || !s.controllerOpen n then (s, none) else s.hbmRead n (x.locketBase + off) 64
  ((r.1.set Key.locketWindowOffset ((off + 64) % 0x4000000)).tick, r.2.getD (s.freeBytes 64))

/-- One read of an entry (R36, R463, R469): the status and the octets of the value. -/
def State.readEntry (s : State) (index sub : Nat) : State × Nat × List Byte :=
  match s.entryRow index sub with
  | none => (s, 1, [])
  | some r =>
    if r.access = 2 then (s, 2, [])
    else if 256 * index + sub = Key.locketWindowData.key then
      let x := s.locketWindow
      (x.1, 0, x.2)
    else (s, 0, leBytes r.size (s.entryNat r (index - r.index) (sub - r.sub)))

/-- LOCKET_WINDOW_DATA (R494): a read of the entry; its answer is put out. -/
def execLocketWindowData (s : State) : Host.Outcome State Fault Refusal :=
  let x := s.readEntry 0x8042 3
  .next (x.1.emit (.dict x.2.1 x.2.2))

/-! ## Reads of CTU programs (R54) -/

/-- What DRD gives: the value extended to 64 bits, or nothing where the read is refused. -/
def State.drdValue (s : State) (index sub : Nat) : Option Nat :=
  match s.entryRow index sub with
  | none => none
  | some r =>
    if r.access = 2 ∨ r.ty = 7 ∨ r.ty = 8 then none
    else
      let v := s.entryNat r (index - r.index) (sub - r.sub) % 256 ^ r.size
      some (if r.ty = 4 then unsgn 64 (sgn 32 v) else v)

/-- The lead service controller answers: rim die 0 is neither fenced nor under reset (R24, R488). -/
def State.leadAnswers (s : State) : Bool :=
  !s.packageHeld && !s.rimFenced 0 && !s.resets.any (fun j => j.domain == 5 && j.target == 0)

/-- DRD_RESULT (R54): the value returns and the context that waits for it resumes. No effect where none waits. -/
def execDrdResult (core : CoreId) (s : State) : Host.Outcome State Fault Refusal :=
  match s.physOf core.toNat with
  | none => .next s
  | some p =>
    let x := (s.core p).ctx
    match x.stall with
    | some (.drd index sub rd) =>
      if s.coreHeld p ∨ s.leadAnswers = false then .next s
      else
        let v := s.drdValue index sub
        let s1 := if v.isSome then s else s.count Key.drdRefused 1
        .next (s1.putCtx p { (x.set rd (BitVec.ofNat 64 (v.getD 0))).advance with st := .ready, stall := none })
    | _ => .next s

end Sys2Proof.Machine
end

