-- ==== Sys2Proof/Machine/Fge.lean ====
section
/-!
DEFINITION. The Filigree engine's descriptors (R186–R222).
-/
namespace Sys2Proof.Machine

/-! ## Fields (R190, R191, R197) -/

/-- A stream record (R191). -/
structure StreamRec where
  addr : Nat
  fmt  : Nat
  adv  : Nat
  ctx  : Nat
deriving DecidableEq, Repr

/-- The stream record at a bit of a descriptor. -/
def streamAt (d lo : Nat) : StreamRec :=
  { addr := fld d lo 21, fmt := fld d (lo + 21) 4, adv := fld d (lo + 25) 2, ctx := fld d (lo + 27) 8 }

/-- A stage word (R197). -/
structure StageW where
  op   : Nat
  a    : Nat
  b    : Nat
  c    : Nat
  cond : Nat
deriving DecidableEq, Repr

/-- The fields of an FGE descriptor (R190). -/
structure FgeD where
  op     : Nat
  count  : Nat
  grad   : Bool
  rowLen : Nat
  nst    : Nat
  src0   : Nat
  red0   : Nat
  src1   : Nat
  red1   : Nat
  mask   : Nat
  keys   : Nat
  scaleS : Nat
  tensor : Nat
  mb     : Nat
  gexp   : Int
  index  : Nat
  ld     : Nat
  scaleA : Nat
  ins    : List StreamRec
  out0   : StreamRec
  out1   : StreamRec
  imms   : List Nat
  stages : List StageW
deriving DecidableEq, Repr

/-- Stage word i of a descriptor. -/
def stageAt (d i : Nat) : StageW :=
  let w := fld d (768 + 32 * i) 32
  { op := fld w 0 8, a := fld w 8 5, b := fld w 13 5, c := fld w 18 5, cond := fld w 23 3 }

/-- The fields of a descriptor. -/
def FgeD.of (d : Nat) : FgeD :=
  { op := dOp d, count := fld d 128 15, grad := bit d 143, rowLen := fld d 144 15, nst := fld d 160 4,
    src0 := fld d 164 5, red0 := fld d 169 4, src1 := fld d 173 5, red1 := fld d 178 4, mask := fld d 182 5,
    keys := fld d 188 7, scaleS := fld d 195 3, tensor := fld d 200 16, mb := fld d 216 16,
    gexp := sgn 16 (fld d 232 16), index := fld d 248 48, ld := fld d 296 24, scaleA := fld d 320 21,
    ins := [streamAt d 352, streamAt d 392, streamAt d 432], out0 := streamAt d 472, out1 := streamAt d 512,
    imms := (List.range 6).map (fun j => fld d (576 + 32 * j) 32),
    stages := (List.range (min 8 (fld d 160 4))).map (stageAt d) }

/-- Input stream record k. -/
def FgeD.inp (x : FgeD) (k : Nat) : StreamRec := x.ins.getD k ⟨0, 0, 0, 0xFF⟩

/-- Immediate j. -/
def FgeD.imm (x : FgeD) (j : Nat) : Nat := x.imms.getD j 0

/-- Segment length L (R193, R194). -/
def FgeD.segLen (x : FgeD) : Nat := if x.op = 1 ∧ x.rowLen ≠ 0 then x.rowLen else x.count

/-- Bits of an element of a stream format (R192). -/
def strBits (f : Nat) : Nat :=
  match f with
  | 0 => 32
  | 1 => 16
  | 2 => 16
  | 5 => 6
  | 6 => 4
  | 8 => 32
  | 9 => 64
  | 10 => 64
  | _ => 8

/-- The lane type of an input format (R192). -/
def strTy (f : Nat) : LaneTy := if f = 7 ∨ f = 8 then .i else if f = 9 then .g else .f

/-- Block-scaled formats (R192). -/
def blockScaled (f : Nat) : Bool := f == 5 || f == 6 || f == 11

/-- Elements of a block of a block-scaled format (R192). -/
def blockLen (f : Nat) : Nat := if f = 11 then 128 else 32

/-- Bytes of a block's scale (R192). -/
def scaleBytes (f : Nat) : Nat := if f = 11 then 4 else 1

/-- Alignment of a stream address (R192). -/
def strAlign (f : Nat) : Nat := if strBits f < 8 then 1 else strBits f / 8

/-! ## Types of sources (R195, R196, R198) -/

/-- The type of a source code given the types of the stages before it: none when it may not be named; `some none` is an
immediate, which takes the type of its consumer. -/
def FgeD.srcTy (x : FgeD) (ts : List LaneTy) (code : Nat) : Option (Option LaneTy) :=
  if code ≤ 2 then some (some (strTy (x.inp code).fmt))
  else if code ≤ 5 then some (some .i)
  else if 8 ≤ code ∧ code ≤ 15 then (ts[code - 8]?).map some
  else if 16 ≤ code ∧ code ≤ 21 then some none
  else none

/-- The used source codes of a stage. -/
def StageW.srcs (w : StageW) : List Nat := [w.a, w.b, w.c].take (((opSig w.op).map (fun s => s.1.length)).getD 0)

/-- The one type that the X operands of a stage share, F where all are immediates (R196); none when they differ. -/
def anyTy (ops : List OpTy) (tys : List (Option LaneTy)) : Option LaneTy :=
  match ((ops.zip tys).filterMap (fun p => if p.1 = .any then p.2 else none)) with
  | [] => some .f
  | t :: rest => if rest.all (· == t) then some t else none

/-- The result type of a stage, or none when the stage is refused (R198, R201, R219). -/
def FgeD.stageTy (x : FgeD) (ts : List LaneTy) (w : StageW) : Option LaneTy :=
  match opSig w.op with
  | none => none
  | some (ops, res) =>
    let tys := w.srcs.map (x.srcTy ts)
    if tys.any Option.isNone then none
    else
      let ts' := tys.map (fun t => t.getD none)
      match anyTy ops ts' with
      | none => none
      | some xt =>
        let ok := (ops.zip ts').all (fun p => match p.1, p.2 with
          | .ty t, some u => t == u
          | _, _ => true)
        let cond := !(w.op == 0x18 && w.cond == 7) && !(w.op == 0x2B && decide (6 ≤ w.cond))
        if ok && cond then some (match res with | .ty t => t | .any => xt) else none

/-- The result types of the stages from those before on, or none when one is refused. -/
def FgeD.stageTys (x : FgeD) : List LaneTy → List StageW → Option (List LaneTy)
  | ts, [] => some ts
  | ts, w :: rest =>
    match x.stageTy ts w with
    | none => none
    | some t => FgeD.stageTys x (ts ++ [t]) rest

/-- The type an output format implies for an immediate (R196). -/
def fmtTy (f : Nat) : LaneTy := if f = 7 ∨ f = 8 then .i else if f = 9 then .g else .f

/-- Whether an element-wise output accepts a source type in a format (R204). -/
def pairOk (t : LaneTy) (f : Nat) : Bool :=
  match t with
  | .f => decide (f ≤ 9) || f == 11
  | .i => decide (f ≤ 4) || f == 7 || f == 8
  | .g => f == 9

/-- The paired reduction kinds (R209). -/
def pairedKind (k : Nat) : Bool := k == 9 || k == 10

/-- OUT0 is in use (R191, R216). -/
def FgeD.uses0 (x : FgeD) : Bool := x.src0 != 31 || x.op == 3

/-- OUT1 is in use (R191, R209). -/
def FgeD.uses1 (x : FgeD) : Bool :=
  x.op == 2 || (x.op == 1 && (x.src1 != 31 || (x.src0 != 31 && pairedKind x.red0)))

/-- The sources named by the outputs and the mask. -/
def FgeD.outSrcs (x : FgeD) : List Nat :=
  (if x.op = 3 then [] else [x.src0]) ++ (if x.op = 1 then [x.src1] else []) ++ [x.mask]

/-- Whether a stage, an output source or MASK_SRC names an input stream (R191). -/
def FgeD.names (x : FgeD) (k : Nat) : Bool := x.stages.any (·.srcs.contains k) || x.outSrcs.contains k

/-- Input stream k is in use (R191, R216). -/
def FgeD.usesIn (x : FgeD) (k : Nat) : Bool := x.names k || (x.op == 3 && k == 0)

/-- The type of an output's source; an immediate takes the type that the output format implies. -/
def FgeD.outTy (x : FgeD) (ts : List LaneTy) (code fmt : Nat) : Option LaneTy :=
  (x.srcTy ts code).map (fun t => t.getD (fmtTy fmt))

/-! ## Refusal (R219) -/

/-- One output of a STREAM is acceptable; the reduction kind of a disabled output is checked too (R219). -/
def FgeD.outputOk (x : FgeD) (c : Core) (ts : List LaneTy) (first : Bool) : Bool :=
  let src := if first then x.src0 else x.src1
  let red := if first then x.red0 else x.red1
  let o := if first then x.out0 else x.out1
  if src = 31 then decide (red ≤ 11) && !pairedKind red
  else
    match x.outTy ts src o.fmt with
    | none => false
    | some t =>
      o.adv == 0
        && (if red = 0 then pairOk t o.fmt && !(blockScaled o.fmt && (x.grad || x.mask != 31))
              && (o.ctx == 0xFF || (t == .f && o.fmt != 9 && c.ctxOk o.ctx))
            else redTakes red t && o.fmt == redFmt red t && o.ctx == 0xFF
              && (!pairedKind red || (first && x.src1 == 31 && x.out1.fmt == 0 && x.out1.adv == 0 && x.out1.ctx == 0xFF)))

/-- The output of a COMPRESS or EXPAND is acceptable, given the type of its values. -/
def FgeD.listOk (x : FgeD) (c : Core) (t : LaneTy) : Bool :=
  x.out0.adv == 0 && pairOk t x.out0.fmt && !blockScaled x.out0.fmt
    && (x.out0.ctx == 0xFF || (t == .f && x.out0.fmt != 9 && c.ctxOk x.out0.ctx))

/-- The streams in use as (number in SCALE_STREAM's numbering, record). -/
def FgeD.used (x : FgeD) : List (Nat × StreamRec) :=
  ((List.range 3).filter x.usesIn).map (fun k => (k, x.inp k))
    ++ (if x.uses0 then [(3, x.out0)] else []) ++ (if x.uses1 then [(4, x.out1)] else [])

/-- A STREAM, COMPRESS or EXPAND holds no reserved value (R219, cause 0x02). -/
def FgeD.legal (x : FgeD) (c : Core) : Bool :=
  decide (1 ≤ x.count) && decide (x.count ≤ 16384) && decide (x.rowLen ≤ 16384) && (x.op == 1 || x.rowLen != 0)
    && decide (x.nst ≤ 8) && decide (x.keys ≤ 64) && (x.op != 1 || x.keys == 0) && x.scaleS != 5 && x.scaleS != 6
    && (x.op == 1 || x.mask != 31) && !(x.op == 1 && x.src0 == 31 && x.src1 == 31)
    && (x.op != 2 || (x.red0 == 0 && x.red1 == 0))
    && x.used.all (fun u => decide (u.2.fmt ≤ 11) && !(decide (3 ≤ u.1) && u.2.fmt == 10)
      && (!blockScaled u.2.fmt || (x.scaleS == u.1 && u.2.adv == 0)))
    && (x.scaleS == 7 || x.used.any (fun u => u.1 == x.scaleS && blockScaled u.2.fmt))
    && ((List.range 3).filter x.usesIn).all (fun k => (x.inp k).ctx == 0xFF
      || (strTy (x.inp k).fmt == .f && c.ctxOk (x.inp k).ctx))
    && (match x.stageTys [] x.stages with
        | none => false
        | some ts =>
          (x.mask == 31 || (match x.srcTy ts x.mask with
            | some (some t) => t == .i
            | some none => true
            | none => false))
          && (if x.op = 1 then x.outputOk c ts true && x.outputOk c ts false
              else if x.op = 2 then
                (x.src0 == 31 || (match x.outTy ts x.src0 x.out0.fmt with | some t => x.listOk c t | none => false))
                  && x.out1.fmt == 8 && x.out1.adv == 0 && x.out1.ctx == 0xFF
              else x.listOk c (strTy (x.inp 0).fmt) && (x.inp 0).adv == 0 && !x.names 0))

/-- Elements of an input in range (R193, R216). -/
def FgeD.inCount (x : FgeD) (k : Nat) : Nat :=
  let l := x.segLen
  if x.op = 3 ∧ k = 0 then max 1 x.keys * x.rowLen
  else
    match (x.inp k).adv with
    | 0 => x.count
    | 1 => ceilDiv x.count l
    | 2 => 1
    | _ => min l x.count

/-- Elements an output writes at most (R209, R215, R216). -/
def FgeD.outCount (x : FgeD) (first : Bool) : Nat :=
  if x.op = 1 then
    (if (if first then x.red0 else if x.src1 = 31 then 1 else x.red1) = 0 then x.count else ceilDiv x.count x.segLen)
  else if x.op = 2 then (if first then max 1 x.keys * x.rowLen else max 1 x.keys)
  else x.count

/-- A stream's range ends in the scratchpad and its address is aligned (R192, R219). -/
def strRange (r : StreamRec) (n : Nat) : Bool :=
  decide (r.addr % strAlign r.fmt = 0) && spRange r.addr (ceilDiv (n * strBits r.fmt) 8)

/-- Every range and address of a STREAM, COMPRESS or EXPAND is good (R219, cause 0x03). -/
def FgeD.rangesOk (x : FgeD) : Bool :=
  ((List.range 3).filter x.usesIn).all (fun k => strRange (x.inp k) (x.inCount k))
    && (!x.uses0 || strRange x.out0 (x.outCount true)) && (!x.uses1 || strRange x.out1 (x.outCount false))
    && x.used.all (fun u => u.1 != x.scaleS ||
      spRange x.scaleA (scaleBytes u.2.fmt * ceilDiv (if u.1 < 3 then x.inCount u.1 else x.count) (blockLen u.2.fmt)))

/-! ## Input (R193, R203) -/

/-- Element number `i` of stream record `r` as the chain sees it (R203); `idx` is its place in the stream. -/
def FgeD.readElem (x : FgeD) (c : Core) (r : StreamRec) (idx : Nat) : LaneV :=
  let w := c.sp.bits (8 * r.addr + idx * strBits r.fmt) (strBits r.fmt)
  match strTy r.fmt with
  | .i => .i (if r.fmt = 7 then unsgn 32 (sgn 8 w) else w)
  | .g => .g (sgn 64 w)
  | .f =>
    let v :=
      if r.fmt = 10 then grainValue (sgn 64 w) x.gexp
      else if r.fmt = 11 then rna32 ((fE4M3.decode w).mul (ofFp32 (c.sp.num (x.scaleA + 4 * (idx / 128)) 4)))
      else if r.fmt = 5 ∨ r.fmt = 6 then rna32 ((opValue r.fmt w).mul (e8m0 (c.sp.read (x.scaleA + idx / 32)).toNat))
      else opValue r.fmt w
    .f (if r.ctx = 0xFF then v else rna32 (v.mul (c.dequant r.ctx)))

/-- The place in its stream from which element i of input k is read (R193). -/
def FgeD.inIndex (x : FgeD) (k i : Nat) : Nat :=
  match (x.inp k).adv with
  | 0 => i
  | 1 => i / x.segLen
  | 2 => 0
  | _ => i % x.segLen

/-- A source's value for element i, given the results of the stages before (R195); immediates as type `t`. -/
def FgeD.source (x : FgeD) (c : Core) (rs : List (Array LaneV)) (t : LaneTy) (code i : Nat) : LaneV :=
  if code ≤ 2 then x.readElem c (x.inp code) (x.inIndex code i)
  else if code = 3 then .i (i % 2 ^ 32)
  else if code = 4 then .i (i % x.segLen)
  else if code = 5 then .i (i / x.segLen)
  else if code ≤ 15 then ((rs.getD (code - 8) #[]).getD i (.i 0))
  else immLane t (x.imm (code - 16))

/-! ## The chain -/

/-- The results of the stages so far with the counts (NaN and saturations of CVTI, GADD overflows, lanes out of range). -/
structure Chain8 where
  res  : List (Array LaneV)
  tys  : List LaneTy
  nonf : Nat
  sat  : Nat
  ovf  : Nat
  lane : Nat

/-- One stage over all elements (R198, R208). -/
def FgeD.runStage (x : FgeD) (c : Core) (h : Chain8) (w : StageW) : Chain8 :=
  let sig := (opSig w.op).getD ([], .ty .f)
  let tys := w.srcs.map (fun code => (x.srcTy h.tys code).getD none)
  let xt := (anyTy sig.1 tys).getD .f
  let opnd (n code i : Nat) : LaneV :=
    x.source c h.res (match sig.1.getD n .any with | .ty t => t | .any => xt) code i
  let rt := match sig.2 with | .ty t => t | .any => xt
  if w.op = 0x30 then
    let a : Array LaneV := ((List.range x.count).map (opnd 0 w.a)).toArray
    let out := (List.range x.count).map (fun i =>
      let b := (opnd 1 w.b i).word
      if b < min 64 (x.count - 64 * (i / 64)) then (a.getD (64 * (i / 64) + b) (laneZero rt), 0) else (laneZero rt, 1))
    { h with res := h.res ++ [(out.map Prod.fst).toArray], tys := h.tys ++ [rt],
             lane := out.foldl (fun n o => n + o.2) h.lane }
  else
    let out := (List.range x.count).map (fun i => stageElem w.op w.cond (opnd 0 w.a i) (opnd 1 w.b i) (opnd 2 w.c i))
    { h with res := h.res ++ [(out.map Stepped.v).toArray], tys := h.tys ++ [rt],
             nonf := out.foldl (fun n o => n + o.nonf) h.nonf, sat := out.foldl (fun n o => n + o.sat) h.sat,
             ovf := out.foldl (fun n o => n + o.ovf) h.ovf }

/-- The whole chain. -/
def FgeD.runChain (x : FgeD) (c : Core) : Chain8 :=
  x.stages.foldl (x.runStage c) { res := [], tys := [], nonf := 0, sat := 0, ovf := 0, lane := 0 }

/-! ## Output (R204–R206) -/

/-- A converted output element: its pattern, |v| as an FP32 pattern, and what it counts. -/
structure OutV where
  code : Nat
  mag  : Nat
  sat  : Nat
  nonf : Nat
  gnon : Nat
  govf : Nat
  srs  : Nat

/-- The element linear index of element i (R194). -/
def FgeD.linear (x : FgeD) (i : Nat) : Nat := (x.index + i / x.segLen * x.ld + i % x.segLen) % 2 ^ 48

/-- The conversion of one element-wise output value into a format that is not block-scaled (R204). `r` is the rounding
generator's output and `q` the stream's quantisation factor. -/
def FgeD.convOut (x : FgeD) (f : Nat) (q : Num) (r : Nat) (v : LaneV) : OutV :=
  match v with
  | .g g => { code := unsgn 64 g, mag := 0, sat := 0, nonf := 0, gnon := 0, govf := 0, srs := 0 }
  | .i w =>
    let cv : Conv :=
      if f = 8 then ⟨w, false, false⟩ else if f = 7 then toInteger 8 .rna (Num.ofInt (sgn 32 w))
      else (outFormat f).convert .rna (Num.ofInt (sgn 32 w))
    { code := cv.code, mag := 0, sat := b2n cv.sat, nonf := b2n cv.nonf, gnon := 0, govf := 0, srs := 0 }
  | .f y =>
    let mag := fp32 y.abs
    if f = 9 then
      let g := toGrain y x.gexp r
      { code := unsgn 64 g.1, mag := mag, sat := 0, nonf := 0, gnon := b2n g.2.1, govf := b2n g.2.2, srs := 1 }
    else
      let sr := x.grad && f != 0 && f != 8
      let md := if sr then Round.sr r else Round.rna
      let w := y.mul q
      let cv := if f = 7 then toInteger 8 md w else if f = 8 then toInteger 32 .rna w else (outFormat f).convert md w
      { code := cv.code, mag := mag, sat := b2n cv.sat, nonf := b2n cv.nonf, gnon := 0, govf := 0, srs := b2n sr }

/-- The bytes of packed codes at an address, the bits of the last byte beyond them kept (R205). -/
def packBytes (m : Mem) (addr bits : Nat) (codes : List Nat) : List Byte :=
  let n := codes.length * bits
  let v := codes.foldr (fun c acc => c + 2 ^ bits * acc) 0
  let keep := if n % 8 = 0 then 0 else (m.read (addr + n / 8)).toNat / 2 ^ (n % 8)
  leBytes (ceilDiv n 8) (v + 2 ^ n * keep)

/-- What an output stream writes, the elements' magnitudes and counts. -/
structure OutS where
  writes : List (Nat × List Byte)
  elems  : List OutV

/-- The rounding generator's output for element i (R204). -/
def FgeD.rand (x : FgeD) (seed step i : Nat) : Nat := rgen seed step x.tensor x.mb (x.linear i)

/-- An element-wise output of a STREAM (R204, R205, R210): present elements only. -/
def FgeD.elemOut (x : FgeD) (c : Core) (seed : Nat) (o : StreamRec) (vals : List (Option LaneV)) : OutS :=
  let q := c.quant o.ctx
  if blockScaled o.fmt then
    let ws := vals.map (fun v => ((v.getD (.f Num.zero)).num))
    let blocks := (runsOf (blockLen o.fmt) (ws.map (·.mul q))).map
      (fun b => if o.fmt = 11 then e4m3Encode b else mxEncode (if o.fmt = 5 then fE3M2 else fE2M1) b)
    let convs := (blocks.map Prod.snd).flatten
    { writes := (o.addr, packBytes c.sp o.addr (strBits o.fmt) (convs.map Conv.code))
        :: (blocks.zipIdx.map (fun b => (x.scaleA + scaleBytes o.fmt * b.2, leBytes (scaleBytes o.fmt) b.1.1))),
      elems := List.zipWith (fun w cv => { code := cv.code, mag := fp32 w.abs, sat := b2n cv.sat, nonf := b2n cv.nonf,
                                           gnon := 0, govf := 0, srs := 0 }) ws convs }
  else
    let outs := vals.zipIdx.filterMap (fun v => v.1.map (fun y =>
      (v.2, x.convOut o.fmt q (x.rand seed c.rstep v.2) y)))
    { writes := outs.map (fun e => (o.addr + e.1 * (strBits o.fmt / 8), leBytes (strBits o.fmt / 8) e.2.code)),
      elems := outs.map Prod.snd }

/-- The pattern of a reduction's result. -/
def laneCode : LaneV → Nat
  | .f y => fp32 y
  | .i w => w
  | .g g => unsgn 64 g

/-- A reduction output of a STREAM (R209–R214), with the second stream of a paired kind. -/
def FgeD.redOut (x : FgeD) (kind : Nat) (t : LaneTy) (o : StreamRec) (vals : List (Option LaneV)) : OutS :=
  let rs := (runsOf x.segLen vals).map (reduceSeg kind t (ofFp32 (x.imm 5)))
  let s := strBits o.fmt / 8
  { writes := rs.zipIdx.flatMap (fun r => (o.addr + r.2 * s, leBytes s (laneCode r.1.1))
      :: (if pairedKind kind then [(x.out1.addr + r.2 * 4, leBytes 4 (laneCode r.1.2))] else [])),
    elems := [] }

/-- The counts of a descriptor's output and chain (R202, R204, R208, R222). -/
def fgeCounts (n : Nat) (x : FgeD) (h : Chain8) (es : List OutV) : List (Ent × Nat) :=
  let sum (f : OutV → Nat) : Nat := es.foldl (fun a e => a + f e) 0
  [(Key.fgeElements n, x.count), (Key.fgeLaneRange n, h.lane), (Key.fgeSaturatedOut n, h.sat + sum OutV.sat),
   (Key.nonfiniteFinite n, h.nonf + sum OutV.nonf), (Key.fgeNonfiniteOut n, sum OutV.gnon),
   (Key.fgeGrainOverflow n, h.ovf + sum OutV.govf), (Key.srConversions n, sum OutV.srs)]

/-- The context update of an output stream (R206). -/
def ctxUpOf (c : Core) (o : StreamRec) (es : List OutV) : List (Nat × Nat × Nat × Nat) :=
  if o.ctx = 0xFF then []
  else [(o.ctx, es.foldl (fun m e => maxPattern m e.mag) 0, es.foldl (fun a e => a + e.sat) 0, c.rstep)]

/-- The values of a source over all elements; an immediate as type `t`. -/
def FgeD.values (x : FgeD) (c : Core) (h : Chain8) (t : LaneTy) (code : Nat) : List LaneV :=
  (List.range x.count).map (x.source c h.res t code)

/-- Which elements the mask leaves present (R210). -/
def FgeD.masked (x : FgeD) (c : Core) (h : Chain8) (vals : List LaneV) : List (Option LaneV) :=
  if x.mask = 31 then vals.map some
  else List.zipWith (fun m v => if LaneV.word m ≠ 0 then some v else none) (x.values c h .i x.mask) vals

/-- One output of a STREAM. -/
def FgeD.streamOut (x : FgeD) (c : Core) (h : Chain8) (seed src red : Nat) (o : StreamRec) : OutS :=
  if src = 31 then { writes := [], elems := [] }
  else
    let t := (x.outTy h.tys src o.fmt).getD .f
    let vals := x.masked c h (x.values c h t src)
    if red = 0 then x.elemOut c seed o vals else x.redOut red t o vals

/-- The list that each element is selected into (R215, R216): none for an element not selected. -/
def FgeD.selected (x : FgeD) (c : Core) (h : Chain8) : List (Option Nat) :=
  (x.values c h .i x.mask).map (fun k =>
    if x.keys = 0 then (if k.word ≠ 0 then some 0 else none)
    else if 0 ≤ k.int ∧ k.int < (x.keys : Int) then some k.int.toNat else none)

/-- The selected elements as (element, list, position in the list), in order of elements. -/
def positions : List Nat → List (Option Nat × Nat) → List (Nat × Nat × Nat)
  | _, [] => []
  | seen, (none, _) :: t => positions seen t
  | seen, (some k, i) :: t => (i, k, seen.count k) :: positions (k :: seen) t

/-- What a STREAM makes visible (R189, R221). Where outputs overlap R42 leaves open whose byte stays: OUT0 is written before OUT1, in a COMPRESS
the list before the counts, and elements before their scales: DESIGN CHOICE (log entry 55). -/
def FgeD.runStream (x : FgeD) (c : Core) (n seed d : Nat) : Started :=
  let h := x.runChain c
  let o0 := x.streamOut c h seed x.src0 x.red0 x.out0
  let o1 := x.streamOut c h seed x.src1 x.red1 x.out1
  { Started.plain d with
    writes := o0.writes ++ o1.writes,
    ctxUps := (if x.src0 = 31 ∨ x.red0 ≠ 0 then [] else ctxUpOf c x.out0 o0.elems)
      ++ (if x.src1 = 31 ∨ x.red1 ≠ 0 then [] else ctxUpOf c x.out1 o1.elems),
    counts := fgeCounts n x h (o0.elems ++ o1.elems) }

/-- What a COMPRESS makes visible (R215). -/
def FgeD.runCompress (x : FgeD) (c : Core) (n seed d : Nat) : Started :=
  let h := x.runChain c
  let sel := x.selected c h
  let pos := positions [] sel.zipIdx
  let t := (x.outTy h.tys x.src0 x.out0.fmt).getD .f
  let vals := (x.values c h t x.src0).toArray
  let s := strBits x.out0.fmt / 8
  let kept := if x.src0 = 31 then [] else pos.filter (fun e => decide (e.2.2 < x.rowLen))
  let outs := kept.map (fun e =>
    (x.out0.addr + (e.2.1 * x.rowLen + e.2.2) * s,
     x.convOut x.out0.fmt (c.quant x.out0.ctx) (x.rand seed c.rstep e.1) (vals.getD e.1 (laneZero t))))
  let counts := (List.range (max 1 x.keys)).map (fun k => (sel.filter (· == some k)).length)
  { Started.plain d with
    writes := outs.map (fun o => (o.1, leBytes s o.2.code))
      ++ counts.zipIdx.map (fun k => (x.out1.addr + 4 * k.2, leBytes 4 k.1)),
    ctxUps := if x.src0 = 31 then [] else ctxUpOf c x.out0 (outs.map Prod.snd),
    counts := fgeCounts n x h (outs.map Prod.snd)
      ++ [(Key.fgeCompressOverflow n, (pos.filter (fun e => decide (x.rowLen ≤ e.2.2))).length)] }

/-- What an EXPAND makes visible (R216). -/
def FgeD.runExpand (x : FgeD) (c : Core) (n seed d : Nat) : Started :=
  let h := x.runChain c
  let pos := positions [] (x.selected c h).zipIdx
  let s := strBits x.out0.fmt / 8
  let outs := (pos.filter (fun e => decide (e.2.2 < x.rowLen))).map (fun e =>
    (x.out0.addr + e.1 * s,
     x.convOut x.out0.fmt (c.quant x.out0.ctx) (x.rand seed c.rstep e.1)
       (x.readElem c (x.inp 0) (e.2.1 * x.rowLen + e.2.2))))
  { Started.plain d with
    writes := outs.map (fun o => (o.1, leBytes s o.2.code)),
    ctxUps := ctxUpOf c x.out0 (outs.map Prod.snd),
    counts := fgeCounts n x h (outs.map Prod.snd)
      ++ [(Key.fgeExpandOverflow n, (pos.filter (fun e => decide (x.rowLen ≤ e.2.2))).length)] }

/-! ## The descriptors -/

/-- A STREAM, COMPRESS or EXPAND starts: refused under R219, or run. Its busy clocks are a free amount (log entry 6). -/
def fgeRun (run : FgeD → Core → Nat → Nat → Nat → Started) (p d : Nat) (s : State) : State :=
  let x := FgeD.of d
  let c := s.core p
  if !x.legal c then s.engineStop p 1 2 d
  else if !x.rangesOk then s.engineStop p 1 3 d
  else
    let r := run x c (physCluster p) (s.roundKey p) d
    (s.addStarted p 1 { r with counts := r.counts ++ [(Key.fgeBusyClocks (physCluster p), s.free)] }).tick

/-- STREAM (R189–R214). -/
def execFgeStream (core : CoreId) (s : State) : Host.Outcome State Fault Refusal :=
  startOp core s 1 1 (fgeRun FgeD.runStream)

/-- COMPRESS (R215). -/
def execFgeCompress (core : CoreId) (s : State) : Host.Outcome State Fault Refusal :=
  startOp core s 1 2 (fgeRun FgeD.runCompress)

/-- EXPAND (R216, R217). -/
def execFgeExpand (core : CoreId) (s : State) : Host.Outcome State Fault Refusal :=
  startOp core s 1 3 (fgeRun FgeD.runExpand)

/-- FGE NOP (R189): completes at once. -/
def execFgeNop (core : CoreId) (s : State) : Host.Outcome State Fault Refusal :=
  startOp core s 1 0 fun p d s => s.finishNow p 1 d

/-- A started descriptor that no later one may overtake (R218). -/
def Started.aloneFor (d : Nat) : Started := { Started.plain d with alone := true }

/-- CTX_LOAD (R151, R218, R219). -/
def execCtxLoad (core : CoreId) (s : State) : Host.Outcome State Fault Refusal :=
  startOp core s 1 8 fun p d s =>
    let r := streamAt d 352
    let rec1 := (s.core p).sp.num r.addr 128
    if 64 ≤ r.ctx then s.engineStop p 1 2 d
    else if !blockOk r.addr 128 then s.engineStop p 1 3 d
    else if bit rec1 0 && !(scaleOfRecord rec1).legal then s.engineStop p 1 2 d
    else (s.updCore p (·.setScale r.ctx (scaleOfRecord rec1))).addStarted p 1 (Started.aloneFor d)

/-- CTX_STORE (R151, R218, R219). -/
def execCtxStore (core : CoreId) (s : State) : Host.Outcome State Fault Refusal :=
  startOp core s 1 9 fun p d s =>
    let r := streamAt d 352
    if 64 ≤ r.ctx then s.engineStop p 1 2 d
    else if !blockOk r.addr 128 then s.engineStop p 1 3 d
    else s.addStarted p 1 { Started.aloneFor d with
      writes := [(r.addr, leBytes 128 ((s.core p).scale r.ctx).record)] }

/-- CTX_ROLL (R153, R218). -/
def execCtxRoll (core : CoreId) (s : State) : Host.Outcome State Fault Refusal :=
  startOp core s 1 0x0A fun p d s =>
    let k := (streamAt d 352).ctx
    if 64 ≤ k then s.engineStop p 1 2 d
    else
      let r := ((s.core p).scale k).roll
      (((s.updCore p (·.setScale k r.1)).count (Key.ctxRolls (physCluster p)) 1).count (Key.rollNonfinite (physCluster p)) (b2n r.2)).addStarted
        p 1 (Started.aloneFor d)

/-- SET_STEP (R146, R218): the rounding step becomes IMM0. -/
def execSetStep (core : CoreId) (s : State) : Host.Outcome State Fault Refusal :=
  startOp core s 1 0x0B fun p d s =>
    (s.updCore p (fun c => { c with rstep := fld d 576 32 })).addStarted p 1 (Started.aloneFor d)

/-- An FGE descriptor completes (R221). -/
def execFgeDescComplete (core : CoreId) (s : State) : Host.Outcome State Fault Refusal :=
  completeOp core s 1

end Sys2Proof.Machine
end

