-- ==== Sys2Proof/Machine/Session.lean ====
section
/-!
DEFINITION. The input rings (R445), the loss of a session (R446), and the parts of requests that have landed (R440).
-/
namespace Sys2Proof.Machine

/-! ## Ranges landed (R440) -/

/-- Ranges as (first, bytes), kept by rising first byte. -/
def insertRange (a n : Nat) : List (Nat × Nat) → List (Nat × Nat)
  | [] => [(a, n)]
  | (b, m) :: t => if a < b then (a, n) :: (b, m) :: t else (b, m) :: insertRange a n t

/-- The gaps of [lo, hi) that ranges by rising first byte leave, as (first, bytes). -/
def gapsOf (hi : Nat) : Nat → List (Nat × Nat) → List (Nat × Nat)
  | lo, [] => if lo < hi then [(lo, hi - lo)] else []
  | lo, (a, n) :: t =>
    if lo < a then (lo, min a hi - lo) :: gapsOf hi (max lo (a + n)) t else gapsOf hi (max lo (a + n)) t

/-- The bytes of [0, hi) that ranges cover. -/
def coveredBytes (hi : Nat) (rs : List (Nat × Nat)) : Nat := hi - (gapsOf hi 0 rs).foldl (fun n g => n + g.2) 0

/-! ## Request records (R438, R439) -/

def qId (r : Nat) : Nat := fld r 0 32
def qOp (r : Nat) : Nat := fld r 32 8
def qFlush (r : Nat) : Bool := bit r 40
def qAddr (r : Nat) : Nat := fld r 64 40
def qLen (r : Nat) : Nat := fld r 128 32
def qRing (r : Nat) : Nat := fld r 64 6

/-! ## Input rings (R445) -/

/-- An input ring that RING_CONFIG has not enabled. -/
def Ring.fresh : Ring :=
  { enabled := false, base := 0, entryLog2 := 0, countLog2 := 0, core := 0, ctr := 0, produced := 0, claims := [] }

/-- A ring of the host port. -/
def State.ring (s : State) (n : Nat) : Ring := (look n s.host.rings).getD Ring.fresh

/-- The state with a ring replaced. -/
def State.setRing (s : State) (n : Nat) (x : Ring) : State := s.updHost (fun h => { h with rings := put n x h.rings })

/-- The device address of entry `j`. -/
def Ring.entryAddr (x : Ring) (j : Nat) : Nat := x.base + 64 + j % 2 ^ x.countLog2 * 2 ^ x.entryLog2

/-- The host port as a writer of memory (R320, R444). -/
def State.hostWho (s : State) : Nat := 65536 * s.node + 0x2300

/-- Bytes written to a device address by the host port. -/
def State.hostWrite (s : State) (a : Nat) (bs : List Byte) : State := s.hbmWrite (devSetting a) s.hostWho (devOffset a) bs

/-- A counter of a logical core signalled by the host port; a core under reset does not take the increment (R480). -/
def State.hostSignal (s : State) (lc ctr n : Nat) : State :=
  match s.physOf lc with
  | some p => if s.coreHeld p then s else s.incCtr p ctr n
  | none => s

/-- PRODUCED advances over the complete entries that follow it in claim order, is written, and CTR is signalled (R445). -/
def State.publishRing (s : State) (n : Nat) : State :=
  let x := s.ring n
  let k := (x.claims.takeWhile (·.2)).length
  if k = 0 then s
  else
    let v := (x.produced + k) % 2 ^ 64
    ((s.setRing n { x with produced := v, claims := x.claims.drop k }).hostWrite x.base (leBytes 8 v)).hostSignal x.core x.ctr k

/-- A claimed entry is complete. -/
def State.completeClaim (s : State) (n claim : Nat) : State :=
  let x := s.ring n
  (s.setRing n { x with claims := x.claims.map (fun c => if c.1 = claim then (c.1, true) else c) }).publishRing n

/-! ## Session loss (R446) -/

/-- The session number of work whose session is gone: replies to it are discarded. -/
def lostSession : Nat := 512

/-- The end of one request of a lost session. -/
def State.loseReq (s : State) (r : HostReq) : State :=
  let drop := fun (a : Nat) => (gapsOf (qLen r.record) 0 r.landed).foldl (fun s g => s.devUndef (a + g.1) g.2) s
  match qOp r.record with
  | 1 => drop (qAddr r.record)
  | 9 =>
    let n := qRing r.record
    match r.claim with
    | some j => ((drop ((s.ring n).entryAddr j)).count Key.ringAbandoned 1).completeClaim n j
    | none => s
  | 5 => s.updHost (fun h => { h with reqs := h.reqs ++ [{ r with session := lostSession }] })
  | 8 => s.updHost (fun h => { h with reqs := h.reqs ++ [{ r with session := lostSession }] })
  | _ => s

/-- A session is lost: its work ends as R446 gives, and its queues are released. A loss by CLOSE does not count. -/
def State.loseSession (s : State) (n : Nat) (counted : Bool) : State :=
  let mine := s.host.reqs.filter (fun r => r.session == n)
  let gone := fun (op : Nat) => if op / 2 ^ 32 = n then lostSession * 2 ^ 32 + op % 2 ^ 32 else op
  let s1 := s.updHost (fun h => { h with
    sessions := drop' n h.sessions, reqs := h.reqs.filter (fun r => r.session != n),
    cmdqs := h.cmdqs.filter (fun q => q.2.session != n),
    replay := h.replay.map (fun r => if r.session = n then { r with session := lostSession } else r) })
  let s2 := { s1 with msgs := s1.msgs.map (fun m =>
    if 65536 ≤ m.2.owner then (m.1, { m.2 with opNo := gone m.2.opNo }) else m) }
  let s3 := mine.foldl State.loseReq s2
  if counted then s3.count Key.chpSessionsLost 1 else s3

/-- Every session is lost (R446, R447); one that has not finished its handshake only ends. -/
def State.loseAll (s : State) : State := s.host.sessions.foldl (fun s x => s.loseSession x.1 x.2.finished) s

end Sys2Proof.Machine
end

