-- ==== Sys2Proof/Machine/Reset.lean ====
section
/-!
DEFINITION. Resets (R477–R497): the domains and what each resets, requests and their merging, escalation and fencing, and the
watchdogs.
-/
namespace Sys2Proof.Machine

/-! ## Domains (R478) -/

/-- A reset domain: its code (R485), the engine for an engine reset, and its target, a core by its physical number. -/
abbrev Domain := Nat × Nat × Nat

/-- The domain of a reset in progress. -/
def ResetJob.dom (j : ResetJob) : Domain := (j.domain, j.engine, j.target)

/-- The physical cores of a domain within one setting, as first and count. -/
def domCores (d : Domain) : Nat × Nat :=
  match d.1 with
  | 0 => (d.2.2, 1)
  | 1 => (d.2.2, 1)
  | 2 => (17 * d.2.2, 17)
  | 3 => (68 * d.2.2, 68)
  | 4 => (204 * d.2.2, 204)
  | _ => (0, 0)

/-- A physical core lies in a domain that holds cores. -/
def inDomain (d : Domain) (p : Nat) : Bool :=
  decide (6 ≤ d.1) || (decide ((domCores d).1 ≤ p) && decide (p < (domCores d).1 + (domCores d).2))

/-- Domain `a` contains domain `b`, or is it. -/
def domCovers (a b : Domain) : Bool :=
  match a.1 with
  | 7 => true
  | 6 => b.1 != 7
  | 5 => b.1 == 5 && a.2.2 == b.2.2
  | 0 => a == b
  | _ => decide (b.1 < 5) && decide ((domCores a).1 ≤ (domCores b).1)
      && decide ((domCores b).1 + (domCores b).2 ≤ (domCores a).1 + (domCores a).2)

/-- Two domains share a unit. -/
def domOverlap (a b : Domain) : Bool := domCovers a b || domCovers b a

/-- The domain lies in a fenced unit, which is held in reset (R488). -/
def State.domFenced (s : State) (d : Domain) : Bool :=
  match d.1 with
  | 5 => s.rimFenced d.2.2
  | 4 => s.settingFenced d.2.2
  | 6 => false
  | 7 => false
  | _ => s.dieFenced ((domCores d).1 / 68)

/-! ## Cores and engines (R96, R224, R478, R479) -/

/-- A reset MXE: its queue, started descriptors, stop, banks and staging buffers (R96, R479). -/
def Core.resetMxe (c : Core) : Core := { c with mxe := Engine.fresh, banks := [], stageA := none, stageB := none }

/-- A reset FGE (R479). -/
def Core.resetFge (c : Core) : Core := { c with fge := Engine.fresh }

/-- The collectives of a core leave their contexts and fail at their peers, a GROUP_FORM among them clearing its group (R413), and its
exchanges in progress end for the sequencer (R479); one that the window holds is not in progress (R270). -/
def State.dropColls (s : State) (p : Nat) : State :=
  let mine := s.colls.filter (fun c => c.2.owner == p)
  let s1 := mine.foldl (fun s x =>
    let t := (s.sendAborts x.1 x.2).releaseColl x.1 x.2
    if x.2.op = 0x30 then (t.clearGroup x.2.axis).announce t else t) s
  let runs := fun (o : MseOp) => match o.kind with
    | .ctxHeld => true
    | .coll _ => true
    | _ => false
  let ended := ((s.core p).ops.filter (fun o => dOp o.desc == 0x23 && runs o)).map (fun o => uId o.desc % 256)
  { s1 with seq := { s1.seq with run := s1.seq.run.filter (fun b => !ended.contains b) } }

/-- A reset MSE (R479): its queue and started descriptors, its messages and its collectives; the lanes keep their pointers. -/
def State.resetMse (s : State) (p : Nat) : State :=
  let s1 := s.dropColls p
  let s2 := (s1.msgs.filter (fun m => m.2.owner == p)).foldl (fun s m => s.closeMsg m.1) s1
  s2.updCore p (fun c => { c with mse := Engine.fresh, ops := [] })

/-- A core as a core reset leaves it: only its scratchpad and its instruction buffer keep their contents (R478). -/
def Core.resetAll (c : Core) : Core := { Core.fresh with sp := c.sp, ibuf := c.ibuf }

/-- The slots that arriving messages have claimed in a reset core are gone, with their contexts. -/
def State.dropClaims (s : State) (p : Nat) : State :=
  { s with reorders := s.reorders.filter (fun c => !(c.slot.isSome && s.physOf c.destEp == some p)) }

/-- A core reset (R478). -/
def State.resetCore (s : State) (p : Nat) : State := ((s.resetMse p).dropClaims p).updCore p Core.resetAll

/-- The cores of a domain that are not in their reset state already. -/
def State.coresIn (s : State) (d : Domain) : List Nat := (s.cores.map Prod.fst).filter (inDomain d)

/-- Tests of cores in a domain are abandoned: the core becomes its cluster's next target and has not passed (R505). -/
def State.abandonTests (s : State) (d : Domain) : State :=
  let hit := fun (t : HallTest) => inDomain d (17 * t.cluster + t.core)
  (s.hall.tests.filter (fun t => hit t && !t.quick)).foldl (fun s t =>
    (({ s with hall := { s.hall with passed := s.hall.passed.filter (· != 17 * t.cluster + t.core),
                                     last := put t.cluster ((t.core + 16) % 17) s.hall.last } }).noteTarget t.cluster).count
      (Key.hallmarkAbandoned t.cluster) 1) { s with hall := { s.hall with tests := s.hall.tests.filter (fun t => !hit t) } }

/-- Swaps out of a domain's cores end: the logical core stays where it is (R508). -/
def State.abandonSwaps (s : State) (d : Domain) : State :=
  { s with swaps := s.swaps.filter (fun w => !(inDomain d w.fromPhy || inDomain d w.toPhy || w.copy.any (fun c => inDomain d c.1 || inDomain d c.2))) }

/-! ## The setting (R305, R332, R333) -/

/-- The controller of a setting stops; its stack enters self-refresh and its buffer is discarded (R332, R333). -/
def State.stopStack (s : State) (n : Nat) : State :=
  let x := s.stack n
  (s.setStack n { x with wcb := [], accepting := false, training := true }).count (Key.hbmWcbDiscarded n) x.wcb.length

/-- A Troy unit is reset (R305): a running UPDATE is interrupted; the queue, the slots, the tables and the COMMITs held there are lost.
Of a running LEDGER_SET a free number of its entries, in their order, has reached HBM: DESIGN CHOICE (log entry 17). -/
def State.stopTroy (s : State) (n : Nat) : State :=
  let t := s.troy n
  let s1 := match t.running, t.queue with
    | some 0, r :: _ =>
      if tCmd r = 1 then s.troyInterrupted n r
      else if tCmd r = 3 then s.tick.ledgerFirst n r (s.free % (troyBlocks r + 1))
      else s.tick
    | _, _ => s
  { s1 with troys := drop' n s1.troys, commits := s1.commits.filter (fun c => c.setting != n) }

/-- The scratchpad and the instruction buffer of a core become undefined (R478). -/
def State.loseMemories (s : State) (p : Nat) : State :=
  (s.updCore p (fun c => { c with sp := s.undefMem, ibuf := s.tick.undefMem })).tick.tick

/-- What a setting reset does beyond the reset of its cores (R478). -/
def State.resetSetting (s : State) (n : Nat) : State :=
  (((List.range 204).map (204 * n + ·)).foldl State.loseMemories ((s.stopTroy n).stopStack n))

/-! ## The rim die (R346, R355, R414, R478, R573) -/

/-- The sequencer and the barrier are cleared; an armed COMMIT is held again (R269, R290; log entry 17). -/
def State.clearSequencer (s : State) : State :=
  { s with seq := Sequencer.fresh, commits := s.commits.map (fun c => { c with armed := false }) }

/-- The group state of an axis is cleared whole. -/
def State.eraseGroup (s : State) (a : Nat) : State :=
  ((s.set (Key.groupFormed a) 0).set (Key.groupStep a) 0).set (Key.groupSignature a) 0

/-- The links of a rim die. -/
def rimLinks (r : Nat) : List Nat := (List.range 8).map (8 * r + ·)

/-- A rim die carries some of a port's links. -/
def State.portOnRim (s : State) (r p : Nat) : Bool := s.portMask p / 2 ^ (8 * r) % 256 != 0

/-- The volatile entries whose index passes a test return to their defaults (R472). -/
def State.dropVolatile (s : State) (own : Nat → Bool) : State :=
  { s with dict := s.dict.filter (fun e =>
      !(own (e.1 / 256) && (rowOf (e.1 / 256) (e.1 % 256)).any (fun r => r.persist == 0))) }

/-- The debug challenge is drawn anew and an authorisation ends (R533). -/
def State.redrawChallenge (s : State) : State :=
  let s1 := { s with dbg := Debug.fresh }.set Key.debugState 0
  (s1.set Key.debugChallenge (leNat (s1.freeBytes 32))).tick

/-- The fuses that a commit for the running image blows (R526): up to which security version, and which slots are revoked. -/
def State.commitFuses (s : State) : Nat × List Nat :=
  (max s.fuses.svn s.fw.svn, (List.range 4).filter (fun k => bit s.fw.revoke k && k != s.fw.keySlot && !bit s.fuses.revoked k))

/-- A commit in progress ends: of the fuses it blows, each is blown or intact by a free value (R526). -/
def State.cutCommit (s : State) : State :=
  if s.fw.committing = false then s
  else
    let c := s.commitFuses
    let blown := c.2.filter (fun k => bit s.tick.free k)
    { s with fuses := { s.fuses with svn := s.fuses.svn + s.free % (c.1 - s.fuses.svn + 1),
                                     revoked := s.fuses.revoked + (blown.map (2 ^ ·)).foldl (· + ·) 0 },
             fw := { s.fw with committing := false } }.tick.tick

/-- A firmware update in progress ends, its slot invalid (R527); so do an install of a bundle and a commit of fuses. -/
def State.endWork (s : State) : State :=
  let bad := { s.undefMem with cells := [] }
  let blank := (bad.write 0 0).write 1 0
  let s1 := match s.fw.update with
    | none => s
    | some u => { s with fw := if u.2.2 = 0 then { s.fw with slotA := blank, update := none } else { s.fw with slotB := blank, update := none } }.tick
  { s1 with hall := { s1.hall with install := none } }.cutCommit

/-- Fabric time begins at 0 and runs free until the first lock (R355). -/
def State.restartTime (s : State) : State :=
  { s with ftime := 0, everLocked := false, timeRoot := 0, slew := 0, rateLeft := 0, rateAt := 0, thermal := { s.thermal with coolAt := [] },
           ports := s.ports.map (fun p => (p.1, { p.2 with offset := 0, hops := 0xFF, locked := false, root := 0 })),
           links := s.links.map (fun l => (l.1, { l.2 with echoTx := 0, echoRx := 0, sentTx := [] })) }

/-- The host port is reset: its sessions are lost, and its queues and rings end. The keys of MACsec and the records in HBM
stay. -/
def State.resetHost (s : State) : State :=
  let s1 := s.loseAll
  { s1 with
    msgs := s1.msgs.filter (fun m => decide (m.2.owner < 65536)),
    retired := (s1.msgs.filter (fun m => decide (65536 ≤ m.2.owner))).map (fun m => (m.1, s1.ftime)) ++ s1.retired,
    host := s1.host.restarted }

/-- The Chain stops answering and holds nothing (R454). -/
def State.stopChain (s : State) : State :=
  { s with chain := { s.chain with answers := false, tx := [], resetsDue := [], answered := [], collisions := 0 }, staging := [] }

/-- The Chain answers; a package without an ID listens before it claims (R454–R456, R459). -/
def State.startChain (s : State) : State :=
  { s with chain := { s.chain with answers := true,
                                   claim := if s.get Key.chainId = 0 then .listening 0 else .held } }

/-- What the reset of rim die 0 does beyond that of any rim die (R355, R478, R527, R533). -/
def State.resetLead (s : State) : State :=
  let own := fun (i : Nat) => [0x1110, 0x5200, 0x8042, 0x8100, 0xA002, 0xA020].contains i
    || (decide (0x5010 ≤ i) && decide (i < 0x5020))
  (((s.resetHost.stopChain.endWork).dropVolatile own).restartTime.redrawChallenge).timeUpdate

/-- A rim die reset (R478, R573): the records of its ports are gone with its volatile entries (R472), and the links of other rim dies whose own
record has changed send it (R351). -/
def State.resetRim (s : State) (r : Nat) : State :=
  let carried := axes.filter (fun a => (s.carriers a).contains r)
  let s1 := (s.colls.filter (fun c => carried.contains c.2.axis)).foldl (fun s c => (s.failColl c.1 0x0B).closeColl c.1) s
  let s2 := { s1 with streams := s1.streams.filter (fun t => t.accepted || !carried.contains (s1.axisFrom t.src)) }
  let s3 := carried.foldl (fun s a => if s.axisHome a = r then s.eraseGroup a else s.clearGroup a) s2
  let s4 := if s3.axisHome (s3.get Key.bucketAxis) = r then s3.clearSequencer else s3
  let s5 := { s4 with reorders := s4.reorders.filter (fun c => c.msgId % 4 != r), dups := s4.dups.filter (fun d => d.msgId % 4 != r),
                      waiting := s4.waiting.filter (fun w => !s4.portOnRim r w.1),
                      inbound := s4.inbound.filter (fun w => !s4.portOnRim r w.1) }
  let s6 := (rimLinks r).foldl (fun s l => s.dropLink l 0) s5
  let s7 := s6.dropVolatile (fun i => decide (0x5100 + 8 * r ≤ i) && decide (i < 0x5108 + 8 * r))
  let s8 := { s7 with ports := s7.ports.map (fun (p : Nat × PortState) => if s7.portOnRim r p.1 then (p.1, { p.2 with record := none }) else p) }.announce s
  let s9 := s8.runColls
  if r = 0 then s9.resetLead else s9

/-! ## Regulators and PROCHOT_N (R542, R546) -/

/-- The regulator of a rail is present (R542). -/
def State.railPresent (s : State) (k : Nat) : Bool := bit (s.get (Key.railVr k)) 7

/-- The bus of a rail's regulator, as RAIL_VR gives it. -/
def State.railBus (s : State) (k : Nat) : Nat := fld (s.get (Key.railVr k)) 8 2

/-- The rim die that reads and commands a rail's regulator: the one that supervises a VIN_SET rail's setting, for any other rail the host of its
bus (R23, R24, R542). -/
def State.railHost (s : State) (k : Nat) : Nat := if k < 24 then supervisor k else s.railBus k

/-- A PMBus command to a rail's regulator; one that is not present is never addressed (R542). -/
def State.railSend (s : State) (k cmd : Nat) : State := if s.railPresent k then s.emit (.pmbus k cmd) else s

/-- A PMBus command while the service controllers run: the one of the rail's bus must work (R24). -/
def State.railCommand (s : State) (k cmd : Nat) : State := if s.rimWorks (s.railHost k) then s.railSend k cmd else s

/-- The device pulls PROCHOT_N low: a cluster or a stack is below step 16 for thermal or power reasons (R546). -/
def State.drivesProchot (s : State) : Bool :=
  (List.range 288).any (fun n => !s.dieFenced (n / 4) && (decide (s.clusterStep n 0 < 16) || decide (s.clusterStep n 1 < 16)))
    || s.hbmSteps.any (fun x => !s.settingFenced x.1 && decide (x.2 < 16))

/-- What a warm or cold reset does to the board's side: a driven PROCHOT_N is released, and the regulators of fenced settings are turned on
again (R542, R546). -/
def State.releaseBoard (s : State) : State :=
  let s1 := if s.drivesProchot then s.emit (.pin 0 false) else s
  (settings.filter s1.settingFenced).foldl (fun s n => s.railSend n 1) s1

/-- The PROCHOT step of every cluster (R546). -/
def State.setProchot (s : State) (v : Nat) : State :=
  (List.range 288).foldl (fun s n =>
    if s.clusterStep n 2 = v then s else s.set (Key.clusterSteps n) (s.get (Key.clusterSteps n) % 2 ^ 16 + v * 2 ^ 16)) s

/-- A set-point in mV on the 5 mV grid, clamped to the range of R538. -/
def clampMv (mv : Nat) : Nat := min 850 (max 600 (5 * ceilDiv mv 5))

/-- The set-point of a cluster rail (R539): the smallest voltage that its fused characterisation at its clock and the margin of its monitors
allow. -/
def State.setPoint (s : State) (n margin : Nat) : State :=
  s.set (Key.clusterMv n) (clampMv (max (Config.fusedMv n (s.clockStep n)) margin))

/-- A cluster whose clock has risen since `before` has its voltage raised first, to what the new clock needs (R539). -/
def State.raiseVolts (s before : State) : State :=
  ((List.range 288).filter (fun n => !s.dieFenced (n / 4) && decide (before.clockStep n < s.clockStep n))).foldl
    (fun s n => s.setPoint n (s.get (Key.clusterMv n))) s

/-- The PROCHOT steps once steps or the board's hold have changed. -/
def State.prochotSteps (s : State) (was held : Bool) : State :=
  let now := s.drivesProchot
  let s1 := if now = was then s else s.emit (.pin 0 now)
  if !s1.pins.prochotIn then s1.setProchot 16
  else if now then (if was && held then s1 else (s1.setProchot (8 + 8 * (s1.free % 2))).tick)
  else (if held && !was then s1 else s1.count Key.prochotInAssertions 1).setProchot 8

/-- What follows once steps or the board's hold have changed: `was` says whether the device drove the pin, `held` whether the board held it.
While both hold it low the manual gives no PROCHOT step: a free value chooses between 8 and 16 (log entry 2). -/
def State.prochotChanged (s before : State) : State :=
  (s.prochotSteps before.drivesProchot before.pins.prochotIn).raiseVolts before

/-- The state with the steps of R546 changed by `f`, with what follows for the pin. -/
def State.changeSteps (s : State) (f : State → State) : State := (f s).prochotChanged s

/-! ## The package (R495, R553) -/

/-- The strap gives the Chain ID (R455). -/
def State.takeStrap (s : State) : State :=
  let v := s.pins.chainStrap
  let s1 := (s.set Key.chainId (if v = 31 then 0 else v)).set Key.chainIdSource (if v = 0 ∨ v = 31 then 2 else 0)
  if v = 31 then s1.count Key.chainStrapInvalid 1 else s1

/-- Recovery (R525): the Chain answers, and neither HBM nor the fabric nor the host port runs. -/
def State.enterRecovery (s : State) (fault : Nat) : State :=
  let s1 := (s.hbms.map Prod.fst).foldl State.stopStack s
  let s2 : State :=
    { s1 with links := [], ports := [], waiting := [], inbound := [], resets := [], host := { s1.host with stopped := true },
              startup := { s1.startup with running := false, verified := false, quickDone := false, hbmDone := [], linksOut := [] } }
  let s3 := ((s2.set Key.pkgState 2).set Key.startFault fault).count Key.bootRecoveryEntries 1
  if s3.chain.answers then s3 else (if s3.startup.cold then s3.takeStrap else s3).startChain

/-- The levels of the straps at a start that no pin event brings: which they are the command does not say, so they are free (R552, log
entry 39). -/
def State.strapsNow (s : State) : State :=
  { s with pins := { s.pins with chainStrap := s.free % 32, bootStrap := s.tick.free % 4 } }.tick.tick

/-- BOOT_MODE as it was sampled (R523). -/
def State.bootSelect (s : State) : State :=
  match s.pins.bootStrap with
  | 0 => s
  | 1 => s.enterRecovery 0
  | _ => s.count Key.bootStrapInvalid 1

/-- Everything of the package but what a warm reset keeps (R478): HBM contents, retained and flash entries, the cluster map and the
Chain ID. `ns` is how long the reset has been under way. The profile of a job stays with the job (R470), and the
mesh counters stay although they are volatile (R474). -/
def State.resetWarm (s : State) (ns : Nat) : State :=
  let s1 := (s.releaseBoard.loseAll.abandonTests (6, 0, 0)).endWork
  let s2 := settings.foldl (fun s n => (s.stopTroy n).stopStack n) s1
  let kept := s2.dict.filter (fun e => e.1 / 256 == 0x2000 || e.1 / 256 / 32 == 0x1180 / 32 || !(rowOf (e.1 / 256) (e.1 % 256)).any (fun r => r.persist == 0))
  let s3 : State :=
    { s2 with
      freeCtr := s2.freeCtr + 10000, dict := kept, staging := [], cores := [], spBase := s2.freeCtr + 1, meshOut := [], meshSeen := s2.out.length,
      seq := Sequencer.fresh, commits := [], colls := [], streams := [], msgs := [], retired := [], reorders := [], dups := [],
      waiting := [], inbound := [], hbms := s2.hbms.map (fun x => (x.1, { x.2 with off := false })), troys := [], links := [], ports := [],
      swaps := [], resets := [], missed := [], fw := { s2.fw with tried := [] },
      host := s2.host.restarted,
      chain := { Chain.fresh with claim := s2.chain.claim }, thermal := Thermal.fresh, hbmSteps := [],
      startup := { Startup.fresh with cold := false, lead := ns, everReady := true } }
  (if s3.pins.prochotIn then s3.setProchot 8 else s3).restartTime.redrawChallenge.bootSelect

/-- The flash entries that stand after a loss of power: one not stored yet is at its old or its new value (R473), but for THERMTRIP_SENSOR, which
keeps the previous value (R547). -/
def resolveFlash (free : Nat) : List (Nat × Option Nat) → List (Nat × Nat) → List (Nat × Nat)
  | [], dict => dict
  | (k, old) :: t, dict =>
    let before := match old with
      | some v => put k v dict
      | none => drop' k dict
    resolveFlash (free + 1) t (if k = Key.thermtripSensor.key ∨ Config.freeNat free % 2 = 1 then before else dict)

/-- Power is lost: every store of a flash entry ends (R473). -/
def State.flashLost (s : State) : State :=
  { s with dict := resolveFlash s.freeCtr s.flashDue s.dict, flashDue := [], freeCtr := s.freeCtr + s.flashDue.length }

/-- The entries that a cold initialisation keeps (R472, R473, R553): the flash entries, or after DICT_FLASH_RESTORE only what
manufacturing test found, CLUSTER_DEFECT_MASK. The boot counters stay until step 2 of R553, but for a power-up. -/
def State.coldDict (s : State) (cause : Nat) : List (Nat × Nat) :=
  let own := fun (k : Nat) => (List.range 288).any (fun n => k == (Key.clusterDefectMask n).key)
  s.dict.filter (fun e =>
    if e.1 / 256 = 0xA100 then cause != 0 else if s.flashRestore then own e.1 else (rowOf (e.1 / 256) (e.1 % 256)).any (fun r => r.persist == 2))

/-- The cluster map of a cold initialisation (R553): logical core k is the k-th core that is neither defective nor failed. -/
def State.coldMap (s : State) : List (Nat × List (Fin 17)) :=
  ((List.range 288).filter (fun n => (s.goodCores n).length != 17)).map (fun n => (n, (s.goodCores n).take 16))

/-- The marks that a cold initialisation acts on: those set as it begins (R329, R472). -/
def State.retireMarks (s : State) : List (Nat × Nat) :=
  settings.filterMap (fun n => if s.get (Key.hbmRetireMark n) = 0 then none else some (n, s.get (Key.hbmRetireMark n)))

/-- What a package keeps when everything else of it is lost (R535, R553): what the flash, the fuses and the pins hold. -/
def State.bare (s : State) (cause : Nat) : State :=
  { State.reset with
    pending := s.pending, freeCtr := s.freeCtr, out := s.out, meshSeen := s.out.length, dict := s.coldDict cause,
    flashDue := if s.flashRestore then [] else s.flashDue, fuses := s.fuses,
    fw := { s.fw with running := 0, svn := 0, keySlot := 0, revoke := 0, digest := [], tried := [] },
    hall := { Hallmark.fresh with slots := if s.flashRestore then [] else s.hall.slots }, pins := s.pins, supplies := s.supplies }

/-- The start of a cold initialisation (R553) with a cause (R559). -/
def State.coldInit (s : State) (cause : Nat) : State :=
  let s1 := s.releaseBoard.endWork
  let s2 : State :=
    { s1.bare cause with startup := { Startup.fresh with cause := cause, repeats := if cause = 4 then s1.startup.repeats else 0 } }
  let s3 := { s2 with cmap := s2.coldMap, startup := { s2.startup with ringMib := s2.get Key.recordRingMib, marks := s2.retireMarks } }
  (if s3.pins.prochotIn then s3.setProchot 8 else s3).redrawChallenge.bootSelect

/-! ## Resets in progress (R486, R487) -/

/-- The effects of a reset in a domain other than the package. -/
def State.resetEffect (s : State) (d : Domain) : State :=
  let p := d.2.2
  match d.1 with
  | 0 =>
    if d.2.1 = 0 then s.updCore p Core.resetMxe
    else if d.2.1 = 1 then s.updCore p Core.resetFge
    else (s.resetMse p).runColls.pumpMsgs
  | 5 => s.resetRim p
  | _ =>
    let s1 := (s.abandonTests d).abandonSwaps d
    let s2 := (s1.coresIn d).foldl State.resetCore s1
    (if d.1 = 4 then s2.resetSetting p else s2).runColls.pumpMsgs

/-- A reset begins: it counts, what it contains ends in it, and its units are reset (R478, R486, R497). A package warm reset whose straps ask for
recovery ends there (R523, R525). -/
def State.beginReset (s : State) (d : Domain) (cause : Nat) : State :=
  let j : ResetJob := { domain := d.1, engine := d.2.1, target := d.2.2, cause := cause, phase := .running, start := s.ftime,
                        bad := [], runs := [], next := none }
  if d.1 = 6 then
    let since := (s.resets.find? (fun k => k.domain == 6)).map (·.start)
    let s1 := ((if cause = 0 then s else s.strapsNow).resetWarm (s.ftime - since.getD s.ftime)).count (Key.resets 6) 1
    { s1 with resets := if s1.get Key.pkgState = 2 then [] else [{ j with start := 0 }] }
  else
    let s1 := ({ s with resets := s.resets.filter (fun k => !domCovers d k.dom) }.resetEffect d).count (Key.resets d.1) 1
    { s1 with resets := s1.resets ++ [j] }

/-- The package enters the warm-reset timeline: PKG_STATE, the Chain and the host port stop (R447, R454, R495, R555). -/
def State.enterWarm (s : State) : State :=
  ({ s.stopChain with host := { s.host with stopped := true }, startup := { s.startup with running := true, cold := false } }).set
    Key.pkgState 0

/-- A capture starts (R490); `seq` is the SEQ of its record (R492). -/
def State.startCapture (s : State) (d : Domain) (cause start : Nat) (bad : List (Nat × Nat)) (runs : List (Nat × Nat × Nat))
    (seq : Nat) : State :=
  let j : ResetJob := { domain := d.1, engine := d.2.1, target := d.2.2, cause := cause, phase := .capture, start := start,
                        bad := bad, runs := runs, next := none, seq := seq }
  { s with resets := s.resets.filter (fun k => !domCovers d k.dom) ++ [j] }

/-- A reset that nothing in progress overlaps. -/
def State.startReset (s : State) (d : Domain) (cause : Nat) (capture : Bool) : State :=
  let s1 := if d.1 = 6 then s.enterWarm else s
  if capture ∧ d.1 ≠ 5 then
    let s2 := s1.count Key.locketsCaptured 1
    s2.startCapture d cause s2.ftime [] [] (s2.get Key.locketsCaptured)
  else s1.beginReset d cause

/-- A wider reset waits for the running one (R486). -/
def State.deferReset (s : State) (d : Domain) (cause : Nat) : State :=
  let hit := fun (j : ResetJob) => j.phase == .running && domOverlap j.dom d
  match s.resets.find? hit with
  | none => s
  | some j =>
    if j.next.any (fun n => domCovers (n.1, 0, n.2.2) d) then s.count Key.resetRequestsMerged 1
    else
      let s1 := if j.next.isSome then s.count Key.resetRequestsMerged 1 else s
      { s1 with resets := s1.resets.map (fun k => if k == j then { k with next := some (d.1, cause, d.2.2) } else k) }

/-- A reset request reaches the reset controller (R36, R485, R486, R549, R556). The cause is that of R492. -/
def State.requestReset (s : State) (d : Domain) (cause : Nat) (capture : Bool) : State :=
  let hits := s.resets.filter (fun j => domOverlap j.dom d)
  let merged := fun (n : Nat) => s.count Key.resetRequestsMerged n
  if d.1 = 7 then s.strapsNow.coldInit (if cause = 5 then 2 else 1)
  else if d.1 = 6 ∧ s.startup.everReady = false then s.strapsNow.coldInit 3
  else if s.get Key.pkgState = 0 ∨ s.domFenced d then merged 1
  else if hits.isEmpty then s.startReset d cause capture
  else if hits.any (fun j => domCovers j.dom d) then merged 1
  else if hits.all (fun j => j.phase == .capture) then
    let s1 := if d.1 = 6 then (merged hits.length).enterWarm else merged hits.length
    s1.startCapture d cause ((hits.map (·.start)).foldl min s.ftime) (hits.flatMap (·.bad)) (hits.flatMap (·.runs))
      ((hits.map (·.seq)).foldl min (s.get Key.locketsCaptured))
  else s.deferReset d cause

/-! ## Fencing (R488) -/

/-- A compute die is fenced; its steps no longer hold PROCHOT_N (R546). -/
def State.fenceDie (s : State) (d : Nat) : State :=
  let s1 := ((s.set Key.fencedDies (s.get Key.fencedDies ||| 2 ^ d)).count Key.diesFencedTotal 1).prochotChanged s
  { s1 with resets := s1.resets.filter (fun j => !domCovers (3, 0, d) j.dom) }

/-- A setting is fenced: its stack cannot be reached, and its steps no longer hold PROCHOT_N (R546). -/
def State.fenceSetting (s : State) (n : Nat) : State :=
  let s1 := ((s.set Key.fencedSettings (s.get Key.fencedSettings ||| 2 ^ n)).count Key.settingsFencedTotal 1).prochotChanged s
  let s2 := s1.setStack n { s1.stack n with off := true, accepting := false }
  { s2.railCommand n 0 with resets := s2.resets.filter (fun j => !domCovers (4, 0, n) j.dom) }

/-- A rim die is fenced: its links stay DISABLED; with rim die 0 the Chain and the host port stop. -/
def State.fenceRim (s : State) (r : Nat) : State :=
  let s1 := (s.set Key.fencedRims (s.get Key.fencedRims ||| 2 ^ r)).count Key.rimsFencedTotal 1
  let s2 := { s1 with resets := s1.resets.filter (fun j => !domCovers (5, 0, r) j.dom) }
  if r = 0 then { s2.stopChain with host := { s2.host with stopped := true } } else s2

/-- A unit that has failed its bring-up: its reset, which is not counted, and the fence. -/
def State.dropDie (s : State) (d : Nat) : State := if s.dieFenced d then s else (s.resetEffect (3, 0, d)).fenceDie d

/-! ## Completion and escalation (R487) -/

/-- A reset begins without capture, in which other resets in progress end (`gone`): they are absorbed, with the requests that waited for
them, but the widest that is wider still waits for this one (R486). -/
def State.takeOver (s : State) (gone : List ResetJob) (d : Domain) (cause : Nat) : State :=
  let nexts := gone.filterMap (·.next)
  let best := (nexts.filter (fun n => !domCovers d (n.1, 0, n.2.2))).foldl (fun (b : Option (Nat × Nat × Nat)) n =>
    if b.all (fun m => domCovers (n.1, 0, n.2.2) (m.1, 0, m.2.2)) then some n else b) none
  let s1 := (s.count Key.resetRequestsMerged (gone.length + nexts.length - best.toList.length)).beginReset d cause
  { s1 with resets := s1.resets.map (fun k => if k.dom = d ∧ best.isSome then { k with next := best } else k) }

/-- A wider reset that follows reset `j` begins; the other resets in progress that it contains end in it (R486, R487). -/
def State.widen (s : State) (j : ResetJob) (d : Domain) (cause : Nat) : State :=
  s.takeOver (s.resets.filter (fun k => domCovers d k.dom && k != j)) d cause

/-- A setting without supply is held in reset; this reset is not counted (R541, R557). -/
def State.holdSetting (s : State) (n : Nat) : State :=
  if s.resets.any (fun j => j.dom == (4, 0, n)) then s
  else { s with resets := s.resets ++ [{ domain := 4, engine := 0, target := n, cause := 0, phase := .running, start := s.ftime,
                                         bad := [], runs := [], next := none }] }

/-- A pending wider reset is performed once the one it waited for is over, without capture (R486). -/
def State.runNext (s : State) (j : ResetJob) : State :=
  match j.next with
  | none => s
  | some n => (if n.1 = 6 then s.enterWarm else s).widen j (n.1, 0, n.2.2) n.2.1

/-- Every unit of a reset's domain is idle and initialised: for a setting its controller serves again, or its stack has failed; a
package warm reset completes by READY alone. -/
def State.resetDone (s : State) (j : ResetJob) : Bool :=
  match j.domain with
  | 4 => ((s.stack j.target).accepting || (s.stack j.target).failed)
      && !s.supplyHeld j.target
  | 6 => false
  | _ => true

/-- The reset numbered `index` among those in progress is over. -/
def State.endReset (s : State) (index : Nat) : State :=
  match s.resets[index]? with
  | none => s
  | some j =>
    if j.phase = .capture ∨ s.resetDone j = false then s
    else
      let s1 := { s with resets := s.resets.eraseIdx index }
      let s2 := if j.domain = 5 then (if j.target = 0 then s1.startChain.trainLinks else s1.trainLinks) else s1
      s2.runNext j

/-- What a reset escalates to (R487): a wider reset, a fence, or cold initialisation. -/
def State.escalate (s : State) (index : Nat) : State :=
  match s.resets[index]? with
  | none => s
  | some j =>
    if j.phase = .capture then s
    else
      let s1 := s.count (Key.escalations j.domain) 1
      let p := j.target
      let up := fun (d : Domain) =>
        match j.next with
        | some n =>
          let m := { s1 with resets := s1.resets.map (fun k => if k == j then { k with next := none } else k) }
          if domCovers (n.1, 0, n.2.2) d then (m.count Key.resetRequestsMerged 1).runNext j else m.widen j d j.cause
        | none => s1.widen j d j.cause
      match j.domain with
      | 0 => up (1, 0, p)
      | 1 => up (2, 0, p / 17)
      | 2 => up (3, 0, p / 4)
      | 3 => (s1.fenceDie p).runNext j
      | 4 => (s1.fenceSetting p).runNext j
      | 5 => (s1.fenceRim p).runNext j
      | _ => s1.strapsNow.coldInit 3

/-! ## Watchdogs and heartbeats (R481–R484) -/

/-- The watchdogs act on a core: they are enabled and it is not under test (R484, R503). -/
def State.watched (s : State) (p : Nat) : Bool :=
  s.flag Key.wdtEnable && !s.testing p

/-- A SEND waits for a credit, or for the entry that gives one (R87). -/
def Core.creditWaits (c : Core) (o : MseOp) : Bool :=
  o.todo.any (fun t => (c.creditFor t.head).all (fun x => x.credits == 0))

/-- A started descriptor of a core waits for something that does not count toward a watchdog (R481): a wait for an ID, for a controller's answer or for
another collective of the axis (R412) does. -/
def State.exemptOp (s : State) (p : Nat) (o : MseOp) : Bool :=
  let backs := o.msgs.any (fun m => (look m.1 s.msgs).any (·.held))
  match o.kind with
  | .credit => (s.core p).creditWaits o || backs
  | .windowHeld => true
  | .stepHeld => true
  | .ctxHeld => o.msgs.isEmpty && s.ctxTaken o.desc
  | .drain _ _ => o.msgs.isEmpty && (s.core p).drainWaits o
  | .coll ctx =>
    o.msgs.isEmpty && ((look ctx s.colls).any (fun c => !c.launched) || s.streams.any (fun t => t.context == ctx && !t.accepted))
  | _ => backs

/-- An engine holds a started descriptor that counts, or has stopped (R481). -/
def State.engineBusy (s : State) (p e : Nat) : Bool :=
  let c := s.core p
  (c.engine e).stopped || !(c.engine e).started.isEmpty || (e == 2 && c.ops.any (fun o => !s.exemptOp p o))

/-- ENGINE_WDT_EXPIRY (R481). -/
def execEngineWdtExpiry (core : CoreId) (engine : Fin 3) (s : State) : Host.Outcome State Fault Refusal :=
  match s.physOf core.toNat with
  | none => .next s
  | some p =>
    if s.watched p ∧ s.engineBusy p engine.val ∧ s.engineHeld p engine.val = false then
      .next ((s.count (Key.engineWdtExpiries (physCluster p)) 1).requestReset (0, engine.val, p) 1 true)
    else .next s

/-- The head of a message engine's queue waits only for descriptors that are exempt from the watchdogs: its ORDER, or room (R481, R482). -/
def State.waitsExempt (s : State) (p d : Nat) : Bool :=
  let ops := (s.core p).ops
  (bit d 65 || decide (128 ≤ ops.length)) && !ops.isEmpty && ops.all (s.exemptOp p)

/-- A queue of the core holds a descriptor that is neither held by its gate nor waits under an exception, or a context is in
state 0 (R482). -/
def State.coreBusy (s : State) (p : Nat) : Bool :=
  let c := s.core p
  [0, 1, 2].any (fun e => ((c.engine e).queue.head?).any (fun d => c.gateOk d && !(e == 2 && s.waitsExempt p d))) || c.primary.st == .ready
    || c.companion.st == .ready

/-- CORE_WDT_EXPIRY (R482). An engine reset of the core in progress holds the watchdog. -/
def execCoreWdtExpiry (core : CoreId) (s : State) : Host.Outcome State Fault Refusal :=
  match s.physOf core.toNat with
  | none => .next s
  | some p =>
    if s.watched p ∧ s.coreBusy p ∧ s.coreHeld p = false ∧ s.resets.any (fun j => j.domain == 0 && j.target == p) = false then
      .next ((s.count (Key.coreWdtExpiries (physCluster p)) 1).requestReset (1, 0, p) 2 true)
    else .next s

/-- A die that a heartbeat is expected of: compute dies 0–71, base dies as 72–95 and rim dies as 96–99; none of a fenced die or one
under reset, and none where no service controller supervises its setting (R24, R483). -/
def State.beats (s : State) (u : Nat) : Bool :=
  if u < 72 then s.watches (u / 3) && !s.dieFenced u && !s.resets.any (fun j => decide (6 ≤ j.domain) || domCovers j.dom (3, 0, u))
  else if u < 96 then s.watches (u - 72) && !s.settingFenced (u - 72) && !s.resets.any (fun j => domCovers j.dom (4, 0, u - 72))
  else u < 100 && !s.rimFenced (u - 96) && !s.resets.any (fun j => domCovers j.dom (5, 0, u - 96))

/-- The counters of a die's missed heartbeats and hangs (R497). -/
def beatCounters (u : Nat) : Ent × Ent :=
  if u < 72 then (Key.heartbeatMissesDie u, Key.dieHangsDie u)
  else if u < 96 then (Key.heartbeatMissesBase (u - 72), Key.dieHangsBase (u - 72))
  else (Key.heartbeatMissesRim (u - 96), Key.dieHangsRim (u - 96))

/-- The reset that a hung die asks for (R483); a rim die's needs a peer that has not missed the limit. -/
def State.hangReset (s : State) (u : Nat) : State :=
  let limit := s.get Key.heartbeatMissLimit
  let peers := (List.range 4).any (fun r => 96 + r != u && decide ((look (96 + r) s.missed).getD 0 < limit) && !s.rimFenced r)
  if u < 72 then s.requestReset (3, 0, u) 3 true
  else if u < 96 then s.requestReset (4, 0, u - 72) 3 true
  else if peers then s.requestReset (5, 0, u - 96) 3 false
  else s

/-- One die at a heartbeat check. -/
def State.beat (s : State) (missed : List Nat) (u : Nat) : State :=
  if !s.beats u then { s with missed := drop' u s.missed }
  else if !missed.contains u then { s with missed := drop' u s.missed }
  else
    let n := (look u s.missed).getD 0 + 1
    let s1 := { s with missed := put u n s.missed }.count (beatCounters u).1 1
    if n = s.get Key.heartbeatMissLimit then (s1.count (beatCounters u).2 1).hangReset u else s1

/-- HEARTBEAT_CHECK (R483): the dies named have sent no heartbeat in the period. -/
def execHeartbeatCheck (missed : List Nat) (s : State) : Host.Outcome State Fault Refusal :=
  if s.flag Key.wdtEnable = false ∨ s.packageHeld ∨ s.get Key.pkgState = 2 then .next s
  else .next ((List.range 100).foldl (fun s u => s.beat missed u) s)

end Sys2Proof.Machine
end

