-- ==== Sys2Proof/Machine/Locket.lean ====
section
/-!
DEFINITION. Locket capture (R490–R494): the core block, the record, its place in the Locket region, and the accesses that time out.
-/
namespace Sys2Proof.Machine

/-! ## The core block (R493) -/

/-- Bytes of the undefined content `k` from `a` on. -/
def freeRun (k a n : Nat) : List Byte := (List.range n).map (fun i => Config.freeByte k (a + i))

/-- An item, filled with zeros to a multiple of 64 bytes. -/
def item (bs : List Byte) : List Byte := bs ++ List.replicate (64 * ceilDiv bs.length 64 - bs.length) 0

/-- Bytes made exactly `n` long, with zeros at the end. -/
def fitTo (n : Nat) (bs : List Byte) : List Byte := (bs ++ List.replicate n 0).take n

/-- g0–g31 and the program counter of a context. -/
def Ctx.bytes (x : Ctx) : List Byte :=
  item ((List.range 32).flatMap (fun i => leBytes 8 (if i = 0 then 0 else (x.regs.toList.getD i 0).toNat))) ++ item (leBytes 8 x.pc.toNat)

/-- The configuration block of a queue (R83). -/
def Queue.config (q : Queue) : List Byte :=
  leBytes 16 (q.base + q.slotLog2 * 2 ^ 24 + q.countLog2 * 2 ^ 32 + q.mode * 2 ^ 36 + b2n q.event * 2 ^ 38 + q.srcNode * 2 ^ 64
    + q.srcEp * 2 ^ 96)

/-- The 16,128 bytes of the core level. The manual does not lay out the credit table in memory: its octets are free (log entry 23). -/
def Core.levelBytes (c : Core) (free : List Byte) : List Byte :=
  let qs := (List.range 17).map c.queue
  let ring := fun (e : Nat) => item (fitTo (16 * descSize e) ((c.engine e).queue.flatMap (leBytes (descSize e))))
  fitTo 16128 (c.primary.bytes ++ c.companion.bytes ++ item (leBytes 1 c.stateByte)
    ++ item ((List.range 256).flatMap (fun i => leBytes 4 (c.ctr i))) ++ item (qs.flatMap Queue.config)
    ++ item (qs.flatMap (fun q => leBytes 8 q.status)) ++ item (free.take 256) ++ ring 0 ++ ring 1 ++ ring 2
    ++ c.ops.flatMap (fun o => leBytes 64 o.desc))

/-- The descriptor at an engine's head: the oldest started one, else the first queued. -/
def Core.headDesc (c : Core) (e : Nat) : Option Nat :=
  let started := if e = 2 then c.ops.map (·.desc) else (c.engine e).started.map (·.desc)
  (started ++ (c.engine e).queue).head?

/-- The pointers of an engine (R493): what its head descriptor uses, and for the MSE what its latest started ones name. -/
def Core.pointers (c : Core) (e : Nat) : List (Option Nat) :=
  let some' := fun (b : Bool) (a : Nat) => if b then some a else none
  match e, c.headDesc e with
  | 2, _ => (c.ops.reverse.take 8).map (fun o => some (mLocal o.desc))
  | _, none => []
  | 0, some d =>
    let x := MxeD.of d
    let out := (dOp d == 1 || dOp d == 2 || dOp d == 3) && (x.outPath == 1 || x.outPath == 2)
    [some' (dOp d == 1 || dOp d == 2) x.aAddr, some' (dOp d == 1) x.bAddr, some' out x.outAddr, some' (out && x.sideGran != 0) x.sideAddr]
  | _, some d =>
    let x := FgeD.of d
    [some' (x.usesIn 0) (x.inp 0).addr, some' (x.usesIn 1) (x.inp 1).addr, some' (x.usesIn 2) (x.inp 2).addr,
     some' x.uses0 x.out0.addr, some' x.uses1 x.out1.addr]

/-- The 20 KiB of an engine region. What the manual leaves to the implementation is free. -/
def Core.regionBytes (c : Core) (e : Nat) (free : List Byte) : List Byte :=
  let ps := (List.range 8).map (fun i => (c.pointers e).getD i none)
  let table := ps.flatMap (fun a => leBytes 4 (match a with | some a => a % 2 ^ 21 + 2 ^ 31 | none => 0))
  let head := (c.headDesc e).map (leBytes (descSize e))
  let sample := fun (a : Option Nat) =>
    match a with
    | some a => c.sp.readN (min 0x1FF800 (a % 2 ^ 21 / 256 * 256 - 0x400)) 2048
    | none => List.replicate 2048 0
  table ++ free.take 32 ++ fitTo 4032 ((head.getD []) ++ (free.drop 32).take (4032 - ((head.getD []).length)))
    ++ ps.flatMap sample

/-- A line of a block that could not be read (R491). -/
def badLine : List Byte := (List.range 16).flatMap (fun _ => leBytes 4 0xBAD0BAD0)

/-- The core block of a logical core: `eng` the engines captured, as a mask, and the lines that could not be read (R491, R493). -/
def Core.block (c : Core) (lc phys eng : Nat) (bad : List Nat) (k : Nat) : List Byte :=
  let bits := bad.eraseDups.foldl (fun m i => m ||| 2 ^ i) 0
  let header := leBytes 64 (lc + phys * 2 ^ 16 + eng * 2 ^ 21) ++ leBytes 192 bits
  let region := fun (e : Nat) => if bit eng e then c.regionBytes e (freeRun k (2 ^ 20 * lc + 8192 * (e + 1)) 4096) else List.replicate 20480 0
  let all := header ++ c.levelBytes (freeRun k (2 ^ 20 * lc) 256) ++ region 0 ++ region 1 ++ region 2
  (List.range 1216).flatMap (fun i => if bad.contains i then badLine else (all.drop (64 * i)).take 64)

/-! ## The record (R492) -/

/-- The logical cores of a domain in a setting, with their physical cores (R490). -/
def State.capturedIn (s : State) (d : Domain) (n : Nat) : List (Nat × Nat) :=
  (List.range 256).filterMap (fun k =>
    match s.physOf (256 * n + k) with
    | some p => if inDomain d p then some (256 * n + k, p) else none
    | none => none)

/-- The length of a record with some blocks. -/
def recordSpan (blocks : Nat) : Nat := 65536 * ceilDiv (4096 + 77824 * blocks) 65536

/-- Where the next record of a setting goes. -/
def State.locketPlace (s : State) (n blocks : Nat) : Nat :=
  let off := s.get (Key.locketNext n)
  if off + recordSpan blocks ≤ 0x4000000 then off else 0

/-- The TARGET of a domain as RESET_REQUEST gives it (R485). -/
def State.targetCode (s : State) (d : Domain) : Nat := if d.1 ≤ 1 then (s.logicalOf d.2.2).getD 0 else d.2.2

/-- The header of a record. -/
def State.recordHeader (s : State) (j : ResetJob) (blocks written : Nat) (cut : Bool) : List Byte :=
  leBytes 4096 (0x10C7 + j.domain * 2 ^ 16 + j.engine * 2 ^ 19 + j.cause * 2 ^ 24 + s.targetCode j.dom * 2 ^ 32
    + j.seq * 2 ^ 64 + j.start * 2 ^ 128 + s.ftime * 2 ^ 192 + blocks * 2 ^ 256 + written * 2 ^ 272
    + b2n cut * 2 ^ 288 + s.get Key.locketLayout * 2 ^ 296)

/-- The MAGIC at an offset is cleared, by a write of its full line (R320). -/
def State.clearMagic (s : State) (n a : Nat) : State := s.hbmWrite n 0 a ([0, 0] ++ (s.stack n).mem.readN (a + 2) 62)

/-- The MAGIC of every record that a range overlaps is cleared. -/
def State.clearMagics (s : State) (n off len : Nat) : State :=
  (List.range (len / 65536)).foldl (fun s i =>
    let a := (s.stack n).locketBase + off + 65536 * i
    if (s.stack n).mem.num a 2 = 0x10C7 then s.clearMagic n a else s) s

/-- The lines of a core block that a capture reads, by segment: the core level, and the regions of the engines captured (R491). -/
def capturedLines (d : Domain) : List (List Nat) :=
  let seg := fun (a b : Nat) => (List.range (b - a)).map (a + ·)
  let engines := if d.1 = 0 then [d.2.1] else [0, 1, 2]
  seg 4 256 :: engines.flatMap (fun e => [seg (256 + 320 * e) (320 + 320 * e), seg (320 + 320 * e) (576 + 320 * e)])

/-- The debug side-path of a setting without a service controller does not answer (R24): every read of a core there times out, sixteen of a segment,
and the rest of it is skipped (R491; log entry 53). -/
def State.sideTimeouts (s : State) (j : ResetJob) (n : Nat) : State × ResetJob :=
  if s.watches n then (s, j)
  else
    let fresh := (s.capturedIn j.dom n).flatMap (fun c =>
      (capturedLines j.dom).map (fun g => (g.filter (fun l => !j.bad.contains (c.2, l))).map (fun l => (c.2, l))))
    (((s.count Key.locketAccessTimeouts (fresh.foldl (fun k g => k + min 16 g.length) 0)).count
        Key.locketAccessesSkipped (fresh.foldl (fun k g => k + (g.length - 16)) 0)),
      { j with bad := j.bad ++ fresh.flatten })

/-- One setting's record is written: the blocks, then the header. Of a truncated capture, and of one that a power failure has ended (`cut`,
`ended`), a free number of blocks is complete. -/
def State.writeLocket (s0 : State) (j0 : ResetJob) (cut ended : Bool) (n : Nat) : State :=
  let s := (s0.sideTimeouts j0 n).1
  let j := (s0.sideTimeouts j0 n).2
  let cs := s.capturedIn j.dom n
  if cs.isEmpty || (s.stack n).lost then s
  else
    let off := s.locketPlace n cs.length
    let eng := if j.domain = 0 then 2 ^ j.engine else 7
    let base := (s.stack n).locketBase + off
    let written := if cut then s.free % cs.length else if ended then s.free % (cs.length + 1) else cs.length
    let s1 := s.tick.clearMagics n off (recordSpan cs.length)
    let s2 := cs.zipIdx.foldl (fun s b =>
      let bad := (j.bad.filter (fun l => l.1 == b.1.2)).map Prod.snd
      let bs := (s.core b.1.2).block b.1.1 (b.1.2 % 17) eng bad (s.freeCtr + 1)
      s.hbmWrite n 0 (base + 4096 + 77824 * b.2) (if b.2 < written then bs else freeRun (s.freeCtr + 1) (2 ^ 32 + 2 ^ 20 * b.2) 77824)) s1
    let s3 := s2.tick.hbmWrite n 0 base (s2.recordHeader j cs.length written cut)
    (s3.set (Key.locketLast n) off).set (Key.locketNext n) (off + recordSpan cs.length)

/-- A capture has ended (R490): the records, and the reset proceeds. -/
def State.endCapture (s : State) (index : Nat) : State :=
  match s.resets[index]? with
  | none => s
  | some j =>
    if j.phase ≠ .capture then s
    else
      let cut := decide (1000000 * s.get Key.locketCaptureLimit ≤ s.ftime - j.start)
      let s1 := settings.foldl (fun s n => s.writeLocket j cut false n) s
      (if cut then s1.count Key.locketsTruncated 1 else s1).beginReset j.dom j.cause

/-- A capture that PRST_N or a power loss ends: no valid record, and the place of one is undefined (R486, R492). -/
def State.abandonCapture (s : State) (j : ResetJob) : State :=
  if j.phase ≠ .capture then s
  else
    (settings.foldl (fun s n =>
      let cs := s.capturedIn j.dom n
      if cs.isEmpty || (s.stack n).lost then s
      else
        let off := s.locketPlace n cs.length
        let base := (s.stack n).locketBase + off
        let s1 := s.devUndef (2 ^ 35 * n + base) (recordSpan cs.length)
        (List.range (recordSpan cs.length / 65536)).foldl (fun s i => s.clearMagic n (base + 65536 * i)) s1) s).count
      Key.locketsAbandoned 1

/-- A capture that reads from a setting ends as its supply fails (R541), and the reset proceeds. -/
def State.cutCapture (s : State) (j : ResetJob) : State :=
  (settings.foldl (fun s n => s.writeLocket j false true n) s).beginReset j.dom j.cause

/-- LOCKET_CAPTURE_END (R490). -/
def execLocketCaptureEnd (index : Nat) (s : State) : Host.Outcome State Fault Refusal := .next (s.endCapture index)

/-! ## Accesses that time out (R491) -/

/-- The capture segment of a line: its first line and the line after its last. -/
def segmentOf (line : Nat) : Option (Nat × Nat) :=
  [(4, 256), (256, 320), (320, 576), (576, 640), (640, 896), (896, 960), (960, 1216)].find? (fun g => decide (g.1 ≤ line) && decide (line < g.2))

/-- An access of a capture has timed out: the line is flagged; with the sixteenth in a row in one segment the rest of it is skipped. -/
def State.captureTimeout (s : State) (j : ResetJob) (p line : Nat) (g : Nat × Nat) : State :=
  let run := match j.runs.find? (fun r => r.1 == p) with
    | some (_, l, n) => if l + 1 = line ∧ g.1 ≤ l then n + 1 else 1
    | none => 1
  let rest := if run = 16 then (List.range (g.2 - line - 1)).map (line + 1 + ·) else []
  let j1 := { j with bad := j.bad ++ (line :: rest).map (fun l => (p, l)), runs := (p, line, run) :: j.runs.filter (fun r => r.1 != p) }
  (({ s with resets := s.resets.map (fun k => if k == j then j1 else k) }.count Key.locketAccessTimeouts 1).count
    Key.locketAccessesSkipped rest.length)

/-- LOCKET_ACCESS_TIMEOUT (R491): no effect on a line that is not captured or already flagged. -/
def execLocketAccessTimeout (index : Nat) (core : CoreId) (line : Nat) (s : State) : Host.Outcome State Fault Refusal :=
  match s.physOf core.toNat with
  | none => .next s
  | some p =>
    match s.resets[index]?, segmentOf line with
    | some j, some g =>
      if j.phase ≠ .capture ∨ inDomain j.dom p = false ∨ j.bad.contains (p, line)
          ∨ (j.domain = 0 ∧ 256 ≤ line ∧ (line - 256) / 320 ≠ j.engine) then .next s
      else .next (s.captureTimeout j p line g)
    | _, _ => .next s

end Sys2Proof.Machine
end

