-- ==== Sys2Proof/Machine/Power.lean ====
section
/-!
DEFINITION. Power, clocks and thermal (R535–R548): the supply events of VIN_SET, telemetry of the regulators, the references, the power
limit, the sensors, throttling and the thermal trip.
-/
namespace Sys2Proof.Machine

/-! ## Supply events on VIN_SET (R540, R541) -/

/-- The supply state of a setting. -/
def State.supply (s : State) (n : Nat) : Supply := (look n s.supplies).getD Supply.fresh

/-- The state with the supply state of a setting replaced. -/
def State.setSupply (s : State) (n : Nat) (x : Supply) : State := { s with supplies := put n x s.supplies }

/-- The monitors of a setting run: the package has power and has not tripped, and the setting is not fenced (R535, R547). -/
def State.monitors (s : State) (n : Nat) : Bool := s.pins.pwrok && s.thermal.tripped.isNone && !s.settingFenced n

/-- VIN_WARNING (R540): counted on the fall that begins a stretch. -/
def execVinWarning (setting : Setting) (s : State) : Host.Outcome State Fault Refusal :=
  let n := setting.val
  if s.monitors n = false ∨ (s.supply n).stretched then .next s
  else .next ((s.setSupply n { s.supply n with stretched := true }).count (Key.vinWarnings n) 1)

/-- VIN_RECOVERY (R540, R541): the stretch ends, and a setting held for its supply is released. -/
def execVinRecovery (setting : Setting) (s : State) : Host.Outcome State Fault Refusal :=
  let n := setting.val
  if s.monitors n then .next (s.setSupply n { stretched := false, powerFail := false }) else .next s

/-- The stack of a setting whose charge did not hold: its contents are undefined (R541). -/
def State.loseStack (s : State) (n : Nat) : State :=
  (s.setStack n { s.stack n with mem := s.undefMem, errors := [] }).tick.count (Key.hbmPowerfailLost n) 1

/-- The setting reset of a power failure (R541): it ends the captures that read from the setting; without capture; merged under R486. Where a
reset in progress, or the start, covers the setting, the setting is reset again within it and held until its supply returns. -/
def State.powerFailReset (s : State) (n : Nat) : State :=
  let d : Domain := (4, 0, n)
  let caps := s.resets.filter (fun j => j.phase == .capture && !(s.capturedIn j.dom n).isEmpty)
  let s1 := caps.foldl State.cutCapture s
  if s1.get Key.pkgState = 2 then s1
  else if s1.startup.running ∨ s1.resets.any (fun j => domCovers j.dom d) then
    ((s1.count Key.resetRequestsMerged 1).resetEffect d).holdSetting n
  else s1.takeOver (s1.resets.filter (fun j => domCovers d j.dom)) d 0

/-- VIN_POWERFAIL (R540, R541): each such fall counts, also one of a setting that is held already. -/
def execVinPowerfail (setting : Setting) (chargeHeld : Bool) (s : State) : Host.Outcome State Fault Refusal :=
  let n := setting.val
  if s.monitors n = false then .next s
  else
    let s1 := s.count (Key.vinPowerfails n) 1
    let s2 := if s1.pins.asserted then s1 else s1.powerFailReset n
    let s3 := s2.setSupply n { s2.supply n with powerFail := true }
    .next (if chargeHeld then s3 else s3.loseStack n)

/-! ## Integrated regulators (R538, R539) -/

/-- SETPOINT_UPDATE (R539), by the supervising service controller: `mv` is the voltage that the margin of the critical-path monitors asks for. -/
def execSetpointUpdate (cluster : Cluster) (mv : Nat) (s : State) : Host.Outcome State Fault Refusal :=
  if s.packageHeld ∨ s.dieFenced (cluster.val / 4) ∨ s.watches (cluster.val / 12) = false then .next s
  else .next (s.setPoint cluster.val mv)

/-! ## Regulator telemetry (R537, R542) -/

/-- The nominal voltage of a rail in mV (R536). -/
def railNominal (k : Nat) : Nat :=
  if k < 24 then 1800 else if k < 28 then 750 else if k < 32 then 900 else if k < 36 then 1200 else if k < 37 then 750
  else if k < 38 then 1800 else if k < 42 then 1100 else if k < 46 then 400 else 1800

/-- A voltage lies within a rail's tolerance: 5 % for VSVC_IO, 3 % for every other rail (R536). -/
def railOk (k mv : Nat) : Bool :=
  let part := if k = 37 then 5 else 3
  decide ((100 - part) * railNominal k ≤ 100 * mv) && decide (100 * mv ≤ (100 + part) * railNominal k)

/-- The telemetry of a regulator is read; `none` is a regulator that does not acknowledge or fails its check. -/
def State.readRail (s : State) (k : Nat) (reading : Option RailReading) : State :=
  if s.railPresent k = false ∨ s.rimWorks (s.railHost k) = false then s
  else
    let s1 := s.railCommand k 3
    match reading with
    | none => s1.count (Key.pmbusErrors (s.railBus k)) 1
    | some r =>
      let s2 := ((s1.set (Key.railMv k) (r.mv % 2 ^ 16)).set (Key.railMa k) (r.ma % 2 ^ 32)).set (Key.railVrTemp k) (unsgn 32 r.temp)
      let s3 := if 24 ≤ k ∧ railOk k r.mv = false then s2.count (Key.railExcursions k) 1 else s2
      if r.fault then (s3.railCommand k 2).count (Key.railFaults k) 1 else s3

/-- PMBUS_POLL (R542). -/
def execPmbusPoll (rail : Fin 50) (reading : Option RailReading) (s : State) : Host.Outcome State Fault Refusal :=
  if s.packageHeld then .next s else .next (s.readRail rail.val reading)

/-- PMBUS_ALERT (R542): each regulator of the bus is read at once; one without a reading does not acknowledge. -/
def execPmbusAlert (bus : Rim) (readings : List (Nat × Option RailReading)) (s : State) : Host.Outcome State Fault Refusal :=
  if s.packageHeld ∨ s.rimWorks bus.val = false then .next s
  else
    .next (((List.range 50).filter (fun k => s.railBus k == bus.val)).foldl (fun s k => s.readRail k ((look k readings).getD none))
      (s.count (Key.pmbusAlerts bus.val) 1))

/-- AVS_READ (R542): the voltage and current of a VIN_SET regulator. -/
def execAvsRead (setting : Setting) (mv : Nat) (ma : Nat) (s : State) : Host.Outcome State Fault Refusal :=
  let k := setting.val
  if s.packageHeld ∨ s.railPresent k = false ∨ s.watches k = false then .next s
  else .next ((s.set (Key.railMv k) (mv % 2 ^ 16)).set (Key.railMa k) (ma % 2 ^ 32))

/-! ## PROCHOT_N (R546) -/

/-- PROCHOT_IN_ASSERT (R546). -/
def execProchotInAssert (s : State) : Host.Outcome State Fault Refusal :=
  let s1 := { s with pins := { s.pins with prochotIn := true } }
  .next (if s.unpowered then s1 else s1.prochotChanged s)

/-- PROCHOT_IN_RELEASE (R546). -/
def execProchotInRelease (s : State) : Host.Outcome State Fault Refusal :=
  let s1 := { s with pins := { s.pins with prochotIn := false } }
  .next (if s.unpowered then s1 else s1.prochotChanged s)

/-! ## The power limit (R544) -/

/-- The thermal step (`which` 0) or power step (1) of a cluster. -/
def State.setStep (s : State) (n which v : Nat) : State :=
  let x := s.get (Key.clusterSteps n)
  if fld x (8 * which) 8 = v then s else s.set (Key.clusterSteps n) (x - fld x (8 * which) 8 * 2 ^ (8 * which) + v * 2 ^ (8 * which))

/-- Clusters that are not fenced. -/
def State.liveClusters (s : State) : List Nat := (List.range 288).filter (fun n => !s.dieFenced (n / 4))

/-- Watts of a sum of microwatts; between two whole numbers, which is a free value (log entry 2). -/
def State.watts (s : State) (uw : Nat) : Nat := if uw % 1000000 = 0 then uw / 1000000 else uw / 1000000 + s.free % 2

/-- The power of a rail in µW, 0 without a regulator. -/
def State.railPower (s : State) (k : Nat) : Nat := if s.railPresent k then s.get (Key.railMv k) * s.get (Key.railMa k) else 0

/-- Every cluster's power step one down, or one up. -/
def State.stepPower (s : State) (down : Bool) : State :=
  s.liveClusters.foldl (fun s n =>
    let v := s.clusterStep n 1
    s.setStep n 1 (if down then (if 8 < v then v - 1 else v) else min 16 (v + 1))) s

/-- POWER_WINDOW_END (R544). -/
def execPowerWindowEnd (s : State) : Host.Outcome State Fault Refusal :=
  if s.packageHeld then .next s
  else
    let total := ((List.range 50).map s.railPower).foldl (· + ·) 0
    let s1 := settings.foldl (fun s n => (s.set (Key.settingPower n) (s.watts (s.railPower n))).tick) s
    let s2 := (s1.set Key.pkgPower (s1.watts total)).tick
    let w := s2.get Key.pkgPower
    let limit := s2.get Key.pkgPowerLimit
    if limit < w then
      let s3 := if s2.liveClusters.any (fun n => decide (8 < s2.clusterStep n 1)) then s2.count Key.powerLimitWindows 1 else s2
      .next (s3.changeSteps (·.stepPower true))
    else if 100 * w < 97 * limit then .next (s2.changeSteps (·.stepPower false))
    else .next s2

/-! ## Sensors and throttling (R545–R547) -/

/-- The throttle point, the limit and the trip point of a sensor, in 0.01 °C. -/
def sensorPoints (i : Nat) : Int × Int × Int :=
  if i < 288 then (10000, 10500, 11500) else if i < 320 then (9500, 10000, 11000) else (9000, 9500, 10500)

/-- The last sample of a sensor. -/
def State.sensorTemp (s : State) (i : Nat) : Int := sgn 32 (s.get (Key.temp i))

/-- The sensors that act on a cluster (R545). -/
def clusterSensors (n : Nat) : List Nat := [n, 288 + n / 12, 312 + 2 * (n / 72), 313 + 2 * (n / 72)]

/-- The sensors that act on a unit: a cluster, or 288 + s for the controller of stack s. -/
def unitSensors (u : Nat) : List Nat := if u < 288 then clusterSensors u else [320 + (u - 288)]

/-- The thermal step of a unit. -/
def State.thermalStep (s : State) (u : Nat) : Nat := if u < 288 then s.clusterStep u 0 else (look (u - 288) s.hbmSteps).getD 16

/-- The state with the thermal step of a unit set. -/
def State.setThermal (s : State) (u v : Nat) : State :=
  if u < 288 then s.setStep u 0 v
  else if s.thermalStep u = v then s else { s with hbmSteps := put (u - 288) v s.hbmSteps }

/-- One sample of one sensor. -/
def State.sampleSensor (s : State) (i : Nat) (t : Int) : State :=
  let pts := sensorPoints i
  let s1 := s.set (Key.temp i) (unsgn 32 t)
  let cool := if t ≤ pts.1 - 200 then (if (look i s1.thermal.coolAt).isSome then s1.thermal.coolAt else put i s1.ftime s1.thermal.coolAt)
    else drop' i s1.thermal.coolAt
  let s2 := { s1 with thermal := { s1.thermal with coolAt := cool } }
  if pts.2.1 ≤ t then s2.count Key.overLimitSamples 1 else s2

/-- The thermal trip (R547): the pin, the regulators, the clocks, and the sensor's number into the flash. -/
def State.trip (s : State) (i : Nat) : State :=
  let s1 := ({ s with thermal := { s.thermal with tripped := some i }, resets := [] }.emit (.pin 1 true)).setFlash Key.thermtripSensor i
  (List.range 50).foldl (fun s k => s.railCommand k 0) s1

/-- SENSOR_SAMPLE (R545–R547), also while PRST_N is low. Where several sensors trip in one sample, which is named is a free value (log entry 2). -/
def execSensorSample (readings : List (Nat × Int)) (s : State) : Host.Outcome State Fault Refusal :=
  if s.unpowered then .next s
  else
    let rs := readings.filter (fun r => decide (r.1 < 344))
    let trips := (rs.filter (fun r => decide ((sensorPoints r.1).2.2 ≤ r.2) && decide ((sensorPoints r.1).2.2 ≤ s.sensorTemp r.1))).map Prod.fst
    let s1 := rs.foldl (fun s r => s.sampleSensor r.1 r.2) s
    let hot := fun (u : Nat) => (unitSensors u).any (fun i => decide ((sensorPoints i).2.1 ≤ s1.sensorTemp i))
    let s2 := s1.changeSteps (fun s => ((List.range 312).filter hot).foldl (fun s u => s.setThermal u 8) s)
    match trips[s2.free % trips.length]? with
    | some i => .next (s2.tick.trip i)
    | none => .next s2

/-- THERMAL_STEP_DOWN (R546): no effect on a unit none of whose sensors is at its throttle point. -/
def execThermalStepDown (unit : Nat) (s : State) : Host.Outcome State Fault Refusal :=
  let hot := (unitSensors unit).any (fun i => decide ((sensorPoints i).1 ≤ s.sensorTemp i))
  if s.packageHeld ∨ 312 ≤ unit ∨ hot = false then .next s
  else .next (s.changeSteps (fun s => s.setThermal unit (max 8 (s.thermalStep unit - 1))))

/-- THERMAL_STEP_UP (R546): every sensor that acts on the unit has been cool for 1 ms. -/
def execThermalStepUp (unit : Nat) (s : State) : Host.Outcome State Fault Refusal :=
  let cool := (unitSensors unit).all (fun i => (look i s.thermal.coolAt).any (fun t => decide (t + 1000000 ≤ s.ftime)))
  if s.packageHeld ∨ 312 ≤ unit ∨ cool = false then .next s
  else .next (s.changeSteps (fun s => s.setThermal unit (min 16 (s.thermalStep unit + 1))))

/-- The microseconds that units which are not fenced spend below step 16 for thermal reasons (R546), and the nanoseconds of stretch (R540), of
one tick. -/
def State.tickPower (s : State) : State :=
  if s.packageHeld then s
  else
    let s1 := (s.supplies.filter (fun x => x.2.stretched && s.monitors x.1)).foldl (fun s x => s.count (Key.vinStretchNs x.1) 1) s
    if s1.ftime % 1000 ≠ 0 then s1
    else
      let s2 := (s1.liveClusters.filter (fun n => decide (s1.clusterStep n 0 < 16))).foldl (fun s n => s.count (Key.thermalThrottleUs n) 1) s1
      (s2.hbmSteps.filter (fun x => decide (x.2 < 16) && !s2.settingFenced x.1)).foldl (fun s x => s.count (Key.hbmThrottleUs x.1) 1) s2

/-! ## References (R543) -/

/-- REFCLK_LOSS (R543): generators hold open-loop; fabric time goes on. -/
def execRefclkLoss (s : State) : Host.Outcome State Fault Refusal :=
  if s.packageHeld ∨ s.pins.refclk100 = false then .next s
  else .next ({ s with pins := { s.pins with refclk100 := false } }.count Key.refclkLoss 1)

/-- REFCLK_RETURN (R543). -/
def execRefclkReturn (s : State) : Host.Outcome State Fault Refusal := .next { s with pins := { s.pins with refclk100 := true } }

/-- REFCLK156_LOSS (R543): the trained links of the rim die go down; one in training leaves it. -/
def execRefclk156Loss (rim : Rim) (s : State) : Host.Outcome State Fault Refusal :=
  if s.packageHeld then .next s
  else
    .next ((rimLinks rim.val).foldl (fun s l =>
      if 3 ≤ (s.link l).st then s.linkGoesDown l else if (s.link l).st = 2 then s.dropLink l 1 else s)
      (s.count (Key.refclk156Loss rim.val) 1)).pump

end Sys2Proof.Machine
end

