-- ==== Sys2Proof/Machine/Secure.lean ====
section
/-!
DEFINITION. Secure boot, identity and attestation (R516–R534): signature blocks, firmware images, the commit of fuses, Signet reports
and debug authorisation.
-/
namespace Sys2Proof.Machine

/-! ## Signature blocks (R518, R519) -/

/-- How the signature block that ends an object verifies for a use: 0 it does, 1 a reserved value, 2 the key digest or the signature,
3 a revoked slot; the first that fails. -/
def State.sigCheck (s : State) (domain : Nat) (obj : List Byte) : Nat :=
  let body := obj.take (obj.length - 192)
  let blk := obj.drop (obj.length - 192)
  let b := leNat blk
  let slot := fld b 16 8
  let key := (blk.drop 8).take 57
  let digest := s.fuses.digests.getD slot []
  let msg := shake256 ([BitVec.ofNat 8 domain, BitVec.ofNat 8 slot] ++ body) 64
  if blk.length ≠ 192 ∨ fld b 0 16 ≠ 0x516E ∨ 4 ≤ slot ∨ fld b 24 8 ≠ domain then 1
  else if digest.all (· == 0) ∨ shake256 key 32 ≠ digest then 2
  else if bit s.fuses.revoked slot then 3
  else if ed448Valid key msg ((blk.drop 66).take 114) then 0
  else 2

/-! ## Firmware images (R522, R524) -/

/-- A firmware slot of the flash. -/
def Firmware.slot (f : Firmware) (k : Nat) : Mem := if k = 0 then f.slotA else f.slotB

/-- The firmware with a slot replaced. -/
def Firmware.setSlot (f : Firmware) (k : Nat) (m : Mem) : Firmware := if k = 0 then { f with slotA := m } else { f with slotB := m }

/-- The bytes of the image in a slot. -/
def State.imageOf (s : State) (k : Nat) : List Byte :=
  let m := s.fw.slot k
  m.readN 0 (fld (m.num 0 64) 80 32)

/-- The check of the image in a slot (R522, R524): 0 it may run, 1 invalid, 2 not verified, 3 revoked, 4 below the fused version. -/
def State.imageCheck (s : State) (k : Nat) : Nat :=
  let h := (s.fw.slot k).num 0 64
  let len := fld h 80 32
  if fld h 0 16 ≠ 0xF1B0 ∨ fld h 16 8 ≠ 1 ∨ 64 < fld h 64 8 ∨ len % 64 ≠ 0 ∨ len < 256 ∨ 0x1000000 < len then 1
  else
    match s.sigCheck 1 (s.imageOf k) with
    | 0 => if fld h 64 8 < s.fuses.svn then 4 else 0
    | v => v

/-- The counter of a boot failure (R524). -/
def bootCounter (v : Nat) : Ent :=
  match v with
  | 1 => Key.bootImageInvalid
  | 2 => Key.bootVerifyFails
  | 3 => Key.bootRevokedRefused
  | _ => Key.bootRollbackRefused

/-- The slot that an update or staged data goes to: the one that does not run, or FW_NEXT_SLOT in recovery (R527). -/
def State.targetSlot (s : State) : Nat := if s.get Key.pkgState = 2 then s.get Key.fwNextSlot else 1 - s.fw.running

/-- The image in a slot runs (R524). -/
def State.runImage (s : State) (k : Nat) : State :=
  let h := (s.fw.slot k).num 0 64
  let img := s.imageOf k
  let blk := leNat (img.drop (img.length - 192))
  ({ s with fw := { s.fw with running := k, svn := fld h 64 8, keySlot := fld blk 16 8, revoke := fld h 72 4,
                              digest := shake256 (img.take (img.length - 192)) 32, tried := [] } }).set Key.fwBuild (fld h 32 32)

/-- A device range lies in the usable space of one stack (R317). -/
def State.usableRange (s : State) (a len : Nat) : Bool := decide (devSetting a < 24) && (s.stack (devSetting a)).writable (devOffset a) len

/-- The bytes of an image or a bundle in HBM: nothing outside the usable space, where a line is uncorrectable, or in recovery, where HBM is not
started (R525). -/
def State.fetchObject (s : State) (a len : Nat) : State × Option (List Byte) :=
  if len = 0 ∨ s.get Key.pkgState = 2 ∨ s.usableRange a len = false then (s, none) else s.devRead a len

/-- An update is refused. -/
def State.refuseUpdate (s : State) (status : Nat) : State :=
  (({ s with fw := { s.fw with update := none } }.set Key.fwUpdateStatus status).count Key.fwUpdateRefused 1)

/-- The update ends (R527): written, read back and checked, or refused. A write that failed leaves the slot undefined. -/
def State.endUpdate (s : State) (writeOk : Bool) : State :=
  match s.fw.update with
  | none => s
  | some (a, len, k) =>
    if writeOk = false then { s with fw := s.fw.setSlot k s.undefMem }.tick.refuseUpdate 6
    else
      let src := if a = 0xFFFFFFFFFF then (s, some []) else if 0x1000000 < len then (s, none) else s.fetchObject a len
      match src.2 with
      | none => src.1.refuseUpdate 3
      | some bs =>
        let s1 := { src.1 with fw := src.1.fw.setSlot k ((src.1.fw.slot k).writeN 0 bs) }
        match s1.imageCheck k with
        | 0 => ({ s1 with fw := { s1.fw with update := none } }.set Key.fwUpdateStatus 2).setFlash Key.fwNextSlot k
        | v => (s1.count (bootCounter v) 1).refuseUpdate (if v = 1 then 3 else if v = 4 then 5 else 4)

/-- A write of FW_UPDATE that is accepted. -/
def State.startUpdate (s : State) (v : Nat) : State :=
  { s with fw := { s.fw with update := some (fld v 0 40, 64 * fld v 40 24, s.targetSlot) } }.set Key.fwUpdateStatus 1

/-- A write of FW_STAGE_DATA that is accepted. -/
def State.stageImage (s : State) (bs : List Byte) : State :=
  let off := s.get Key.fwStageOffset
  let k := s.targetSlot
  { s with fw := s.fw.setSlot k ((s.fw.slot k).writeN off bs) }.set Key.fwStageOffset (off + 32)

/-! ## Fuses (R526) -/

/-- A write of 1 to ROLLBACK_COMMIT begins the commit. A power loss before it is over leaves each fuse blown or intact (`State.cutCommit`). -/
def State.rollbackCommit (s : State) : State := { s with fw := { s.fw with committing := true } }

/-- The fuses of the running image are blown. -/
def State.blowFuses (s : State) : State :=
  let c := s.commitFuses
  { s with fuses := { s.fuses with svn := c.1, revoked := s.fuses.revoked + (c.2.map (2 ^ ·)).foldl (· + ·) 0 },
           fw := { s.fw with committing := false } }

/-- A commit in progress is over at a tick, or takes longer, by a free value (log entry 54). -/
def State.tickCommit (s : State) : State :=
  if s.fw.committing = false then s else if s.free % 2 = 1 then s.tick.blowFuses else s.tick

/-! ## Signet (R530) -/

/-- HALLMARK_DIGEST. -/
def State.hallmarkDigest (s : State) : List Byte :=
  shake256 ((List.range 8).flatMap (fun i =>
    match look i s.hall.slots with
    | some b => shake256 b 32
    | none => List.replicate 32 0)) 32

/-- Every flash entry with its family, by rising index and subindex. -/
def flashEntries : List (Nat × EntryRow) :=
  (dictRows.filter (fun r => r.persist == 2)).foldl (fun l r =>
    (List.range r.count).foldl (fun l i => (List.range r.subs).foldl (fun l k => put (256 * (r.index + i) + r.sub + k) r l) l) l) []

/-- CONFIG_DIGEST. -/
def State.configDigest (s : State) : List Byte :=
  shake256 (flashEntries.flatMap (fun e =>
    leBytes 2 (e.1 / 256) ++ leBytes 1 (e.1 % 256)
      ++ leBytes e.2.size (s.entryNat e.2 (e.1 / 256 - e.2.index) (e.1 % 256 - e.2.sub)))) 32

/-- The first 192 bytes of a Signet report. -/
def State.reportBody (s : State) (nonce : List Byte) : List Byte :=
  leBytes 32 (0x5161 + 2 ^ 16 + b2n s.fuses.gradeB * 2 ^ 24 + s.fuses.serial % 2 ^ 64 * 2 ^ 32 + s.get Key.fwBuild % 2 ^ 32 * 2 ^ 96
      + s.fw.running * 2 ^ 128 + s.fuses.svn % 256 * 2 ^ 136 + s.fw.keySlot * 2 ^ 144 + s.fuses.revoked % 16 * 2 ^ 152
      + s.get Key.debugState * 2 ^ 160 + s.ftime * 2 ^ 192)
    ++ (nonce ++ List.replicate 32 0).take 32 ++ (s.fw.digest ++ List.replicate 32 0).take 32 ++ s.hallmarkDigest ++ s.configDigest
    ++ List.replicate 32 0

/-- A nonce is written: a new report, signed with the identity key. -/
def State.signetReport (s : State) (nonce : List Byte) : State :=
  let body := s.reportBody nonce
  let seed := shake256 ("XH-440 ID".toList.map (fun c => BitVec.ofNat 8 c.toNat) ++ s.fuses.seed) 57
  let sig := ed448Sign seed (shake256 ([(4 : Byte)] ++ body) 64)
  let all := body ++ (sig ++ List.replicate 114 0).take 114 ++ List.replicate 14 0
  ((List.range 5).foldl (fun s i => s.set (Key.signetReport i) (leNat ((all.drop (64 * i)).take 64))) s).count Key.signetReports 1

/-! ## Debug paths and authorisation (R532, R533) -/

/-- The TAP answers an instruction of IEEE 1149.1: IDCODE and BYPASS always, others only with boundary scan in the scope (R532). -/
def State.tapAnswers (s : State) (idcodeOrBypass : Bool) : Bool := idcodeOrBypass || bit (s.get Key.debugState) 0

/-- An external request reaches the debug side-path (R532). Locket capture, swap copies and Hallmark use it regardless. -/
def State.sidePathOpen (s : State) : Bool := bit (s.get Key.debugState) 1

/-- The check of a complete authorisation. -/
def State.authCheck (s : State) (auth : List Byte) : Bool :=
  let b := leNat (auth.take 64)
  fld b 0 16 == 0xDEB6 && fld b 64 64 == s.fuses.serial && fld b 128 256 == s.challenge && s.sigCheck 3 auth == 0

/-- A part of an authorisation is written; the last one brings the check. The parts must come in their order. -/
def State.debugPart (s : State) (part : Nat) (bs : List Byte) : State :=
  let ps := if part = 0 then [(0, bs)] else s.dbg.parts ++ [(part, bs)]
  if part < 3 then { s with dbg := { s.dbg with parts := ps } }
  else
    let auth := ps.flatMap (·.2)
    let ok := ps.map (·.1) == [0, 1, 2, 3] && s.authCheck auth
    let redraw := fun (s : State) => (({ s with dbg := Debug.fresh }).set Key.debugChallenge (leNat (s.freeBytes 32))).tick
    if ok then redraw ((s.set Key.debugState (fld (leNat (auth.take 64)) 16 3)).count Key.debugAuthGrants 1)
    else redraw (s.count Key.debugAuthRefused 1)

end Sys2Proof.Machine
end

