-- ==== Sys2Proof/Machine/Silent.lean ====
section
/-!
DEFINITION. Silent errors and in-field test (R498–R515): bundles, tests, the rotation and swap points.
-/
namespace Sys2Proof.Machine

/-! ## Bundles (R500–R502) -/

/-- A piece table entry holds values in their ranges and its image lies in the bundle (R501). -/
def pieceOk (total e : Nat) : Bool :=
  let code := fld e 32 17
  let data := fld e 64 21
  let addr := fld e 128 21
  let len := fld e 160 21
  fld e 0 32 % 64 == 0 && decide (4 ≤ code) && decide (code ≤ 65536) && code % 4 == 0 && decide (data ≤ 1048576) && data % 64 == 0
    && fld e 96 16 % 4 == 0 && decide (1 ≤ fld e 112 16) && decide (fld e 112 16 ≤ 1000) && addr % 64 == 0 && decide (0x100000 ≤ addr)
    && decide (64 ≤ len) && decide (len ≤ 1048576) && len % 64 == 0 && decide (addr + len ≤ 0x200000)
    && decide (fld e 0 32 + code + data ≤ total)

/-- The piece table entries of a bundle. -/
def bundlePieces (b : List Byte) : List (List Byte) :=
  (List.range (fld (leNat (b.take 64)) 24 8)).map (fun i => (b.drop (64 * (i + 1))).take 64)

/-- The header and the piece table of a bundle hold no reserved value and the ranges lie inside it (R500, R501). -/
def bundleOk (b : List Byte) : Bool :=
  let h := leNat (b.take 64)
  let n := fld h 24 8
  fld h 0 16 == 0x11A7 && fld h 16 8 == 1 && decide (1 ≤ n) && decide (n ≤ 16) && fld h 32 32 != 0 && b.length % 64 == 0
    && decide (b.length ≤ 8388608) && decide (64 + 64 * n + 192 ≤ b.length)
    && (bundlePieces b).all (fun e => pieceOk b.length (leNat e))

/-- The identifiers of the installed bundles by slot. -/
def State.bundleSlots (s : State) : List (Nat × Nat) := s.hall.slots.map (fun b => (b.1, fld (leNat (b.2.take 64)) 32 32))

/-- The slot a bundle takes: that of the bundle it replaces, or a free one (log entry 8). -/
def State.bundleSlot (s : State) (id : Nat) : Option Nat :=
  match s.bundleSlots.find? (fun b => b.2 == id) with
  | some b => some b.1
  | none => (List.range 8).find? (fun k => (look k s.hall.slots).isNone)

/-- An install is refused. -/
def State.refuseInstall (s : State) (status : Nat) : State :=
  (({ s with hall := { s.hall with install := none } }.set Key.hallmarkInstallStatus status).count Key.hallmarkInstallRefused 1)

/-- An install ends (R502): 3 reserved value or range, 4 not verified, 5 store full, 2 installed. -/
def State.endInstall (s : State) : State :=
  match s.hall.install with
  | none => s
  | some (a, len) =>
    let r := s.fetchObject a len
    match r.2 with
    | none => r.1.refuseInstall 3
    | some bs =>
      let total := fld (leNat (bs.take 64)) 96 32
      let b := bs.take total
      if b.length ≠ total ∨ bundleOk b = false then r.1.refuseInstall 3
      else if r.1.sigCheck 2 b ≠ 0 then r.1.refuseInstall 4
      else
        let id := fld (leNat (b.take 64)) 32 32
        let rest := (r.1.hall.slots.filter (fun x => fld (leNat (x.2.take 64)) 32 32 != id)).foldl (fun n x => n + x.2.length) 0
        match r.1.bundleSlot id with
        | none => r.1.refuseInstall 5
        | some k =>
          if 16777216 < rest + total then r.1.refuseInstall 5
          else
            ({ r.1 with hall := { r.1.hall with install := none, slots := put k b r.1.hall.slots } }.set Key.hallmarkInstallStatus 2).count
              Key.hallmarkInstalls 1

/-- HALLMARK_INSTALL_DONE (R502). No effect while no install is in progress or its controller accepts nothing. -/
def execHallmarkInstallDone (s : State) : Host.Outcome State Fault Refusal :=
  match s.hall.install with
  | some (a, _) => if devSetting a < 24 ∧ (s.stack (devSetting a)).lost = false ∧ s.controllerOpen (devSetting a) = false then .next s
    else .next (s.whileUp State.endInstall)
  | none => .next s

/-! ## Tests (R503–R505, R509) -/

/-- Fields of a piece table entry (R501). -/
def pCode (e : List Byte) : Nat := fld (leNat (e.take 64)) 32 17
def pData (e : List Byte) : Nat := fld (leNat (e.take 64)) 64 21
def pEntry (e : List Byte) : Nat := fld (leNat (e.take 64)) 96 16
def pTimeMs (e : List Byte) : Nat := fld (leNat (e.take 64)) 112 16
def pResult (e : List Byte) : Nat × Nat := (fld (leNat (e.take 64)) 128 21, fld (leNat (e.take 64)) 160 21)
def pExpect (e : List Byte) : Nat := fld (leNat (e.take 64)) 192 256

/-- The pieces of a bundle: each table entry with its image, code and data. -/
def bundleImages (b : List Byte) : List (List Byte) :=
  (bundlePieces b).map (fun e => e ++ (b.drop (fld (leNat e) 0 32)).take (pCode e + pData e))

/-- The pieces of the installed bundles in slot and piece order (R503). -/
def State.testPieces (s : State) : List (Nat × Nat × List Byte) :=
  s.hall.slots.flatMap (fun b => (bundleImages b.2).zipIdx.map (fun e => (b.1, e.2, e.1)))

/-- A core as a piece begins in it (R503): code and data in place, the upper half of the scratchpad zero, and every core-level state as at
program load, the primary at ENTRY with the piece's number in g1. Bytes that the rule does not name keep their contents. -/
def Core.pieceLoaded (c : Core) (number : Nat) (e : List Byte) : Core :=
  { Core.fresh with
    sp := (c.sp.writeN 0x100000 (List.replicate 0x100000 0)).writeN 0 ((e.drop (64 + pCode e)).take (pData e)),
    ibuf := c.ibuf.writeN 0 ((e.drop 64).take (pCode e)),
    primary := { (Ctx.fresh.set 1 (BitVec.ofNat 64 number)) with pc := BitVec.ofNat 16 (pEntry e), st := .ready } }

/-- A piece's result region holds what the piece expects (R504). -/
def Core.pieceMatches (c : Core) (number : Nat) (e : List Byte) : Bool :=
  let r := pResult e
  leNat (shake256 (leBytes 1 number ++ c.sp.readN r.1 r.2) 32) == pExpect e

/-- INTERVAL of a cluster (R509). -/
def State.testInterval (s : State) (n : Nat) : Nat := max 1 (s.get Key.rotationPeriod / (s.goodCores n).length)

/-- A test in progress is over: it leaves the list. -/
def State.endTest (s : State) (t : HallTest) : State :=
  { s with hall := { s.hall with tests := s.hall.tests.filter (fun x => !(x.cluster == t.cluster && x.core == t.core)) } }

/-- A test passes: the core is clean from the step on, no longer suspect, and has passed (R507, R509). -/
def State.testPass (s : State) (t : HallTest) (ran : Bool) : State :=
  let p := 17 * t.cluster + t.core
  let m := s.get (Key.suspectMask t.cluster)
  let s0 := s.endTest t
  let s1 := { s0 with hall := { s0.hall with
    passed := if s.hall.passed.contains p then s.hall.passed else s.hall.passed ++ [p],
    overdue := if ran then s.hall.overdue.filter (· != p) else s.hall.overdue } }
  let s2 := if ran then s1.set (Key.lastCleanStep t.cluster t.core) t.step else s1
  ((s2.set (Key.suspectMask t.cluster) (if bit m t.core then m - 2 ^ t.core else m)).noteTarget t.cluster).count
    (Key.hallmarkPasses t.cluster) 1

/-- A core becomes failed (R504, R513): never a spare until a test passes again. -/
def State.markFailed (s : State) (n q : Nat) : State :=
  (({ s with hall := { s.hall with passed := s.hall.passed.filter (· != 17 * n + q) } }).setFlash (Key.failedMask n)
    (s.get (Key.failedMask n) ||| 2 ^ q)).noteTarget n

/-- A test fails (R504): the core is reset without capture and becomes failed. A core that fails in the quick check is noted until that ends
(R513). -/
def State.testFail (s : State) (t : HallTest) : State :=
  let s1 := s.endTest t
  let p := 17 * t.cluster + t.core
  if t.quick then { s1 with hall := { s1.hall with quickBad := s1.hall.quickBad ++ [p] } }
  else ((s1.markFailed t.cluster t.core).count (Key.hallmarkFails t.cluster) 1).requestReset (1, 0, p) 0 false

/-- A test ends with every piece passed. -/
def State.testDone (s : State) (t : HallTest) (ran : Bool) : State := if t.quick then s.endTest t else s.testPass t ran

/-- The next piece of a test begins. -/
def State.startPiece (s : State) (t : HallTest) : State :=
  let p := 17 * t.cluster + t.core
  match t.pieces with
  | [] => s
  | e :: _ => s.setCore p ((s.core p).pieceLoaded e.2.1 e.2.2)

/-- A test of a spare core starts at a swap point (R503, R509). With no bundle installed it passes at once. -/
def State.startTest (s : State) (n q step : Nat) : State :=
  let t : HallTest := { cluster := n, core := q, pieces := s.testPieces, step := step, began := s.ftime }
  let s1 := ((({ s with hall := { s.hall with tests := s.hall.tests ++ [t], last := put n q s.hall.last } }.set (Key.nextDueStep n)
    ((step + s.testInterval n) % 2 ^ 32)).noteTarget n).count (Key.hallmarkTests n) 1)
  if t.pieces.isEmpty then s1.testPass t false else s1.startPiece t

/-- A piece passes: the next one begins, or the test passes. -/
def State.piecePass (s : State) (t : HallTest) : State :=
  if t.pieces.length ≤ 1 then s.testDone t true
  else
    let u := { t with pieces := t.pieces.drop 1, began := s.ftime, mail := [] }
    { s with hall := { s.hall with tests := s.hall.tests.map (fun x => if x = t then u else x) } }.startPiece u

/-- The time of the piece that a test runs is over (R504). -/
def State.pieceLate (s : State) (t : HallTest) : Bool := t.pieces.head?.any (fun e => decide (t.began + 1000000 * pTimeMs e.2.2 ≤ s.ftime))

/-- The primary of a core under test has halted by HALT: the piece passes where the signature of its result region is EXPECT (R504). -/
def State.pieceHalts (s : State) (t : HallTest) : State :=
  match t.pieces with
  | [] => s.testDone t true
  | e :: _ => if (s.core (17 * t.cluster + t.core)).pieceMatches e.2.1 e.2.2 then s.piecePass t else s.testFail t

/-- A core in which the comparison has found a difference (R512): both physical cores become suspect, and a core reset without capture of the
logical core is requested, which holds and resets the copy's core with it. -/
def State.lockstepMismatch (s : State) (p : Nat) : State :=
  let n := physCluster p
  let copy := s.lockCopy p
  let s1 := copy.elim (s.markSuspect p) (s.markSuspect p).markSuspect
  let s2 := (s1.count (Key.lockstepMismatches n) 1).requestReset (1, 0, p) 0 false
  let s3 := s2.updCore p (fun c => { c with crc := {} })
  match copy with
  | none => s3
  | some q =>
    { s3.resetCore q with resets := s3.resets ++ (s3.resets.filter (fun j => j.dom == (1, 0, p))).map (fun j => { j with target := q }) }

/-- Full redundancy in one tick (R511, R512): a free value says whether a defect makes the copy of some core stray (log entry 32), and the cores in
which a comparison has found a difference are stopped and reset. -/
def State.tickLockstep (s : State) : State :=
  if s.redundant = false ∨ s.flag Key.redundancyEnable = false then s
  else
    let s1 := match s.physOf (s.free % 16384) with
      | some p => s.updCore p (fun c => { c with crc := { c.crc with copy := c.crc.copy ^^^ (s.tick.free % 2 ^ 64) } })
      | none => s
    ((s1.cores.map Prod.fst).filter (fun p => (s1.core p).crc.differs)).foldl State.lockstepMismatch s1.tick.tick

/-- HALLMARK_PIECE_TIMEOUT (R504): no effect while the time of the piece is not over. -/
def execHallmarkPieceTimeout (cluster : Cluster) (s : State) : Host.Outcome State Fault Refusal :=
  match s.hall.tests.find? (fun t => t.cluster == cluster.val && s.pieceLate t) with
  | some t => if s.packageHeld then .next s else .next (s.testFail t)
  | none => .next s

/-- The guardband (R503): the clock of a physical core in sixteenths of 1,700/20 MHz, 21/20 of its cluster's while it is under test, and its
supply in hundredths of a millivolt, 0.97 of its cluster rail then. -/
def State.guardband (s : State) (p : Nat) : Nat × Nat :=
  let n := physCluster p
  if s.testing p then (21 * s.clockStep n, 97 * s.get (Key.clusterMv n)) else (20 * s.clockStep n, 100 * s.get (Key.clusterMv n))

/-! ## Swap points (R506–R509, R513) -/

/-- LAST_CLEAN_STEP of a core. -/
def State.cleanStep (s : State) (n q : Nat) : Nat := s.get (Key.lastCleanStep n q)

/-- The first swap point of a cluster after a cold initialisation: cores with no step yet take this one (R513). -/
def State.firstSwapPoint (s : State) (n step : Nat) : State :=
  (List.range 17).foldl (fun s q => if s.cleanStep n q = 0xFFFFFFFF then s.set (Key.lastCleanStep n q) step else s) s

/-- The good cores of a cluster whose last passing test lies more than ROTATION_PERIOD below SWAP_STEP (R509). -/
def State.tooOld (s : State) (n : Nat) : List Nat :=
  ((s.goodCores n).map (fun q => 17 * n + q.val)).filter (fun p =>
    let age := (s.get (Key.swapStep n) + 2 ^ 32 - s.cleanStep n (p % 17)) % 2 ^ 32
    decide (age < 2 ^ 31) && decide (s.get Key.rotationPeriod < age))

/-- A core that crosses that bound counts once (R509). -/
def State.countOverdue (s : State) (n : Nat) : State :=
  let old := s.tooOld n
  let rest := s.hall.overdue.filter (fun p => p / 17 != n)
  ({ s with hall := { s.hall with overdue := rest ++ old } }).count (Key.testsOverdue n)
    (old.filter (fun p => !s.hall.overdue.contains p)).length

/-- SWAP_STEP and what follows from it at a swap point of step `step`. -/
def State.swapPoint (s : State) (n step : Nat) : State :=
  let first := (List.range 17).any (fun q => s.cleanStep n q == 0xFFFFFFFF)
  let s1 := if first then s.firstSwapPoint n step else s
  let s2 := if first || reached step (s1.get (Key.swapStep n)) then s1.set (Key.swapStep n) step else s1
  (s2.countOverdue n).noteTarget n

/-- The core is quiescent at SWAPPT (R507): its companion is not in the running state of R45. -/
def State.quiescent (s : State) (p : Nat) : Bool :=
  let c := s.core p
  [0, 1, 2].all (fun e => (c.engine e).queue.isEmpty && (c.engine e).started.isEmpty) && c.ops.isEmpty
    && !s.msgs.any (fun m => m.2.owner == p) && c.companion.st != .ready

/-- Free spares of a cluster (R507). -/
def State.freeSpares (s : State) (n : Nat) : List Nat :=
  (List.range 17).filter (fun q => s.isSpare n q && s.hall.passed.contains (17 * n + q)
    && !s.swaps.any (fun w => w.toPhy == 17 * n + q || w.copy.any (fun c => c.2 == 17 * n + q)))

/-- A test is due in a cluster: SWAP_STEP has reached NEXT_DUE_STEP (R509), or a good core is suspect, which is tested at its next swap point
(R510); and no test or swap is running. -/
def State.testDue (s : State) (n : Nat) : Bool :=
  s.flag Key.rotationEnable && s.watches (n / 12)
    && (reached (s.get (Key.swapStep n)) (s.get (Key.nextDueStep n)) || (s.goodCores n).any (fun q => bit (s.get (Key.suspectMask n)) q.val))
    && (s.underTest n).isNone
    && !s.swaps.any (fun w => w.cluster == n || w.copy.any (fun c => physCluster c.1 == n))

/-- The clusters that a swap point of a core of cluster `n` concerns: its own, and under full redundancy that of the copies (R31, R508). -/
def State.lockstepOf (s : State) (n : Nat) : List Nat := if s.redundant ∧ n % 2 = 0 then [n, n + 1] else [n]

/-- The physical core of cluster `m` that holds what core `p` holds: itself, or its lockstep copy. -/
def State.copyIn (s : State) (p m : Nat) : Option Nat :=
  if m = physCluster p then some p
  else (((s.clusterMap (physCluster p)).findIdx? (fun q => q.val == p % 17)).bind (s.mappedCore m)).map (17 * m + ·)

/-- A free spare of a cluster; which one is free (log entry 2). -/
def State.pickSpare (s : State) (n : Nat) : Option Nat :=
  let fs := s.freeSpares n
  (fs[s.free % fs.length]?).map (17 * n + ·)

/-- SWAPPT in the primary context with step `step`, after the swap point has been declared: the code for RD, or the swap that begins. -/
def State.swapDecide (s : State) (p step : Nat) : State × Option Nat :=
  let ns := s.lockstepOf (physCluster p)
  let due := ns.filterMap (fun n => if s.testDue n then (s.testTarget n).map (fun q => (n, q)) else none)
  let s1 := (due.filter (fun t => s.isSpare t.1 t.2)).foldl (fun s t => s.startTest t.1 t.2 step) s
  let mine := due.filter (fun t => !s.isSpare t.1 t.2 && s.copyIn p t.1 == some (17 * t.1 + t.2))
  if mine.isEmpty then (s1, some 0)
  else if s1.quiescent p = false then (mine.foldl (fun s t => s.count (Key.swapNotQuiescent t.1) 1) s1, some 2)
  else
    match ns.mapM s1.pickSpare with
    | some (k :: ks) =>
      let w : Swap := { cluster := physCluster p, fromPhy := p, toPhy := k, step := step, waiting := [],
                        copy := (ks.head?).bind (fun c => (s1.copyIn p (physCluster p + 1)).map (fun f => (f, c))) }
      ({ s1 with swaps := s1.swaps ++ [w] }.tick, none)
    | _ => (mine.foldl (fun s t => s.count (Key.testsDeferredNoSpare t.1) 1) s1, some 3)

/-- SWAPPT (R506–R509). In the companion context it is no swap point and RD is 0. -/
def execSwappt (core : CoreId) (rd ra : Reg) (s : State) : Host.Outcome State Fault Refusal :=
  ctuOp core s fun p x s =>
    if (s.core p).onComp then s.putCtx p (x.set rd 0).advance
    else
      let step := (x.get ra).toNat % 2 ^ 32
      let r := ((s.lockstepOf (physCluster p)).foldl (fun s n => s.swapPoint n step) (s.lockCheck p)).swapDecide p step
      match r.2 with
      | some v => r.1.putCtx p (x.set rd (BitVec.ofNat 64 v)).advance
      | none => r.1.putCtx p { x with stall := some (.swap rd) }

/-- The core as the copy of R508 leaves the spare: everything but the staging buffers. -/
def Core.swapped (c : Core) : Core := { c with stageA := none, stageB := none }

/-- A held arrival lands once the map has changed (R508). -/
def State.landHeld (s : State) (p : Packet) : State :=
  match p.op.toNat with
  | 2 => s.receiveGet p
  | 3 => s.receiveSend p
  | 0x20 => s.receiveGather p
  | _ => s.receiveWrite p

/-- Two physical cores of one cluster change places in its map (R508). -/
def State.swapMap (s : State) (a b : Nat) : State :=
  let x : Fin 17 := Fin.ofNat 17 a
  let y : Fin 17 := Fin.ofNat 17 b
  let n := physCluster a
  { s with cmap := put n ((s.clusterMap n).map (fun v => if v = x then y else if v = y then x else v)) s.cmap }

/-- The lockstep copy moves with the core, which is now on `p`, and its own core becomes a spare under test. -/
def State.swapCopy (s : State) (p step : Nat) (c : Nat × Nat) : State :=
  let n := physCluster c.1
  let s1 := ((s.setCore c.2 (s.core p)).swapMap c.1 c.2).count (Key.swaps n) 1
  if (s1.underTest n).isSome then s1 else s1.startTest n (c.1 % 17) step

/-- Steps 2 to 4 of a swap: the copy, the map, the test, the held arrivals. -/
def State.endSwap (s : State) (w : Swap) (rd : Reg) : State :=
  let n := w.cluster
  let s1 := (s.setCore w.toPhy (s.core w.fromPhy).swapped).swapMap w.fromPhy w.toPhy
  let zone := fun (z : Nat × Nat × Nat × Nat) => if z.2.1 = w.fromPhy + 1 then (z.1, w.toPhy + 1, z.2.2) else z
  let s2 := { s1 with swaps := s1.swaps.filter (fun v => v != w), seq := { s1.seq with zones := s1.seq.zones.map zone } }
  let x := (s2.core w.toPhy).ctx
  let s3 := (s2.putCtx w.toPhy { (x.set rd 1).advance with stall := none }).count (Key.swaps n) 1
  let s4 := w.copy.elim s3 (s3.swapCopy w.toPhy w.step)
  w.waiting.foldl State.landHeld (if (s4.underTest n).isSome then s4 else s4.startTest n (w.fromPhy % 17) w.step)

/-- SWAPPT_COMPLETE (R508). No effect where no swap of the core is in progress. -/
def execSwapptComplete (core : CoreId) (s : State) : Host.Outcome State Fault Refusal :=
  match s.physOf core.toNat with
  | none => .next s
  | some p =>
    match (s.core p).ctx.stall, s.swaps.find? (fun w => w.fromPhy == p) with
    | some (.swap rd), some w => if s.coreHeld p then .next s else .next (s.endSwap w rd)
    | _, _ => .next s

/-! ## Management (R502, R515) -/

/-- A write of HALLMARK_INSTALL that is accepted. -/
def State.startInstall (s : State) (v : Nat) : State :=
  { s with hall := { s.hall with install := some (fld v 0 40, 64 * fld v 40 24) } }.set Key.hallmarkInstallStatus 1

/-- A write of HALLMARK_REMOVE with an installed identifier. -/
def State.removeBundle (s : State) (id : Nat) : State :=
  { s with hall := { s.hall with slots := s.hall.slots.filter (fun b => fld (leNat (b.2.take 64)) 32 32 != id) } }

/-- A write of FAILED_MASK that clears bits: the cores must pass a test before they are free. -/
def State.clearFailed (s : State) (n v : Nat) : State :=
  let gone := (List.range 17).filter (fun q => bit (s.get (Key.failedMask n)) q && !bit v q)
  (({ s with hall := { s.hall with passed := s.hall.passed.filter (fun p => !gone.any (fun q => p == 17 * n + q)) } }).setFlash
    (Key.failedMask n) v).noteTarget n

end Sys2Proof.Machine
end

