-- ==== Sys2Proof/Machine/Startup.lean ====
section
/-!
DEFINITION. Power-up and start-up (R549–R559): the pins that start and stop the package, boot, the quick check, the training of the
stacks, readiness, and the failures of a start.
-/
namespace Sys2Proof.Machine

/-! ## The start (R549, R551, R571) -/

/-- Every capture and reset in progress ends (R486, R551). -/
def State.endResets (s : State) : State := { s.resets.foldl State.abandonCapture s with resets := [] }

/-- PRST_N_ASSERT (R571): PRST_N falls. It ends captures and resets and holds the package once it has been low for 10 µs; a shorter pulse is
ignored, and so is PRST_N before PWROK. -/
def execPrstNAssert (s : State) : Host.Outcome State Fault Refusal :=
  if s.pins.pwrok = false ∨ s.pins.prstN = false then .next s
  else .next { s with pins := { s.pins with prstN := false, lowNs := 0 } }

/-- PRST_N has been low for 10 µs (R486, R556, R571): every capture and reset in progress ends, and the package is held with its links down. A
thermal trip goes on. -/
def State.assertReset (s : State) : State :=
  let s1 := if s.thermal.tripped.isSome then s else { s.endResets with links := [], waiting := [], inbound := [] }
  { s1 with pins := { s1.pins with asserted := true } }

/-- A nanosecond more of PRST_N low. -/
def State.tickPrst (s : State) : State :=
  if s.pins.prstN ∨ s.pins.asserted then s
  else if 9999 ≤ s.pins.lowNs then s.assertReset
  else { s with pins := { s.pins with lowNs := s.pins.lowNs + 1 } }

/-- A fall of PWROK (R473, R535, R547, R551): everything stops, and only the fuses and the flash are kept. -/
def State.pwrokFall (s : State) : State :=
  let s1 := (s.endResets.endWork).flashLost
  let s2 := if s1.thermal.tripped.isSome then s1.emit (.pin 1 false) else s1
  let s3 := s2.bare 0
  { s3 with pins := { s3.pins with pwrok := false, asserted := false }, supplies := [], host := { s3.host with stopped := true } }

/-- PWROK_FALL (R551). -/
def execPwrokFall (s : State) : Host.Outcome State Fault Refusal := if s.pins.pwrok then .next s.pwrokFall else .next s

/-- The pins at a start: both high, the straps sampled (R552). -/
def State.startPins (s : State) (chainStrap : BitVec 5) (bootStrap : BitVec 2) : State :=
  { s with pins := { s.pins with pwrok := true, prstN := true, asserted := false, lowNs := 0, chainStrap := chainStrap.toNat, bootStrap := bootStrap.toNat } }

/-- PACKAGE_START (R549): PWROK and PRST_N are both high. `railsOff` says whether any rail was off, `lowFor` for how many nanoseconds PRST_N
was low. -/
def execPackageStart (railsOff : Bool) (lowFor : Nat) (chainStrap : BitVec 5) (bootStrap : BitVec 2) (s : State) :
    Host.Outcome State Fault Refusal :=
  if railsOff ∨ s.pins.pwrok = false then
    .next (((if s.pins.pwrok then s.pwrokFall else s).startPins chainStrap bootStrap).coldInit 0)
  else if s.pins.prstN then .next s
  else if s.thermal.tripped.isSome ∨ (s.pins.asserted = false ∧ lowFor < 10000) then
    .next { s with pins := { s.pins with prstN := true, asserted := false, lowNs := 0 } }
  else
    let s1 := (if s.pins.asserted then s else s.assertReset).startPins chainStrap bootStrap
    if s1.startup.everReady then .next (s1.enterWarm.beginReset (6, 0, 0) 0) else .next (s1.coldInit 3)

/-! ## Boot (R524, R525, R553) -/

/-- A cold start finds the VIN_SET of some settings below 1.74 V at step 4 (R557). -/
def State.findLow (s : State) (low : List Setting) : State :=
  if s.startup.cold then low.foldl (fun s n => s.setSupply n.val { s.supply n.val with low := true }) s else s

/-- A setting whose VIN_SET is too low or has failed is held in reset (R541, R557). -/
def State.holdFailed (s : State) : State := (settings.filter s.supplyHeld).foldl State.holdSetting s

/-- The volatile entries that report what the hardware does now, whatever the firmware: CLUSTER_MV, CLUSTER_STEPS and TEMP (log entry 40). -/
def liveEntry (key : Nat) : Bool :=
  (decide (0x9100 ≤ key / 256) && decide (key / 256 < 0x9220) && (key % 256 == 1 || key % 256 == 3)) || key / 256 == 0x9500 || key / 256 == 0x9501

/-- Step 2 of a cold initialisation (R553): every retained and volatile entry takes its default, the Chain ID is that of the strap (R455), and
fabric time begins at 0. -/
def State.enterDefaults (s : State) : State :=
  { s with dict := s.dict.filter (fun e =>
      liveEntry e.1 || e.1 == Key.fwBuild.key || e.1 == Key.debugChallenge.key || e.1 == Key.debugState.key
        || (rowOf (e.1 / 256) (e.1 % 256)).any (fun (r : EntryRow) => r.persist == 2)) }.takeStrap.restartTime

/-- Step 4 of R553 (R539): the rail of every cluster that is not fenced is calibrated; what its monitors ask for is free. -/
def State.calibrate (s : State) : State := s.liveClusters.foldl (fun s n => (s.setPoint n s.free).tick) s

/-- The quick check begins (R513): piece 0 of every bundle with QUICK runs on every good core of every die that is not fenced. -/
def State.startQuick (s : State) : State :=
  let pieces := (s.testPieces.filter (fun e => e.2.1 == 0 && (look e.1 s.hall.slots).any (fun b => bit (leNat (b.take 64)) 128)))
  let cores := (List.range 4896).filter (fun p => !s.dieFenced (p / 68) && !s.supplyHeld (physSetting p) && !s.badCore (p / 17) (p % 17))
  if pieces.isEmpty then s
  else cores.foldl (fun s p =>
    let t : HallTest := { cluster := p / 17, core := p % 17, pieces := pieces, step := 0, began := s.ftime, quick := true }
    { s with hall := { s.hall with tests := s.hall.tests ++ [t] } }.startPiece t) { s with hall := { s.hall with quickBad := [] } }

/-- The firmware runs (R524, R553): the rest of step 2 of a cold initialisation, the Chain, the rails of the clusters, the quick check and the
training of the links. -/
def State.bootRun (s : State) (k : Nat) (low : List Setting) : State :=
  let s1 := s.runImage k
  let s2 := if s1.startup.cold then s1.enterDefaults else s1
  let s3 := ((s2.set Key.pkgState 0).set Key.startFault 0)
  let s4 := { s3 with startup := { s3.startup with running := true, verified := true }, host := { s3.host with stopped := false } }
  let s5 := if s4.chain.answers ∧ s4.startup.cold = false then s4 else s4.startChain
  ((s5.timeUpdate.findLow low).holdFailed.calibrate.startQuick).trainLinks

/-- The slot of the attempt in progress: FW_NEXT_SLOT first, then the other one. -/
def State.attemptSlot (s : State) : Nat :=
  if s.fw.tried.isEmpty then s.get Key.fwNextSlot else 1 - s.get Key.fwNextSlot

/-- An attempt is rejected: the other slot is tried, or recovery is entered (R524, R557). -/
def State.rejectImage (s : State) (silent : Bool) : State :=
  let all := s.fw.tried ++ [silent]
  let s1 := { s with fw := { s.fw with tried := all } }
  if all.length < 2 then s1
  else { s1 with fw := { s1.fw with tried := [] } }.enterRecovery (if all.all id then 3 else 1)

/-- The verdict of an instance (R524): that of the check of the slot's image, which it read whole; 1 where a flash read was uncorrectable; none
where it has reached none in 400 ms. -/
def State.verdict (s : State) (seen : Option Bool) : Option Nat := seen.map (fun whole => if whole then s.imageCheck s.attemptSlot else 1)

/-- FIRMWARE_VERIFICATION_END (R516, R524): the image runs where all four instances accept it. -/
def execFirmwareVerificationEnd (attempt : BootAttempt) (s : State) : Host.Outcome State Fault Refusal :=
  let verdicts := attempt.seen.map s.verdict
  if s.packageHeld ∨ s.startup.running = false ∨ s.startup.verified ∨ s.get Key.pkgState ≠ 0 ∨ verdicts.length ≠ 4
      ∨ s.resets.any (fun j => j.phase == .capture) then .next s
  else if verdicts.all (· == some 0) then
    let s1 := s.bootRun s.attemptSlot attempt.low
    .next (if s.fw.tried.isEmpty then s1 else s1.count Key.bootFallbacks 1)
  else if verdicts.any Option.isNone then .next ((s.count Key.bootVerifyDisagree 1).rejectImage true)
  else
    match verdicts with
    | some v :: t => if t.all (· == some v) then .next ((s.count (bootCounter v) 1).rejectImage false)
      else .next ((s.count Key.bootVerifyDisagree 1).rejectImage false)
    | _ => .next s

/-- FW_UPDATE_DONE (R525, R527): in recovery an image that verifies is booted. -/
def execFwUpdateDone (result : UpdateEnd) (s : State) : Host.Outcome State Fault Refusal :=
  match s.fw.update with
  | none => .next s
  | some (a, _, k) =>
    if devSetting a < 24 ∧ a ≠ 0xFFFFFFFFFF ∧ (s.stack (devSetting a)).lost = false ∧ s.controllerOpen (devSetting a) = false
        ∧ s.get Key.pkgState ≠ 2 then .next s
    else
      let s1 := s.endUpdate result.writeOk
      if s1.get Key.pkgState = 2 ∧ s1.get Key.fwUpdateStatus = 2 then
        .next ({ s1 with startup := { s1.startup with repeats := 0 } }.bootRun k result.low)
      else .next s1

/-- REFCLK100_LOCK_TIMEOUT (R557): recovery with START_FAULT 2; the loss counts unless it has counted already. -/
def execRefclk100LockTimeout (s : State) : Host.Outcome State Fault Refusal :=
  if s.packageHeld ∨ s.startup.running = false ∨ s.startup.verified = false then .next s
  else
    let s1 := if s.pins.refclk100 then { s with pins := { s.pins with refclk100 := false } }.count Key.refclkLoss 1 else s
    .next (s1.enterRecovery 2)

/-! ## The quick check (R513) -/

/-- A core fails the quick check. -/
def State.failQuick (s : State) (p : Nat) : State :=
  (s.markFailed (p / 17) (p % 17)).count (Key.quickCheckFails (p / 17)) 1

/-- A core passes the quick check: it has passed a test, and after a warm reset is clean from the step its cluster is at. -/
def State.passQuick (s : State) (p : Nat) : State :=
  let s1 := { s with hall := { s.hall with passed := if s.hall.passed.contains p then s.hall.passed else s.hall.passed ++ [p],
                                           overdue := if s.startup.cold then s.hall.overdue else s.hall.overdue.filter (· != p) } }
  if s.startup.cold then s1 else s1.set (Key.lastCleanStep (p / 17) (p % 17)) (s1.get (Key.swapStep (p / 17)))

/-- The dies that the check leaves without the cores they must have: a cluster with fewer good cores than its grade presents, or after a
warm reset a mapped core that failed. -/
def State.quickFences (before : State) (s : State) (failed : List Nat) : List Nat :=
  (List.range 72).filter (fun d => !s.dieFenced d && ([0, 1, 2, 3].any (fun c =>
    decide ((s.goodCores (4 * d + c)).length < (if s.fuses.gradeB then 15 else 16))
      || (!s.startup.cold && failed.any (fun p => p / 17 == 4 * d + c && (before.mappedCores (p / 17)).contains (p % 17))))))

/-- QUICK_CHECK_END (R513): the 600 ms of the check are over. The cores that have failed a piece, or still run one, did not pass. The outcome
names the clusters whose rail has failed calibration, which fences their dies (R557). -/
def execQuickCheckEnd (outcome : QuickOutcome) (s : State) : Host.Outcome State Fault Refusal :=
  if s.packageHeld ∨ s.startup.running = false ∨ s.startup.verified = false ∨ s.startup.quickDone then .next s
  else
    let s0 := outcome.rails.foldl (fun s n => s.dropDie (n.val / 4)) s
    let ran := (List.range 4896).filter (fun p => !s0.dieFenced (p / 68) && !s0.supplyHeld (physSetting p) && !s0.badCore (p / 17) (p % 17))
    let bad := ran.filter (fun p => s.hall.quickBad.contains p || s.hall.tests.any (fun t => t.quick && 17 * t.cluster + t.core == p))
    let s1 := bad.foldl State.failQuick { s0 with startup := { s0.startup with quickDone := true },
                                                  hall := { s0.hall with quickBad := [], tests := s0.hall.tests.filter (fun t => !t.quick) } }
    let s2 := if s1.startup.cold then { s1 with cmap := s1.coldMap } else s1
    let s3 := (s0.quickFences s2 bad).foldl State.dropDie s2
    .next ((ran.filter (fun p => !bad.contains p)).foldl State.passQuick s3)

/-! ## The stacks (R329–R333, R553) -/

/-- The pseudo-channels that fail training are counted and marked (R329). -/
def State.markTraining (s : State) (n : Nat) (failed : List Nat) : State :=
  failed.foldl (fun s p => (s.setFlash (Key.hbmRetireMark n) (s.get (Key.hbmRetireMark n) ||| 2 ^ p)).count (Key.hbmPcTrainFails n p) 1) s

/-- The end of a stack's training in a cold initialisation (R330, R557): the marks and the ring are those the initialisation began with
(R472). -/
def State.trainCold (s : State) (n : Nat) (identityOk : Bool) (failed : List Nat) : State :=
  let s1 := s.markTraining n failed
  let active := (List.finRange 32).filter (fun p => !bit ((look n s.startup.marks).getD 0) p.val && !failed.contains p.val)
  let s2 := { s1 with startup := { s1.startup with hbmDone := s1.startup.hbmDone ++ [n] } }
  if identityOk = false ∨ active.length < 24 then s2.setStack n { Stack.fresh with failed := true, training := false }
  else
    s2.setStack n { Stack.fresh with active := active, ring := s2.startup.ringMib, accepting := true, training := false }

/-- The end of a stack's retraining after a setting or package warm reset (R331, R333). -/
def State.trainWarm (s : State) (n : Nat) (failed : List Nat) : State :=
  let s1 := s.markTraining n failed
  let x := s1.stack n
  if x.failed then s1.setStack n { x with training := false }
  else
    s1.setStack n { x with down := x.down ++ failed.filter (fun p => !x.down.contains p), accepting := true, training := false }

/-- The training of a setting's stack ends; it cannot while the setting has no supply, is fenced, or the package is not that far. -/
def State.endTraining (s : State) (n : Nat) (identityOk : Bool) (failed : List Nat) : State :=
  let cold := s.startup.running && s.startup.cold && !s.startup.hbmDone.contains n
  if s.packageHeld ∨ (s.stack n).training = false ∨ (s.stack n).off ∨ s.supplyHeld n ∨ s.get Key.pkgState = 2
      ∨ (s.startup.running ∧ s.startup.verified = false) then s
  else if cold then s.trainCold n identityOk failed
  else s.trainWarm n (failed.filter (fun p => (s.stack n).active.any (fun q => q.val == p)))

/-! ## Readiness (R555, R557) -/

/-- The conditions of R555. A unit that is fenced does not hold the package back. -/
def State.isReady (s : State) : Bool :=
  s.startup.running && s.startup.verified && s.startup.quickDone && !s.packageHeld && !s.host.stopped && s.leadAnswers
    && settings.all (fun n => s.settingFenced n || (s.stack n).failed || (s.stack n).accepting)
    && (List.range 16).all (fun p => !s.portEnabled p
          || (s.portLinks p).all (fun l => s.rimFenced (l / 8) || s.startup.linksOut.contains l))

/-- READY (R553, R555): a package warm reset is complete with it (R487). -/
def execPkgReady (s : State) : Host.Outcome State Fault Refusal :=
  if s.isReady = false then .next s
  else
    let s1 := (s.set Key.pkgState 1).set Key.readyTime (s.startup.lead / 1000000 % 2 ^ 32)
    let s2 := if s1.startup.cold then
        (s1.setFlash Key.coldInitCount ((s1.get Key.coldInitCount + 1) % 2 ^ 32)).setFlash Key.coldInitCause s1.startup.cause
      else s1
    let s3 := { s2 with startup := { s2.startup with running := false, everReady := true, repeats := 0 },
                        resets := s2.resets.filter (fun j => j.domain != 6) }
    .next ((s2.resets.filter (fun j => j.domain == 6)).foldl State.runNext s3.timeUpdate)

/-- STARTUP_TIMEOUT (R557): a cold initialisation that has not reached READY is repeated, or after the third repeat recovery is entered. -/
def execStartupTimeout (s : State) : Host.Outcome State Fault Refusal :=
  if s.packageHeld ∨ s.startup.running = false ∨ s.startup.cold = false then .next s
  else if 3 ≤ s.startup.repeats then .next (s.enterRecovery 4)
  else
    let s1 := { s with startup := { s.startup with repeats := s.startup.repeats + 1 } }
    .next (((s1.setFlash Key.coldInitCount ((s1.get Key.coldInitCount + 1) % 2 ^ 32)).setFlash
      Key.coldInitCause 4).strapsNow.coldInit 4)

end Sys2Proof.Machine
end

