-- ==== Sys2Proof/Machine/Manage.lean ====
section
/-!
DEFINITION. Writes of dictionary entries (R467–R473) from every path: the access right, the range, and what each entry's write does;
jobs (R470), ports (R347, R354, R573), reset requests (R485).
-/
namespace Sys2Proof.Machine

/-! ## Access (R36, R469) -/

/-- A port is idle (R347). -/
def State.portIdle (s : State) (p : Nat) : Bool := !s.portEnabled p && (s.portLinks p).all (fun l => (s.link l).st == 0)

/-- The access right admits a write at this moment. Entries of a table version are writable while it is IDLE (R388, R389); installs and
updates are refused while one is in progress (R502, R526, R527). -/
def State.admits (s : State) (r : EntryRow) (index sub : Nat) : Bool :=
  match r.access with
  | 0 => false
  | 3 => s.portIdle (index % 16)
  | 4 => s.get Key.jobState == 0
  | _ =>
    if index / 8 = 0x5900 / 8 then s.tableState ((index - 0x5900) / 4) == 0
    else if index / 32 = 0x5A00 / 32 then s.tableState ((index - 0x5A00) / 16) == 0
    else if index = 0x5801 ∧ r.access = 1 then s.tableState (sub - 5) == 0
    else if index = 0x8100 then s.get Key.hallmarkInstallStatus != 1
    else if index = 0xA002 ∧ sub ≠ 3 then s.get Key.fwUpdateStatus != 1
    else if index = 0xA001 ∧ sub = 7 then s.get Key.fwUpdateStatus != 1
    else true

/-! ## Ranges (R469) -/

/-- The bits of an entry that are not reserved (R11). -/
def State.fieldMask (s : State) (index sub : Nat) : Nat :=
  if index / 8 = 0x5900 / 8 then 0x7
  else if index / 32 = 0x5A00 / 32 then (if s.upDown then 2 ^ 34 - 1 else 2 ^ 57 - 1)
  else if index / 16 = 0x5810 / 16 ∧ sub = 1 then 0x87
  else if index / 4096 = 9 ∧ 0x9300 ≤ index ∧ index < 0x9332 ∧ sub = 1 then 0xFF03FF
  else if 0x2C00 ≤ index ∧ index < 0x2D20 ∧ sub = 0x21 then 0x1FFFF
  else if index = 0x8010 then 0x1FFF3F
  else 2 ^ 512 - 1

/-- Axis sizes within R364. -/
def sizesOk (v : Nat) : Bool :=
  axes.all (fun a => decide (1 ≤ fld v (8 * a) 8) && decide (fld v (8 * a) 8 ≤ 64))
    && decide ((axes.map (fun a => fld v (8 * a) 8)).foldl (· * ·) 1 ≤ 65536)

/-- A node address that NODE_ADDR may take (R363–R365, R402). -/
def State.nodeOk (s : State) (v : Nat) : Bool :=
  if s.upDown then decide (v < 4096) else axes.all (fun a => decide (coord v a < s.axisSize a))

/-- A link mask of one rim die that shares no link with another port and holds at most its eight links (R347). -/
def State.linkMaskOk (s : State) (p v : Nat) : Bool :=
  (v == 0 || (List.range 4).any (fun r => v &&& (0xFF * 2 ^ (8 * r)) == v))
    && (List.range 16).all (fun q => q == p || s.portMask q &&& v == 0)

/-- The target of a reset request exists and no field is reserved (R485). -/
def State.resetOk (s : State) (v : Nat) : Bool :=
  let t := fld v 8 13
  match fld v 0 3 with
  | 0 => fld v 3 2 != 3 && (s.physOf t).isSome
  | 1 => (s.physOf t).isSome
  | 2 => decide (t < 288)
  | 3 => decide (t < 72)
  | 4 => decide (t < 24)
  | 5 => decide (t < 4)
  | _ => t == 0

/-- The range rule an entry has of its own. -/
def State.entryRange (s : State) (index sub v : Nat) : Bool :=
  let key := 256 * index + sub
  if key = Key.deferRingAddr.key then decide (v + 64 * 2 ^ s.get Key.deferRingLog2 ≤ 0x200000)
  else if key = Key.deferRingLog2.key then decide (s.get Key.deferRingAddr + 64 * 2 ^ v ≤ 0x200000)
  else if key = Key.deferTailCtr.key then v != s.get Key.deferHeadCtr
  else if key = Key.deferHeadCtr.key then v != s.get Key.deferTailCtr
  else if key = Key.orderProfile.key then v == 1 || !s.fuses.gradeB
  else if key = Key.axisSizes.key then sizesOk v
  else if key = Key.nodeAddr.key then s.nodeOk v
  else if key = Key.dupHold.key then decide (s.get Key.msgTimeout * (s.get Key.msgRetries + 1) < v)
  else if index / 16 = 0x5010 / 16 ∧ sub = 1 then s.linkMaskOk (index % 16) v
  else if index / 32 = 0x5A00 / 32 then s.upDown || decide (fld v 37 3 ≤ 2)
  else if key = Key.macsecSak.key then decide (v % 256 ≤ 3)
  else if key = Key.resetRequest.key then s.resetOk v
  else if 0x2C00 ≤ index ∧ index < 0x2D20 then v &&& s.get (Key.failedMask (index - 0x2C00)) == v
  else if key = Key.hallmarkRemove.key then s.bundleSlots.any (fun b => b.2 == v)
  else if key = Key.fwStageData.key then decide (s.get Key.fwStageOffset + 32 ≤ 0x1000000)
  else true

/-- A value is in an entry's range (R469). -/
def State.inRange (s : State) (r : EntryRow) (index sub v : Nat) : Bool :=
  let n : Int := if r.ty = 4 then sgn 32 v else v
  decide (r.lo ≤ n) && decide (n ≤ r.hi) && (r.mul ≤ 1 || v % r.mul == 0) && s.entryRange index sub (v &&& s.fieldMask index sub)

/-! ## Jobs (R30–R32, R470) -/

/-- Slot 15 of a cluster is mapped again: the core it held, or where that is bad the lowest good core that holds no logical core. -/
def State.mapLast (s : State) (n : Nat) : State :=
  let m := s.clusterMap n
  let rest := m.take 15
  let old := m[15]?
  let core := if old.any (fun q => !s.badCore n q.val) then old
    else (s.goodCores n).find? (fun q => !rest.contains q)
  let s1 := { s with cmap := put n (rest ++ core.toList) s.cmap }
  match core with
  | some q => s1.abandonTests (1, 0, 17 * n + q.val)
  | none => s1

/-- Clusters 1 and 3 hold the lockstep copies of the logical cores of clusters 0 and 2 (R31, R32). While they run in lockstep State holds each
pair once (log entry 32); the copies are written out as the lockstep ends. -/
def State.layCopies (s : State) : State :=
  (List.range 144).foldl (fun s i =>
    (List.range 16).foldl (fun s k =>
      match s.mappedCore (2 * i) k, s.mappedCore (2 * i + 1) k with
      | some a, some b => s.setCore (17 * (2 * i + 1) + b) (s.core (17 * (2 * i) + a))
      | _, _ => s) s) s

/-- A job starts. -/
def State.startJob (now : State) : State :=
  let s := if now.redundant ∧ now.flag Key.redundancyEnable = false then now.layCopies else now
  let k := 16 - s.orderProfile
  let dies := (List.range 72).filter (fun d => !s.dieFenced d)
  let per := if s.flag Key.redundancyEnable then 2 else 4
  let s1 := if k = 16 ∧ s.coresPerCluster = 15 then (List.range 288).foldl State.mapLast s else s
  (((((s1.set Key.logicalCoresPerCluster k).set Key.logicalClustersPerDie per).set Key.logicalCoreCount (dies.length * per * k)).set
    Key.jobState 1).set Key.jobStartTime s.ftime)

/-- A write of JOB_CMD: nothing where it is refused (R470, R556). -/
def State.jobCommand (s : State) (v : Nat) : Option State :=
  if v = 1 then (if s.get Key.jobState = 0 ∧ s.get Key.pkgState ≠ 0 then some s.startJob else none)
  else if s.get Key.jobState = 1 then some (s.set Key.jobState 0) else none

/-! ## What a write does -/

/-- Group state and sequencer whose rim die has moved are cleared (R573). -/
def State.replaced (s old : State) : State :=
  let s1 := axes.foldl (fun s a => if s.axisHome a = old.axisHome a then s else s.eraseGroup a) s
  if s1.axisHome (s1.get Key.bucketAxis) = old.axisHome (old.get Key.bucketAxis) then s1 else s1.clearSequencer

/-- What follows a write of an entry that is stored. -/
def State.afterStore (s old : State) (index sub : Nat) : State :=
  let key := 256 * index + sub
  let p := index % 16
  let port := index / 16 == 0x5010 / 16
  if port ∧ (sub = 1 ∨ sub = 2) then s.replaced old
  else if port ∧ (sub = 4 ∨ sub = 5) then s.recheckPort p
  else if port ∧ sub = 6 then
    (if s.portEnabled p then s.trainLinks else (s.portLinks p).foldl (fun s l => s.dropLink l 0) s)
  else if key = Key.topoMode.key then (List.range 16).foldl State.recheckPort s
  else if key = Key.timeRole.key ∨ key = Key.timeParentMask.key then s.timeUpdate
  else if key = Key.bucketAxis.key then s.replaced old
  else s

/-- A package reset that a write has requested and that begins once the write is answered (R485): the domain and CAPTURE. -/
abbrev Pending := Option (Nat × Bool)

/-- A write of RESET_REQUEST. One for rim die 0 is answered first too, since it stops the paths that answer (DESIGN CHOICE, log entry 44). -/
def State.resetWrite (s : State) (v : Nat) : State × Pending :=
  let d := fld v 0 3
  let t := fld v 8 13
  if 6 ≤ d ∨ (d = 5 ∧ t = 0) then (s, some (d, bit v 5))
  else (s.requestReset (d, if d = 0 then fld v 3 2 else 0, if d ≤ 1 then (s.physOf t).getD 0 else t) 4 (bit v 5), none)

/-- What a write of a command entry does: nothing where its condition fails, which gives ACCESS. -/
def State.commandWrite (s : State) (key sub v : Nat) (bs : List Byte) : Option (State × Pending) :=
  let keep := fun (x : State) => some (x, (none : Pending))
  if key = Key.jobCmd.key then (s.jobCommand v).bind keep
  else if key = Key.dictFlashRestore.key then keep (if v = 1 then { s with flashRestore := true } else s)
  else if key = Key.tableCmd.key then (s.tableCommand v).bind keep
  else if key = Key.macsecSak.key then keep (s.installSak (v % 256) bs)
  else if key = Key.resetRequest.key then some (s.resetWrite v)
  else if key = Key.hallmarkInstall.key then keep (s.startInstall v)
  else if key = Key.hallmarkRemove.key then keep (s.removeBundle v)
  else if key = Key.fwUpdate.key then keep (s.startUpdate v)
  else if key = Key.fwStageData.key then keep (s.stageImage bs)
  else if key = Key.rollbackCommit.key then keep (if v = 1 then s.rollbackCommit else s)
  else if key = Key.signetNonce.key then keep (s.signetReport bs)
  else if key = Key.debugLock.key then keep (if v = 1 then s.set Key.debugState 0 else s)
  else keep (s.debugPart (sub - 2) bs)

/-- The value takes effect. -/
def State.takeValue (s : State) (r : EntryRow) (index sub : Nat) (bs : List Byte) : Option (State × Pending) :=
  let key := 256 * index + sub
  let v := leNat bs &&& s.fieldMask index sub
  if r.access = 2 then s.commandWrite key sub v bs
  else if 0x2C00 ≤ index ∧ index < 0x2D20 then some (s.clearFailed (index - 0x2C00) v, none)
  else
    let e : Ent := ⟨key, r.dflt⟩
    some ((if r.persist = 2 then s.setFlash e v else s.set e v).afterStore s index sub, none)

/-- The write of a whole value, its access admitted: the state, the item status (R463) and what waits for the answer. -/
def State.writeWhole (s : State) (r : EntryRow) (index sub : Nat) (bs : List Byte) : State × Nat × Pending :=
  if s.inRange r index sub (leNat bs) = false then (s, 3, none)
  else
    match s.takeValue r index sub bs with
    | some x => ((x.1.announce s).pump, 0, x.2)
    | none => (s, 2, none)

/-- A write with its checks in order (R466, R468, R469). -/
def State.checkedWrite (s : State) (index sub : Nat) (bs : List Byte) : State × Nat × Pending :=
  let key := 256 * index + sub
  match s.entryRow index sub with
  | none => (s, if 0xF000 ≤ index ∧ bit (s.get Key.debugState) 2 = false ∧ s.hidden index = false then 2 else 1, none)
  | some r =>
    if s.admits r index sub = false then (s, 2, none)
    else if bs.length = r.size then s.writeWhole r index sub bs
    else if r.ty ≠ 8 ∨ r.size ≤ 32 ∨ bs.length = 0 ∨ 32 < bs.length then (s, 4, none)
    else
      let all := (look key s.staging).getD [] ++ bs
      if r.size < all.length then ({ s with staging := drop' key s.staging }, 4, none)
      else if all.length < r.size then ({ s with staging := put key all s.staging }, 5, none)
      else { s with staging := drop' key s.staging }.writeWhole r index sub all

/-- A write of an entry from any path (R469): counted as accepted, once for a staged value, or as refused. -/
def State.dictWrite (s : State) (index sub : Nat) (bs : List Byte) : State × Nat × Pending :=
  let r := s.checkedWrite index sub bs
  match r.2.1 with
  | 0 => (r.1.count Key.dictWrites 1, 0, r.2.2)
  | 5 => (r.1, 0, none)
  | v => (r.1.count Key.dictWritesRefused 1, v, none)

/-- A package reset that waited for an answer begins (R485). -/
def State.startPending (s : State) (x : Pending) : State :=
  match x with
  | none => s
  | some (d, capture) => s.requestReset (d, 0, 0) 4 capture

/-- A write through the lead service controller, its answer put out before a package reset it requests. -/
def State.manage (s : State) (index sub : Nat) (bs : List Byte) : State :=
  if s.leadAnswers = false then s
  else
    let r := s.dictWrite index sub bs
    (r.1.emit (.dict r.2.1 [])).startPending r.2.2

/-! ## The commands -/

/-- ENTRY_WRITE (R469). -/
def execEntryWrite (index : BitVec 16) (sub : BitVec 8) (value : List Byte) (s : State) : Host.Outcome State Fault Refusal :=
  .next (s.manage index.toNat sub.toNat value)

/-- DICT_STAGING_TIMEOUT (R468). -/
def execDictStagingTimeout (index : BitVec 16) (sub : BitVec 8) (s : State) : Host.Outcome State Fault Refusal :=
  .next { s with staging := drop' (256 * index.toNat + sub.toNat) s.staging }

/-- DICT_FLASH_STORE (R473): no effect where the entry has no store due. -/
def execDictFlashStore (index : BitVec 16) (sub : BitVec 8) (s : State) : Host.Outcome State Fault Refusal :=
  let key := 256 * index.toNat + sub.toNat
  if (look key s.flashDue).isSome then .next ({ s with flashDue := drop' key s.flashDue }.count Key.dictFlashCommits 1) else .next s

/-- DICT_FLASH_RESTORE (R473). -/
def execDictFlashRestore (value : BitVec 8) (s : State) : Host.Outcome State Fault Refusal := .next (s.manage 0x7001 1 [value])

/-- JOB_START (R470). -/
def execJobStart (s : State) : Host.Outcome State Fault Refusal := .next (s.manage 0x1100 2 [1])

/-- JOB_STOP (R470). -/
def execJobStop (s : State) : Host.Outcome State Fault Refusal := .next (s.manage 0x1100 2 [2])

/-- SEAL (R390). -/
def execTableSeal (s : State) : Host.Outcome State Fault Refusal := .next (s.manage 0x5801 1 [1])

/-- FLIP (R390). -/
def execTableFlip (s : State) : Host.Outcome State Fault Refusal := .next (s.manage 0x5801 1 [2])

/-- RETIRE (R390). -/
def execTableRetire (s : State) : Host.Outcome State Fault Refusal := .next (s.manage 0x5801 1 [3])

/-- UNSEAL (R390). -/
def execTableUnseal (s : State) : Host.Outcome State Fault Refusal := .next (s.manage 0x5801 1 [4])

/-- PORT_ENABLE (R350). -/
def execPortEnable (port : Port) (value : BitVec 8) (s : State) : Host.Outcome State Fault Refusal :=
  .next (s.manage (0x5010 + port.val) 6 [value])

/-- PORT_LINK_MASK (R347, R573). -/
def execPortLinkMask (port : Port) (value : BitVec 32) (s : State) : Host.Outcome State Fault Refusal :=
  .next (s.manage (0x5010 + port.val) 1 (leBytes 4 value.toNat))

/-- PORT_AXIS (R347, R573). -/
def execPortAxis (port : Port) (value : BitVec 8) (s : State) : Host.Outcome State Fault Refusal :=
  .next (s.manage (0x5010 + port.val) 2 [value])

/-- PORT_EXPECT_SERIAL (R354). -/
def execPortExpectSerial (port : Port) (value : BitVec 64) (s : State) : Host.Outcome State Fault Refusal :=
  .next (s.manage (0x5010 + port.val) 4 (leBytes 8 value.toNat))

/-- PORT_EXPECT_PORT (R354). -/
def execPortExpectPort (port : Port) (value : BitVec 8) (s : State) : Host.Outcome State Fault Refusal :=
  .next (s.manage (0x5010 + port.val) 5 [value])

/-- TOPO_MODE (R354). -/
def execTopoMode (value : BitVec 8) (s : State) : Host.Outcome State Fault Refusal := .next (s.manage 0x5000 4 [value])

/-- MACSEC_SAK (R428): the whole value. -/
def execMacsecSak (value : BitVec 360) (s : State) : Host.Outcome State Fault Refusal :=
  .next (s.manage 0x6010 2 (leBytes 45 value.toNat))

/-- FAILED_MASK (R515). -/
def execFailedMask (cluster : Cluster) (value : BitVec 32) (s : State) : Host.Outcome State Fault Refusal :=
  .next (s.manage (0x2C00 + cluster.val) 0x21 (leBytes 4 value.toNat))

/-- HALLMARK_INSTALL (R502). -/
def execHallmarkInstall (value : BitVec 64) (s : State) : Host.Outcome State Fault Refusal :=
  .next (s.manage 0x8100 1 (leBytes 8 value.toNat))

/-- HALLMARK_REMOVE (R502). -/
def execHallmarkRemove (value : BitVec 32) (s : State) : Host.Outcome State Fault Refusal :=
  .next (s.manage 0x8100 3 (leBytes 4 value.toNat))

/-- SIGNET_NONCE (R530). -/
def execSignetNonce (value : BitVec 256) (s : State) : Host.Outcome State Fault Refusal :=
  .next (s.manage 0xA020 1 (leBytes 32 value.toNat))

/-- ROLLBACK_COMMIT (R526). -/
def execRollbackCommit (value : BitVec 8) (s : State) : Host.Outcome State Fault Refusal := .next (s.manage 0xA001 7 [value])

/-- FW_UPDATE (R527). -/
def execFwUpdate (value : BitVec 64) (s : State) : Host.Outcome State Fault Refusal :=
  .next (s.manage 0xA002 1 (leBytes 8 value.toNat))

/-- FW_STAGE_DATA (R527). -/
def execFwStageData (value : BitVec 256) (s : State) : Host.Outcome State Fault Refusal :=
  .next (s.manage 0xA002 4 (leBytes 32 value.toNat))

/-- DEBUG_AUTH (R533): one of the four parts. -/
def execDebugAuth (part : Fin 4) (value : BitVec 512) (s : State) : Host.Outcome State Fault Refusal :=
  .next (s.manage 0xA030 (2 + part.val) (leBytes 64 value.toNat))

/-- DEBUG_LOCK (R533). -/
def execDebugLock (value : BitVec 8) (s : State) : Host.Outcome State Fault Refusal := .next (s.manage 0xA030 7 [value])

/-- A write of RESET_REQUEST (R485). -/
def State.requestWrite (s : State) (domain engine target : Nat) (capture : Bool) : State :=
  s.manage 0x8010 1 (leBytes 4 (domain + engine * 2 ^ 3 + b2n capture * 2 ^ 5 + target * 2 ^ 8))

/-- ENGINE_RESET (R479, R485). -/
def execEngineReset (core : CoreId) (engine : Fin 3) (capture : Bool) (s : State) : Host.Outcome State Fault Refusal :=
  .next (s.requestWrite 0 engine.val core.toNat capture)

/-- CORE_RESET (R478, R485). -/
def execCoreReset (core : CoreId) (capture : Bool) (s : State) : Host.Outcome State Fault Refusal :=
  .next (s.requestWrite 1 0 core.toNat capture)

/-- CLUSTER_RESET (R478, R485). -/
def execClusterReset (cluster : Cluster) (capture : Bool) (s : State) : Host.Outcome State Fault Refusal :=
  .next (s.requestWrite 2 0 cluster.val capture)

/-- COMPUTE_DIE_RESET (R478, R485). -/
def execComputeDieReset (die : Die) (capture : Bool) (s : State) : Host.Outcome State Fault Refusal :=
  .next (s.requestWrite 3 0 die.val capture)

/-- SETTING_RESET (R478, R485). -/
def execSettingReset (setting : Setting) (capture : Bool) (s : State) : Host.Outcome State Fault Refusal :=
  .next (s.requestWrite 4 0 setting.val capture)

/-- RIM_DIE_RESET (R478, R485). -/
def execRimDieReset (rim : Rim) (s : State) : Host.Outcome State Fault Refusal := .next (s.requestWrite 5 0 rim.val false)

/-- PACKAGE_WARM_RESET (R485, R495). -/
def execPackageWarmReset (capture : Bool) (s : State) : Host.Outcome State Fault Refusal := .next (s.requestWrite 6 0 0 capture)

/-- COLD_INITIALISATION (R485, R553). -/
def execColdInitialisation (s : State) : Host.Outcome State Fault Refusal := .next (s.requestWrite 7 0 0 false)

end Sys2Proof.Machine
end

