-- ==== Sys2Proof/Machine/Chain.lean ====
section
/-!
DEFINITION. The Chain and the Ahnion management protocol (R452–R466): transmit opportunities, claiming an ID, and the requests of the
coordinator.
-/
namespace Sys2Proof.Machine

/-- The state with the Chain interface changed. -/
def State.updChain (s : State) (f : Chain → Chain) : State := { s with chain := f s.chain }

/-! ## Payloads (R460–R462) -/

/-- An AHM payload that the package sends: header and items. -/
def State.ahmPayload (s : State) (ty seq status items : Nat) (bs : List Byte) : List Byte :=
  leBytes 16 (0xA4E1 + 2 ^ 16 + ty * 2 ^ 24 + seq % 2 ^ 16 * 2 ^ 32 + status * 2 ^ 48 + items * 2 ^ 56 + s.fuses.serial % 2 ^ 64 * 2 ^ 64) ++ bs

/-- A value filled with zeros to a multiple of 8 bytes. -/
def eights (bs : List Byte) : List Byte := bs ++ List.replicate (8 * ceilDiv bs.length 8 - bs.length) 0

/-- An answer item. -/
def answerItem (index sub status : Nat) (value : List Byte) : List Byte :=
  leBytes 8 (index + sub * 2 ^ 16 + status * 2 ^ 32 + value.length * 2 ^ 48) ++ eights value

/-! ## Sending (R452, R454) -/

/-- The package takes part in the Chain: it answers there, and nothing holds it whole (R454, R547, R551). -/
def State.chainOn (s : State) : Bool := s.chain.answers && !s.packageHeld

/-- A frame waits for the package's transmit opportunity, from a UDP port or outside UDP (0). -/
def State.chainFrame (s : State) (dest : Nat) (payload : List Byte) (port : Nat) : State :=
  s.updChain (fun c => { c with tx := c.tx ++ [(dest, s.ftime, payload, port)] })

/-- An AHM payload waits for the package's transmit opportunity, from AHM_UDP_PORT (R460). -/
def State.chainSend (s : State) (dest : Nat) (payload : List Byte) : State := s.chainFrame dest payload (s.get Key.ahmUdpPort)

/-- An answer is kept for repeats of its request, the last 16 of each source (R465). -/
def State.keepAnswer (s : State) (src seq : Nat) (payload : List Byte) : State :=
  s.updChain (fun c =>
    let mine := c.answered.filter (fun a => a.1 == src)
    let rest := c.answered.filter (fun a => a.1 != src)
    { c with answered := rest ++ (mine ++ [(src, seq, payload)]).drop (mine.length - 15) })

/-- A claim begins again with a new backoff of 1 to 64 cycles (R456). -/
def State.drawBackoff (s : State) : State := (s.updChain (fun c => { c with claim := .backoff (s.free % 64 + 1) })).tick

/-- The package has no ID and listens before it claims (R456). -/
def State.loseId (s : State) : State :=
  ((s.set Key.chainId 0).set Key.chainIdSource 2).updChain (fun c => { c with claim := .listening 0, collisions := 0 })

/-- The frames of one transmit opportunity: one, and as many more as PLCA_MAX_BURST allows. -/
def State.plcaSend (s : State) (collision : Bool) : State :=
  let k := 1 + s.get Key.plcaMaxBurst
  let s1 := (s.chain.tx.take k).foldl (fun s f => s.emit (.chain f.1 f.2.2.1 f.2.2.2)) s
  s1.updChain (fun c => { c with tx := c.tx.drop k, collisions := if collision then c.collisions + 1 else 0 })

/-- The first `m` frames are gone, sent or discarded: the resets that waited for an answer among them begin (R485; log entry 44). -/
def State.framesGone (s : State) (m : Nat) : State :=
  let due := s.chain.resetsDue
  (due.filter (fun r => decide (r.1 ≤ m))).foldl (fun s r => s.startPending (some r.2))
    (s.updChain (fun c => { c with resetsDue := (due.filter (fun r => decide (m < r.1))).map (fun r => (r.1 - m, r.2)) }))

/-- PLCA_BEACON (R452, R456, R457): `claimCollision` says whether the package's own opportunity saw a collision, `assignedHeard` whether another
node was heard in the opportunity it watches. -/
def execPlcaBeacon (claimCollision assignedHeard : Bool) (s : State) : Host.Outcome State Fault Refusal :=
  if s.chainOn = false then .next s
  else
    let s1 := if s.get Key.chainId = 0 then s else s.plcaSend claimCollision
    let s2 := match s1.chain.claim with
      | .listening n => if 1 ≤ n then s1.drawBackoff else s1.updChain (fun c => { c with claim := .listening 1 })
      | .backoff n => s1.updChain (fun c => { c with claim := .backoff (n - 1) })
      | .watching id src seq heard => s1.updChain (fun c => { c with claim := .watching id src seq (heard || assignedHeard) })
      | .held => s1
      | .claiming => s1
    .next (s2.framesGone (s.chain.tx.length - s1.chain.tx.length))

/-- CHAIN_TX_HOLD_TIMEOUT (R454): the frames held for 100 ms are discarded. -/
def execChainTxHoldTimeout (s : State) : Host.Outcome State Fault Refusal :=
  let old := s.chain.tx.filter (fun f => decide (f.2.1 + 100000000 ≤ s.ftime))
  .next (s.whileUp fun s => ((s.updChain (fun c => { c with tx := c.tx.filter (fun f => !decide (f.2.1 + 100000000 ≤ s.ftime)) })).count
    Key.chainTxDiscards old.length).framesGone old.length)

/-! ## Claiming an ID (R455–R458) -/

/-- CLAIM_BACKOFF_EXPIRY (R456): a CLAIM to ff02::1, which destination 0 stands for. The manual gives its SEQ no value: it is free (log entry 2). -/
def execClaimBackoffExpiry (collision : Bool) (s : State) : Host.Outcome State Fault Refusal :=
  if s.chainOn = false ∨ s.chain.claim ≠ .backoff 0 then .next s
  else
    let s1 := ((s.emit (.chain 0 (s.ahmPayload 4 s.free 0 0 []) (s.get Key.ahmUdpPort))).tick).count Key.chainClaims 1
    if collision then .next (s1.count Key.chainClaimCollisions 1).drawBackoff
    else .next (s1.updChain (fun c => { c with claim := .claiming }))

/-- CLAIM_TIMEOUT (R456). -/
def execClaimTimeout (s : State) : Host.Outcome State Fault Refusal :=
  if s.chain.claim = .claiming ∧ s.chainOn then .next s.drawBackoff else .next s

/-- The answer kept for a request that arrives again (R465). -/
def State.repeated (s : State) (head : AhmHead) : Option (List Byte) :=
  (s.chain.answered.find? (fun a => a.1 == head.src && a.2.1 == head.seq.toNat)).map (·.2.2)

/-- The package's own Chain address as a number with its first octet lowest (R452). -/
def State.chainAddr (s : State) : Nat :=
  leNat [0xFE, 0x80, 0, 0, 0, 0, 0, 0, 0, 0x53, 0, 0xFF, 0xFE, 0, 0, BitVec.ofNat 8 s.macByte]

/-- A packet reaches AHM: sent to AHM_UDP_PORT from a link-local address, to the package's own address or to ff02::1 (R460). -/
def State.hears (s : State) (head : AhmHead) : Bool :=
  s.chainOn && head.linkLocal && head.port.toNat == s.get Key.ahmUdpPort && head.dest.all (fun d => d.toNat == s.macByte)

/-- The types of requests (R461). -/
def ahmTypes : List (BitVec 8) := [1, 2, 5, 6]

/-- A request is discarded without an answer. -/
def State.ahmDiscard (s : State) : State := s.count Key.ahmDiscards 1

/-- A request of one type with its header checks (R465): not for AHM here, discarded, answered again, or handled by `body`. A packet whose TYPE
is another request's is not this command's; one of a reserved TYPE, an ANSWER and a CLAIM are discarded. -/
def ahmOp (type : BitVec 8) (head : AhmHead) (items : List Byte) (ok : Bool) (s : State) (body : State → State) :
    Host.Outcome State Fault Refusal :=
  if s.hears head = false ∨ (head.type ≠ type ∧ ahmTypes.contains head.type) then .next s
  else if head.magic ≠ 0xA4E1 ∨ head.version ≠ 1 ∨ head.type ≠ type ∨ 1024 < items.length ∨ ok = false then .next s.ahmDiscard
  else
    match s.repeated head with
    | some a => .next ((s.chainSend head.src a).count Key.ahmDuplicates 1)
    | none => .next (body (s.count Key.ahmRequests 1))

/-- A request may be for this package (R460). -/
def State.addressed (s : State) (head : AhmHead) : Bool := head.serial == 0 || head.serial.toNat == s.fuses.serial

/-- ASSIGN (R457): one that names another serial is not for this package and counts as discarded under R465. -/
def execChainAssign (head : AhmHead) (id : BitVec 8) (s : State) : Host.Outcome State Fault Refusal :=
  let n := id.toNat
  ahmOp 5 head [id] (head.serial.toNat == s.fuses.serial && head.items == 1 && decide (1 ≤ n) && decide (n ≤ 30)) s fun s =>
    if s.get Key.chainId = n then
      let a := s.ahmPayload 3 head.seq.toNat 0 0 []
      (s.chainSend head.src a).keepAnswer head.src head.seq.toNat a
    else s.updChain (fun c => { c with claim := .watching n head.src head.seq.toNat false })

/-- ASSIGN_WATCH_END (R457). The DUPLICATE of a package that has lost its ID waits, as every frame does, for an opportunity of its own (R452):
DESIGN CHOICE (log entry 44). -/
def execAssignWatchEnd (s : State) : Host.Outcome State Fault Refusal :=
  match s.chain.claim with
  | .watching id src seq heard =>
    if s.chainOn = false then .next s
    else if heard then
      let a := s.ahmPayload 3 seq 1 0 []
      .next ((((s.chainSend src a).keepAnswer src seq a).count Key.chainIdConflicts 1).loseId)
    else
      let a := s.ahmPayload 3 seq 0 0 []
      .next (((((s.set Key.chainId id).set Key.chainIdSource 1).updChain (fun c => { c with claim := .held, collisions := 0 })).chainSend src
        a).keepAnswer src seq a)
  | _ => .next s

/-- STRAPPED_ID_CONFLICT (R458). -/
def execStrappedIdConflict (s : State) : Host.Outcome State Fault Refusal :=
  if s.chainOn ∧ s.get Key.chainId ≠ 0 ∧ s.get Key.chainIdSource = 0 ∧ 16 ≤ s.chain.collisions then
    .next (s.count Key.chainIdConflicts 1).loseId
  else .next s

/-! ## Requests of the coordinator (R462–R465) -/

/-- The read items of a request as (index, subindex). -/
def readItems (n : Nat) (bs : List Byte) : List (Nat × Nat) :=
  (List.range n).map (fun i => let v := leNat ((bs.drop (4 * i)).take 4); (fld v 0 16, fld v 16 8))

/-- The write items of a request as (index, subindex, value); nothing where the payload is too short for them. -/
def writeItems : Nat → List Byte → Option (List (Nat × Nat × List Byte))
  | 0, _ => some []
  | n + 1, bs =>
    let h := leNat (bs.take 8)
    let len := fld h 48 16
    if bs.length < 8 + 8 * ceilDiv len 8 then none
    else (writeItems n (bs.drop (8 + 8 * ceilDiv len 8))).map (fun t => (fld h 0 16, fld h 16 8, (bs.drop 8).take len) :: t)

/-- The read items in order while the answer has room: the answer so far, and how many items it holds. -/
def State.readAll (s : State) (done : List Byte) (n : Nat) : List (Nat × Nat) → State × List Byte × Nat
  | [] => (s, done, n)
  | (i, k) :: t =>
    let r := s.readEntry i k
    let a := answerItem i k r.2.1 r.2.2
    if 1024 < done.length + a.length then (s, done, n) else r.1.readAll (done ++ a) (n + 1) t

/-- The write items in order, with what waits for the answer. -/
def State.writeAll (s : State) (done : List Byte) (n : Nat) (waits : List Pending) :
    List (Nat × Nat × List Byte) → State × List Byte × Nat × List Pending
  | [] => (s, done, n, waits)
  | (i, k, v) :: t =>
    if 1024 < done.length + 8 then (s, done, n, waits)
    else
      let r := s.dictWrite i k v
      r.1.writeAll (done ++ answerItem i k r.2.1 []) (n + 1) (waits ++ [r.2.2]) t

/-- AHM_READ (R464). -/
def execAhmRead (head : AhmHead) (items : List Byte) (s : State) : Host.Outcome State Fault Refusal :=
  ahmOp 1 head items (s.addressed head && decide (4 * head.items.toNat ≤ items.length)) s fun s =>
    let r := s.readAll [] 0 (readItems head.items.toNat items)
    let a := r.1.ahmPayload 3 head.seq.toNat 0 r.2.2 r.2.1
    (r.1.chainSend head.src a).keepAnswer head.src head.seq.toNat a

/-- AHM_WRITE (R464, R485): the answer waits for the package's transmit opportunity (R452), and a reset that waits for the answer begins once it has
left. -/
def execAhmWrite (head : AhmHead) (items : List Byte) (s : State) : Host.Outcome State Fault Refusal :=
  let ws := writeItems head.items.toNat items
  ahmOp 2 head items (s.addressed head && ws.isSome) s fun s =>
    let r := s.writeAll [] 0 [] (ws.getD [])
    let a := s.ahmPayload 3 head.seq.toNat 0 r.2.2.1 r.2.1
    if r.1.chainOn then
      ((r.1.chainSend head.src a).keepAnswer head.src head.seq.toNat a).updChain (fun c =>
        { c with resetsDue := c.resetsDue ++ (r.2.2.2.filterMap id).map (fun x => (c.tx.length, x)) })
    else r.2.2.2.foldl State.startPending r.1

/-- The first key of a family at or after a key. -/
def firstFrom (key : Nat) (r : EntryRow) : Option Nat :=
  let i := key / 256
  let k := key % 256
  let at' := fun (i k : Nat) => if i = 0x9501 ∧ 0x58 ≤ k then none else some (256 * i + k)
  if i < r.index then at' r.index r.sub
  else if r.index + r.count ≤ i then none
  else if k ≤ r.sub then at' i r.sub
  else if k < r.sub + r.subs then at' i k
  else if i + 1 < r.index + r.count then at' (i + 1) r.sub
  else none

/-- The next entry of some families at or after a key, with its family. -/
def nextEntry (rows : List EntryRow) (key : Nat) : Option (Nat × EntryRow) :=
  rows.foldl (fun (b : Option (Nat × EntryRow)) r =>
    match firstFrom key r, b with
    | some k, some x => if k < x.1 then some (k, r) else b
    | some k, none => some (k, r)
    | none, _ => b) none

/-- An entry descriptor (R464). -/
def descriptorOf (key : Nat) (r : EntryRow) : List Byte :=
  leBytes 8 (key / 256 + key % 256 * 2 ^ 16 + r.ty * 2 ^ 24 + r.access * 2 ^ 32 + b2n r.expert * 2 ^ 35 + r.persist * 2 ^ 36
    + r.size * 2 ^ 40) ++ leBytes 32 (textNat r.name) ++ leBytes 8 0

/-- Descriptors from a key on, at most as many as the first argument. -/
def descriptors (rows : List EntryRow) : Nat → Nat → List Byte
  | 0, _ => []
  | n + 1, key =>
    match nextEntry rows key with
    | none => []
    | some (k, r) => descriptorOf k r ++ descriptors rows n (k + 1)

/-- ENUMERATE (R461, R464): the entries that exist now, without the expert ones unless byte 3 bit 0 of the item asks for them. -/
def execEnumerate (head : AhmHead) (items : List Byte) (s : State) : Host.Outcome State Fault Refusal :=
  ahmOp 6 head items (s.addressed head && decide (1 ≤ head.items.toNat) && decide (4 * head.items.toNat ≤ items.length)) s fun s =>
    let v := leNat (items.take 4)
    let rows := dictRows.filter (fun r => !s.hidden r.index && (bit v 24 || !r.expert))
    let bs := descriptors rows 21 (256 * fld v 0 16 + fld v 16 8)
    let a := s.ahmPayload 3 head.seq.toNat 0 (bs.length / 48) bs
    (s.chainSend head.src a).keepAnswer head.src head.seq.toNat a

end Sys2Proof.Machine
end

