-- ==== Sys2Proof/Machine/HostPort.lean ====
section
/-!
DEFINITION. The host port and the Cledaim Host Protocol (R427–R451): the handshake, delivery, requests, program load, queues, rings, recording
and replay.
-/
namespace Sys2Proof.Machine

/-- The host port takes packets: the package runs, rim die 0 answers and no package reset is under way (R447, R488, R525, R555). -/
def State.portOpen (s : State) : Bool := s.leadAnswers && !s.host.stopped && s.get Key.pkgState != 2

/-- A frame that the port does not accept (R427). -/
def State.rxDiscard (s : State) : State := s.count Key.hostRxDiscards 1

/-! ## Frames in (R427, R428, R430, R431) -/

/-- A frame is one that the port supports (R427). -/
def wireGood (w : Wire) : Bool := decide (w.size ≤ 9216) && decide (w.vlans ≤ 1) && !w.pause && !w.fragment

/-- A frame has the SecTAG of the port's secure channel and the ICV that MACsec asks for, and its packet number lies within the replay window (R428, log entry 56);
without MACsec it has no SecTAG. -/
def State.secGood (s : State) (w : Wire) (bytes : List Byte) : Bool :=
  match s.flag Key.macsecEnable, w.sec with
  | false, none => true
  | true, some t =>
    (look t.an.toNat s.host.saks).any (fun k => t.icv.toNat == Config.macsecIcv k false portSci t.pn.toNat bytes)
      && t.sci.toNat == portSci
      && decide ((look t.an.toNat s.host.rxPns).getD 1 ≤ t.pn.toNat + s.get Key.macsecReplayWindow)
  | _, _ => false

/-- A frame has been taken: its association expects the packet numbers after it. -/
def State.took (s : State) (w : Wire) : State :=
  match w.sec with
  | none => s
  | some t => s.updHost (fun h =>
      { h with rxPns := put t.an.toNat (max ((look t.an.toNat h.rxPns).getD 1) (t.pn.toNat + 1)) h.rxPns })

/-- A frame comes in at the host port, which hears it: it is taken, or discarded and counted. -/
def wireOp (heard : Bool) (w : Wire) (bytes : List Byte) (s : State) (body : State → State) : Host.Outcome State Fault Refusal :=
  if heard = false then .next s
  else if s.flag Key.macsecEnable ∧ s.secGood w bytes = false then .next (s.count Key.macsecDrops 1)
  else if wireGood w = false ∨ s.secGood w bytes = false then .next s.rxDiscard
  else .next (body (s.took w))

/-- A packet type that CHP assigns (R431). -/
def chpTypeKnown (type : Nat) : Bool := [1, 2, 3, 4, 5, 0x10, 0x11, 0x12].contains type

/-- The CHP header of a packet as it came, with a TAG. -/
def headBytes (head : ChpHead) (tag : Nat) : List Byte :=
  leBytes 48 (head.magic.toNat + head.version.toNat * 2 ^ 16 + head.type.toNat * 2 ^ 24 + head.session.toNat * 2 ^ 32
    + b2n head.ackValid * 2 ^ 40 + b2n head.ecnEcho * 2 ^ 41 + b2n head.retx * 2 ^ 42 + head.rsv.1.toNat * 2 ^ 43 + head.len.toNat * 2 ^ 48
    + head.seq.toNat * 2 ^ 64 + head.ack.toNat * 2 ^ 96 + head.sack.toNat * 2 ^ 128 + head.rsv.2.toNat * 2 ^ 192 + tag * 2 ^ 256)

/-- The CHP header and payload as they came. -/
def packetAsCame (head : ChpHead) (payload : List Byte) : List Byte := headBytes head head.tag.toNat ++ payload

/-- A packet is one of CHP (R430): it comes to an address of the port, which is none while the entry is 0, and to CHP_UDP_PORT, and its MAGIC,
VERSION and PAYLOAD_LEN are right. -/
def State.framed (s : State) (head : ChpHead) (payload : List Byte) : Bool :=
  head.dest != 0 && head.dest.toNat == s.get (if head.v6 then Key.hostIpv6 else Key.hostIpv4)
    && head.wire.port.toNat == s.get Key.chpUdpPort && head.magic == 0xC1D4 && head.version == 1 && head.len.toNat == payload.length

/-- The port hears a CHP packet of a type: it is open; a HELLO is heard to be discarded and counted while PKG_STATE is INITIALISING, though a
warm reset has stopped the port (R447, R556). -/
def State.portHears (s : State) (type : Nat) : Bool := s.portOpen || (type == 1 && s.leadAnswers && s.get Key.pkgState == 0)

/-- A CHP packet of a type comes in (R430, R431). One of another assigned type is not this command's (log entry 9). -/
def chpIn (head : ChpHead) (type : Nat) (payload : List Byte) (s : State) (body : State → State) : Host.Outcome State Fault Refusal :=
  if head.type.toNat ≠ type ∧ chpTypeKnown head.type.toNat then .next s
  else
    wireOp (s.portHears type) head.wire (packetAsCame head payload) s fun s =>
      if s.framed head payload = false ∨ head.type.toNat ≠ type then s.rxDiscard else body s

/-! ## The handshake (R432) -/

/-- A handshake packet leaves, its TAG zero. -/
def State.handshake (s : State) (peer session : Nat) (payload : List Byte) : State :=
  let seq := if session = 0xFF then 0 else 1
  s.sendChp peer (chpHeaderBytes 2 session (session != 0xFF) false false payload.length seq seq 0 0 ++ payload)

/-- A WELCOME that refuses. -/
def State.refuseHello (s : State) (peer : Nat) : State := (s.handshake peer 0xFF (List.replicate 210 0)).count Key.chpSessionsRefused 1

/-- A new session for a HELLO, and its WELCOME. The device's ephemeral key and nonce are free values (log entry 2). -/
def State.welcome (s : State) (peer n : Nat) (hello : List Byte) : State :=
  let priv := s.freeBytes 56
  let nonce := s.tick.freeBytes 32
  let body := (x448Public priv ++ List.replicate 56 0).take 56 ++ nonce ++ leBytes 8 s.fuses.serial
  let t := shake256 (hello ++ body) 64
  let seed := shake256 ("XH-440 ID".toList.map (fun c => BitVec.ofNat 8 c.toNat) ++ s.fuses.seed) 57
  let sig := (ed448Sign seed t ++ List.replicate 114 0).take 114
  let x : Session :=
    { peer := peer, nonce := (hello.drop 56).take 32, hash := t, key := shake256 (x448Shared priv (hello.take 56) ++ t) 64,
      welcome := body ++ sig, hostKey := hello.drop 89, finished := false, maxData := 1024 * 2 ^ (hello.getD 88 0).toNat, txSeq := 1,
      rxAck := 1, rxSack := 0, unacked := [], waiting := [], ackDue := false, ceSeen := false, rate := 1600000000000, lastCut := none,
      fastAt := [], ended := [] }
  ((s.tick.tick).setSession n x).handshake peer n (body ++ sig)

/-- HELLO (R432, R556). A repeated HELLO receives the same WELCOME. -/
def execChpHello (head : ChpHead) (payload : List Byte) (s : State) : Host.Outcome State Fault Refusal :=
  chpIn head 1 payload s fun s =>
    if s.get Key.pkgState ≠ 1 ∨ head.session ≠ 0xFF ∨ payload.length ≠ 146 ∨ 3 < (payload.getD 88 0).toNat then s.rxDiscard
    else
      match s.host.sessions.find? (fun x => x.2.nonce == (payload.drop 56).take 32) with
      | some x => s.handshake head.peer x.1 x.2.welcome
      | none =>
        match (List.range 64).find? (fun n => (s.session n).isNone) with
        | none => s.refuseHello head.peer
        | some n => s.welcome head.peer n payload

/-- A FINISH is good (R432). -/
def State.finishOk (s : State) (x : Session) (sig : List Byte) : Bool :=
  let digests := ((List.range 4).map (fun k => s.get (Key.hostKeyDigest k))).filter (· != 0)
  let valid := ed448Valid x.hostKey (shake256 (x.hash ++ [0x48]) 64) sig
  if digests.isEmpty then sig.all (· == 0) || valid else valid && digests.contains (leNat (shake256 x.hostKey 32))

/-- FINISH (R432, R433). -/
def execChpFinish (head : ChpHead) (payload : List Byte) (s : State) : Host.Outcome State Fault Refusal :=
  let n := head.session.toNat
  chpIn head 3 payload s fun s =>
    if payload.length ≠ 114 then s.rxDiscard
    else
      match s.session n with
      | none => s.count Key.chpTagFailures 1
      | some x =>
        if x.finished ∨ x.peer ≠ head.peer then s.count Key.chpTagFailures 1
        else if s.finishOk x payload then s.setSession n { x with finished := true }
        else (s.updHost (fun h => { h with sessions := drop' n h.sessions })).refuseHello head.peer

/-- CHP_FINISH_TIMEOUT (R432): the session is released. -/
def execChpFinishTimeout (session : Nat) (s : State) : Host.Outcome State Fault Refusal :=
  match s.session session with
  | some x => if x.finished ∨ s.packageHeld then .next s else .next (s.updHost (fun h => { h with sessions := drop' session h.sessions }))
  | none => .next s

/-! ## Delivery (R433, R435, R437) -/

/-- The open session of a packet, where its tag is right and it comes from the session's host. -/
def State.tagged (s : State) (head : ChpHead) (payload : List Byte) : Option Session :=
  match s.session head.session.toNat with
  | none => none
  | some x =>
    if x.finished ∧ x.peer = head.peer ∧ chpTag (x.key.take 32) (headBytes head 0) payload = head.tag.toNat then some x else none

/-- An ECN echo slows the session down, at most once in 50 µs (R437). -/
def Session.slower (x : Session) (now : Nat) : Session :=
  if x.lastCut.any (fun t => decide (now < t + 50000)) then x
  else { x with rate := max 1000000000 (x.rate * 7 / 8), lastCut := some now }

/-- What ACK and SACK say: the packets before ACK leave, those of SACK are marked. -/
def Session.acked (x : Session) (ack sack : Nat) : Session :=
  match x.unacked with
  | [] => x
  | u :: _ =>
    let k := (ack + 2 ^ 32 - u.1) % 2 ^ 32
    if x.unacked.length < k then x
    else
      let rest := (x.unacked.drop k).map (fun v =>
        let i := (v.1 + 2 ^ 32 - ack) % 2 ^ 32
        if 1 ≤ i ∧ bit sack (i - 1) then (v.1, v.2.1, v.2.2.1, v.2.2.2.1, true) else v)
      let data := rest.map (fun v => (v.2.1, v.2.2.1)) ++ x.waiting
      { x with unacked := rest, fastAt := x.fastAt.filter (fun f => rest.any (fun v => v.1 == f.1)),
               sentAt := x.sentAt.filter (fun f => rest.any (fun v => v.1 == f.1)),
               reads := x.reads.filter (fun r => data.any (fun w => w.1 == 0x12 && leNat (w.2.take 4) == r.1)) }

/-- The packet numbered ACK is sent again early: three later ones have arrived, and CHP_RTO has passed since it last was (R435). -/
def State.fastResend (s : State) (n ack sack : Nat) : State :=
  match s.session n with
  | none => s
  | some x =>
    let recent := x.fastAt.any (fun f => f.1 == ack && decide (s.ftime < f.2 + 1000 * s.get Key.chpRto))
    let there := x.unacked.any (fun v => v.1 == ack && !v.2.2.2.2 && decide (v.2.2.2.1 ≤ s.get Key.chpRetxLimit))
    if there && !recent && decide (3 ≤ ((List.range 64).filter (bit sack)).length) then
      (s.setSession n { x with fastAt := (ack, s.ftime) :: x.fastAt.filter (fun f => f.1 != ack) }).chpResend n ack
    else s

/-- What every packet of an open session brings: CE, an echo, an acknowledgement. -/
def State.takeHeader (s : State) (n : Nat) (x : Session) (head : ChpHead) : State :=
  let x1 := { x with ceSeen := x.ceSeen || head.ce }
  let s1 := if head.ecnEcho then (s.setSession n (x1.slower s.ftime)).count Key.chpEcnEchoes 1 else s.setSession n x1
  if head.ackValid = false then s1
  else
    match s1.session n with
    | none => s1
    | some y => ((s1.setSession n (y.acked head.ack.toNat head.sack.toNat)).fastResend n head.ack.toNat head.sack.toNat).chpFlow n

/-- A packet of a session is taken from the wire: discarded, or handled by `body` with the session's number. `fits` says whether its
payload is one that the session allows. -/
def chpOp (head : ChpHead) (type : Nat) (payload : List Byte) (s : State) (fits : Session → Bool) (body : Nat → State → State) :
    Host.Outcome State Fault Refusal :=
  chpIn head type payload s fun s =>
    match s.tagged head payload with
    | none => s.count Key.chpTagFailures 1
    | some x => if fits x then body head.session.toNat (s.takeHeader head.session.toNat x head) else s.rxDiscard

/-- Any payload. -/
def anyFits (_ : Session) : Bool := true

/-- ACK moved past the packets received in a row; the first argument bounds their number. -/
def advanceAck : Nat → Nat → Nat → Nat × Nat
  | 0, ack, sack => (ack, sack)
  | n + 1, ack, sack => if sack % 2 = 1 then advanceAck n ((ack + 1) % 2 ^ 32) (sack / 2) else ((ack + 1) % 2 ^ 32, sack / 2)

/-- The receive marks once the packet `d` after ACK is accepted: bit i of the mask is packet ACK + 1 + i. -/
def Session.received (x : Session) (d : Nat) : Session :=
  if d = 0 then
    let r := advanceAck 1024 x.rxAck x.rxSack
    { x with rxAck := r.1, rxSack := r.2, ackDue := true }
  else { x with rxSack := x.rxSack ||| 2 ^ (d - 1), ackDue := true }

/-- A sequenced packet (R435): a repeated one counts, one too far ahead or one that `take` says no to is not acknowledged, and any other is
accepted once. -/
def State.sequenced (s : State) (n seq : Nat) (take : Bool) (body : State → State) : State :=
  match s.session n with
  | none => s
  | some x =>
    let d := (seq + 2 ^ 32 - x.rxAck) % 2 ^ 32
    if 2 ^ 31 ≤ d ∨ (1 ≤ d ∧ bit x.rxSack (d - 1)) then (s.setSession n { x with ackDue := true }).count Key.chpDupRx 1
    else if 1024 ≤ d ∨ take = false then s
    else body (s.setSession n (x.received d))

/-- ACK_ONLY (R435): the header is all it brings. -/
def execAckOnly (head : ChpHead) (s : State) : Host.Outcome State Fault Refusal := chpOp head 5 [] s anyFits fun _ s => s

/-- CLOSE (R446). -/
def execChpClose (head : ChpHead) (s : State) : Host.Outcome State Fault Refusal :=
  chpOp head 4 [] s anyFits fun n s => s.sequenced n head.seq.toNat true (fun s => s.loseSession n false)

/-- CHP_ACK_DELAY_EXPIRY (R435): no effect with nothing to acknowledge. -/
def execChpAckDelayExpiry (session : Nat) (s : State) : Host.Outcome State Fault Refusal :=
  match s.session session with
  | some x => if s.portOpen ∧ x.finished ∧ x.ackDue then .next (s.chpEmit session 5 x.txSeq [] false) else .next s
  | none => .next s

/-- CHP_RTO_EXPIRY (R435): every packet that is neither acknowledged nor marked goes again once CHP_RTO has passed since it last
went. -/
def execChpRtoExpiry (session : Nat) (s : State) : Host.Outcome State Fault Refusal :=
  match s.session session with
  | some x =>
    if s.portOpen = false then .next s
    else
      let due := fun (seq : Nat) => (look seq x.sentAt).all (fun t => decide (t + 1000 * s.get Key.chpRto ≤ s.ftime))
      .next ((x.unacked.filter (fun v => !v.2.2.2.2 && due v.1 && decide (v.2.2.2.1 ≤ s.get Key.chpRetxLimit))).foldl
        (fun s v => s.chpResend session v.1) s)
  | none => .next s

/-- CHP_RETX_LIMIT (R435, R446): no effect while no packet has been sent CHP_RETX_LIMIT + 1 times. -/
def execChpRetxLimit (session : Nat) (s : State) : Host.Outcome State Fault Refusal :=
  match s.session session with
  | some x =>
    if s.portOpen ∧ x.unacked.any (fun v => !v.2.2.2.2 && decide (s.get Key.chpRetxLimit < v.2.2.2.1)) then .next (s.loseSession session true)
    else .next s
  | none => .next s

/-- CHP_IDLE_TIMEOUT (R446). -/
def execChpIdleTimeout (session : Nat) (s : State) : Host.Outcome State Fault Refusal :=
  match s.session session with
  | some x => if s.portOpen ∧ x.finished then .next (s.loseSession session true) else .next s
  | none => .next s

/-- CHP_RATE_RAISE (R437): the rate in bits per second. -/
def execChpRateRaise (session : Nat) (s : State) : Host.Outcome State Fault Refusal :=
  match s.session session with
  | some x => .next (s.whileUp (·.setSession session { x with rate := min 1600000000000 (x.rate + 2000000000) }))
  | none => .next s

/-! ## Recording (R449) -/

/-- The recording regions as (setting, first place in the ring, bytes), in setting order. -/
def State.recordRegions (s : State) : List (Nat × Nat × Nat) :=
  (settings.foldl (fun (a : Nat × List (Nat × Nat × Nat)) n =>
    let b := if (s.stack n).lost then 0 else (s.stack n).ring * mib
    (a.1 + b, if b = 0 then a.2 else a.2 ++ [(n, a.1, b)])) (0, [])).2

/-- The place of a record of some length at or after a place: no record spans two regions. After the last region the ring begins again. -/
def State.recordPlace (s : State) (from_ len : Nat) : Option Nat :=
  let rs := s.recordRegions
  let fits := rs.filterMap (fun r =>
    let p := max from_ r.2.1
    if p + len ≤ r.2.1 + r.2.2 then some p else none)
  match fits with
  | p :: _ => some p
  | [] => (rs.find? (fun r => decide (len ≤ r.2.2))).map (·.2.1)

/-- The setting and offset of a place of the ring. -/
def State.recordAddr (s : State) (p : Nat) : Option (Nat × Nat) :=
  (s.recordRegions.find? (fun r => decide (r.2.1 ≤ p) && decide (p < r.2.1 + r.2.2))).map
    (fun r => (r.1, (s.stack r.1).recordBase + (p - r.2.1)))

/-- Records whose bytes a new one takes: those from the place on that it reaches, and those the wrap passes over. -/
def recordHit (next p len : Nat) (r : Nat × Nat × Nat × Nat) : Bool :=
  let a := r.1
  let b := r.1 + r.2.1
  (decide (a < p + len) && decide (p < b)) || (decide (p < next) && decide (next ≤ a)) || (decide (next ≤ p) && decide (next ≤ a) && decide (a < p))

/-- A packet accepted from the host is recorded. -/
def State.recordPacket (s : State) (type n seq : Nat) (bytes : List Byte) : State :=
  let c := s.host.recording
  if c.st = 0 ∨ c.st = 3 then s
  else
    let head := leBytes 64 (0x4EC0 + type * 2 ^ 16 + n * 2 ^ 24 + bytes.length * 2 ^ 32 + s.ftime * 2 ^ 64 + c.number % 2 ^ 32 * 2 ^ 128
      + seq * 2 ^ 160)
    let all := head ++ bytes ++ List.replicate (64 * ceilDiv bytes.length 64 - bytes.length) 0
    let stop := fun (s : State) => (s.updHost (fun h => { h with recording := { h.recording with st := 0 } })).count Key.recordFullStops 1
    match s.recordPlace c.next all.length with
    | none => if c.st = 2 then stop s else s
    | some p =>
      let hit := c.records.filter (recordHit c.next p all.length)
      if c.st = 2 ∧ hit ≠ [] then stop s
      else
        match s.recordAddr p with
        | none => s
        | some (k, off) =>
          let kept := c.records.filter (fun r => !recordHit c.next p all.length r)
          let s1 := s.updHost (fun h => { h with recording := { c with
            records := kept ++ [(p, all.length, c.number, s.ftime)], next := p + all.length, number := c.number + 1 } })
          (s1.hbmWrite k s.hostWho off all).count Key.recordOverwritten hit.length

/-! ## Requests (R436, R438–R441) -/

/-- Removes the first of equal requests. -/
def State.dropReq (s : State) (r : HostReq) : State := s.updHost (fun h => { h with reqs := h.reqs.erase r })

/-- Replaces the first of equal requests. -/
def State.swapReq (s : State) (r r' : HostReq) : State := s.updHost (fun h => { h with reqs := h.reqs.replace r r' })

/-- Further data of a request is only acknowledged from here on (R436). -/
def State.noteEnded (s : State) (n reqId : Nat) : State :=
  match s.session n with
  | some x => s.setSession n { x with ended := if x.ended.contains reqId then x.ended else reqId :: x.ended }
  | none => s

/-- A request that takes no data or whose data is over is replied to. -/
def State.replyTo (s : State) (n record status d0 d1 : Nat) : State :=
  let s1 := if qOp record = 1 ∨ qOp record = 9 then s.noteEnded n (qId record) else s
  s1.chpReply n (qId record) (qOp record) status d0 d1

/-- A request in progress ends. -/
def State.endReq (s : State) (r : HostReq) (status d0 d1 : Nat) : State := (s.dropReq r).replyTo r.session r.record status d0 d1

/-- The fields of RING_CONFIG and LOAD (R439, R442). -/
def qBase (r : Nat) : Nat := fld r 104 40
def lImage (r : Nat) : Nat := fld r 128 40
def lImageLen (r : Nat) : Nat := fld r 192 17
def lData (r : Nat) : Nat := fld r 256 40
def lDataLen (r : Nat) : Nat := fld r 320 22

/-- The stacks that a request reaches. -/
def State.reqStacks (s : State) (record : Nat) : List Nat :=
  match qOp record with
  | 5 => devSetting (lImage record) :: (if lDataLen record = 0 then [] else [devSetting (lData record)])
  | 8 => [devSetting (qBase record)]
  | 9 => [devSetting (s.ring (qRing record)).base]
  | _ => [devSetting (qAddr record)]

/-- The buffer entries of a range are flushed (R319, R320). -/
def State.flushRange (s : State) (a len : Nat) : State :=
  let off := devOffset a
  s.hbmFlush (devSetting a) (fun w => decide (off < 64 * w.line + 64) && decide (64 * w.line < off + len))

/-- Data that a request holds lands, from a device address on. -/
def State.landData (s : State) (r : HostReq) (a : Nat) : State × HostReq :=
  let s1 := r.held.foldl (fun s d => s.hostWrite (a + d.1) d.2) s
  (s1, { r with held := [], landed := r.held.foldl (fun l d => insertRange d.1 d.2.length l) r.landed })

/-- The data of a WRITE or RING_PUT has landed in part or whole: a request whose every byte has ends. -/
def State.serveData (s : State) (r : HostReq) (a : Nat) : State :=
  let x := s.landData r a
  let len := qLen r.record
  if coveredBytes len x.2.landed < len then x.1.swapReq r x.2
  else
    let s1 := if qFlush r.record then x.1.flushRange a len else x.1
    match r.claim with
    | some j => (s1.completeClaim (qRing r.record) j).endReq r 0 j r.detail1
    | none => s1.endReq r 0 len 0

/-- A RING_PUT reads CONSUMED and claims the next entry (R445). -/
def State.claimEntry (s : State) (r : HostReq) : State :=
  let n := qRing r.record
  let x := s.ring n
  let c := s.devRead (x.base + 8) 8
  match c.2 with
  | none => c.1.endReq r 7 0 0
  | some bs =>
    let consumed := leNat bs
    if 2 ^ x.countLog2 ≤ (x.produced + x.claims.length + 2 ^ 64 - consumed) % 2 ^ 64 then c.1.endReq r 6 0 consumed
    else
      let j := (x.produced + x.claims.length) % 2 ^ 64
      let r' := { r with claim := some j, detail1 := consumed }
      ((c.1.setRing n { x with claims := x.claims ++ [(j, false)] }).swapReq r r').serveData r' (x.entryAddr j)

/-- The lines of a READ up to the first that is uncorrectable: the bytes, and whether one was. -/
def State.readUntil (s : State) (n l : Nat) : Nat → State × List Byte × Bool
  | 0 => (s, [], false)
  | k + 1 =>
    let r := s.readLine n l
    match r.2 with
    | none => (r.1, [], true)
    | some d =>
      let t := State.readUntil r.1 n (l + 1) k
      (t.1, d ++ t.2.1, t.2.2)

/-- DATA packets of a request, each of at most `size` bytes; the first argument bounds their number. -/
def State.sendData (s : State) (n reqId size : Nat) : Nat → Nat → List Byte → State
  | 0, _, _ => s
  | k + 1, off, bs =>
    if bs.isEmpty then s
    else
      let part := bs.take size
      (s.chpSend n 0x12 (leBytes 16 (reqId % 2 ^ 32 + off % 2 ^ 64 * 2 ^ 64) ++ part)).sendData n reqId size k (off + part.length) (bs.drop size)

/-- MAX_DATA of a session; of one that is gone, the largest (for its replayed requests, R450). -/
def State.maxData (s : State) (n : Nat) : Nat := ((s.session (n % 256)).map (·.maxData)).getD 8192

/-- A READ is executed. -/
def State.serveRead (s : State) (r : HostReq) : State :=
  let a := qAddr r.record
  let x := s.readUntil (devSetting a) (devOffset a / 64) (qLen r.record / 64)
  let size := s.maxData r.session
  let s0 := match s.session r.session with
    | some y => x.1.setSession r.session { y with reads := put (qId r.record) a y.reads }
    | none => x.1
  let s1 := if 256 ≤ r.session then x.1 else s0.sendData r.session (qId r.record) size (x.2.1.length / size + 1) 0 x.2.1
  if x.2.2 then s1.endReq r 7 x.2.1.length x.2.1.length else s1.endReq r 0 x.2.1.length 0

/-! ## Program load (R442, R443) -/

/-- The logical core IDs that the masks of a LOAD name. -/
def loadTargets (r : Nat) : List Nat :=
  (List.range 6144).filter (fun c => bit r (64 + c / 256) && decide (c / 64 % 4 < 3) && bit r (88 + c / 64 % 4) && bit r (91 + c / 16 % 4)
    && bit r (96 + c % 16))

/-- A context started by a LOAD. -/
def startedCtx (r : Nat) : Ctx :=
  { (Ctx.fresh.set 1 (BitVec.ofNat 64 (fld r 384 64))) with pc := BitVec.ofNat 16 (fld r 240 16), st := .ready }

/-- The bytes of a LOAD in a core. -/
def Core.loaded (c : Core) (r : Nat) (image data : List Byte) : Core :=
  { c with sp := c.sp.writeN (fld r 352 21) data, ibuf := c.ibuf.writeN (fld r 224 16) image }

/-- The companion of a core may be loaded: it is halted or not loaded (R443). -/
def Core.companionFree (c : Core) : Bool := c.companion.st == .halted || c.companion.st == .notLoaded

/-- The copies of a LOAD are read: the image, then the preload. -/
def State.loadBytes (s : State) (r : Nat) : State × Option (List Byte × List Byte) :=
  let i := s.devRead (lImage r) (lImageLen r)
  let d := i.1.devRead (lData r) (lDataLen r)
  (d.1, match i.2, d.2 with
    | some a, some b => some (a, b)
    | _, _ => none)

/-- A LOAD whose targets are under reset waits for the end of it (R443, R486). Its own reset of a core that a reset in progress covers is absorbed,
and counts once; an engine reset that is in capture widens to the core; after an engine reset whose capture has ended the LOAD's reset follows. -/
def State.mergeLoad (s : State) (r : HostReq) (cores : List Nat) : State :=
  if r.detail1 = 1 ∨ bit r.record 95 then s
  else
    let hits := fun (s : State) (p : Nat) => s.resets.filter (fun j => domOverlap j.dom (1, 0, p))
    let covered := fun (p : Nat) => (hits s p).any (fun j => domCovers j.dom (1, 0, p))
    let s1 := s.updHost (fun h => { h with reqs := h.reqs.map (fun x => if x = r then { x with detail1 := 1 } else x) })
    let s2 := (cores.filter (fun p => !covered p && (hits s p).all (fun j => j.phase == .capture))).foldl (fun s p =>
      match hits s p with
      | [] => s
      | j :: _ => s.requestReset (1, 0, p) j.cause false) s1
    if cores.any covered then s2.count Key.resetRequestsMerged 1 else s2

/-- A LOAD is executed. -/
def State.serveLoad (s : State) (r : HostReq) : State :=
  let v := r.record
  let ids := loadTargets v
  let cores := ids.filterMap s.physOf
  if cores.any (fun p => s.resets.any (fun j => domOverlap j.dom (1, 0, p))) then s.mergeLoad r cores
  else if bit v 95 = false then
    let s1 := (cores.foldl (fun s p => (s.abandonSwaps (1, 0, p)).resetCore p) s).runColls.pumpMsgs
    let x := s1.loadBytes v
    match x.2 with
    | none => x.1.endReq r 7 0 (ids.length - cores.length)
    | some (image, data) =>
      (cores.foldl (fun s p => s.updCore p (fun c => { c.loaded v image data with primary := startedCtx v, crc := x.1.lockCrc c.crc data })) x.1).endReq r 0 cores.length
        (ids.length - cores.length)
  else
    let x := s.loadBytes v
    let free := cores.filter (fun p => (x.1.core p).companionFree)
    match x.2 with
    | none => x.1.endReq r 7 0 (ids.length - cores.length)
    | some (image, data) =>
      (free.foldl (fun s p => s.updCore p (fun c => { c.loaded v image data with companion := startedCtx v, crc := x.1.lockCrc c.crc data })) x.1).endReq r
        (if free.length = cores.length then 0 else 3) free.length (ids.length - free.length)

/-- RING_CONFIG is executed (R445). -/
def State.serveRing (s : State) (r : HostReq) : State :=
  let v := r.record
  let n := qRing v
  let x := s.ring n
  if x.claims ≠ [] then s.endReq r 3 0 0
  else if bit v 70 then
    let y : Ring := { enabled := true, base := qBase v, entryLog2 := fld v 144 5, countLog2 := fld v 152 4, core := fld v 160 13,
                      ctr := fld v 176 8, produced := 0, claims := [] }
    ((s.setRing n y).hostWrite (qBase v) (List.replicate 16 0)).endReq r 0 0 0
  else (s.setRing n { x with enabled := false }).endReq r 0 0 0

/-- A request in progress goes on as far as it can: a stack that is lost ends it, one whose controller accepts nothing holds it (R441). -/
def State.serve (s : State) (r : HostReq) : State :=
  let ns := s.reqStacks r.record
  if ns.any (fun n => (s.stack n).lost) then
    match r.claim with
    | some j => (s.completeClaim (qRing r.record) j).endReq r 2 0 0
    | none => s.endReq r 2 0 0
  else if ns.any (fun n => !s.controllerOpen n) then s
  else
    match qOp r.record with
    | 1 => s.serveData r (qAddr r.record)
    | 2 => s.serveRead r
    | 5 => s.serveLoad r
    | 8 => s.serveRing r
    | _ =>
      match r.claim with
      | none => s.claimEntry r
      | some j => s.serveData r ((s.ring (qRing r.record)).entryAddr j)

/-- A request waits for nothing but its data. -/
def HostReq.waitsData (r : HostReq) : Bool := r.held.isEmpty && (qOp r.record == 1 || (qOp r.record == 9 && r.claim.isSome))

/-- The held requests are offered again, in order of acceptance (R441). -/
def State.hostRetry (s : State) : State :=
  (s.host.reqs.filter (fun r => !r.waitsData || (s.reqStacks r.record).any (fun n => (s.stack n).lost))).foldl State.serve s

/-- A request is accepted and begins. -/
def State.beginReq (s : State) (n record : Nat) : State :=
  let r : HostReq := { session := n, record := record, landed := [], held := [], claim := none, detail1 := 0 }
  let s1 := match s.session n with
    | some x => s.setSession n { x with ended := x.ended.filter (· != qId record) }
    | none => s
  let s2 := s1.updHost (fun h => { h with reqs := h.reqs ++ [r] })
  if r.waitsData then s2 else s2.serve r

/-! ## What each request does once accepted -/

/-- The range of a WRITE or READ: 1 BAD_REQUEST, 2 BAD_ADDRESS, 0 good (R439, R441). -/
def State.rangeStatus (s : State) (v : Nat) (write : Bool) : Nat :=
  let a := qAddr v
  let len := qLen v
  let x := s.stack (devSetting a)
  if a % 64 ≠ 0 ∨ len % 64 ≠ 0 ∨ len = 0 ∨ 2 ^ 40 < a + len then 1
  else if 24 ≤ devSetting a then 2
  else if (if write then x.writable (devOffset a) len else x.readable (devOffset a) len) then 0
  else 2

/-- WRITE or READ. -/
def State.doTransfer (s : State) (n v : Nat) : State :=
  match s.rangeStatus v (qOp v == 1) with
  | 0 => s.beginReq n v
  | e => s.replyTo n v e 0 0

/-- DICT_READ (R439): a value longer than 16 bytes follows as a DATA packet, filled with zeros to 64. -/
def State.doDictRead (s : State) (n v : Nat) : State :=
  let r := s.readEntry (fld v 64 16) (fld v 80 8)
  match r.2.1 with
  | 0 =>
    let bs := r.2.2
    let s1 := r.1.replyTo n v 0 (leNat (bs.take 8)) (leNat ((bs.drop 8).take 8))
    if bs.length ≤ 16 then s1 else s1.sendData n (qId v) 64 1 0 (fit64 bs)
  | 1 => r.1.replyTo n v 5 0 0
  | _ => r.1.replyTo n v 4 0 0
where
  /-- Bytes filled with zeros to 64. -/
  fit64 (bs : List Byte) : List Byte := bs ++ List.replicate (64 - bs.length) 0

/-- The reply status of an item status (R463). -/
def chpOfItem (st : Nat) : Nat :=
  match st with
  | 0 => 0
  | 1 => 5
  | 2 => 4
  | _ => 1

/-- A write of RESET_REQUEST that names a part of the package: no CHP request resets one (R448). -/
def resetsPart (v : Nat) : Bool :=
  256 * fld v 64 16 + fld v 80 8 == Key.resetRequest.key && fld v 88 8 == 4 && decide (fld v 256 3 < 6)

/-- DICT_WRITE (R439, R485): a package reset that the write asks for begins after the reply, and the port has stopped. The entry's
right forbids a CHP write that would reset a part of the package (R36, R448). -/
def State.doDictWrite (s : State) (n v : Nat) : State :=
  let len := fld v 88 8
  if len = 0 ∨ 32 < len then s.replyTo n v 1 0 0
  else if resetsPart v then (s.count Key.dictWritesRefused 1).replyTo n v 4 0 0
  else
    let r := s.dictWrite (fld v 64 16) (fld v 80 8) (leBytes len (fld v 256 256))
    (r.1.replyTo n v (chpOfItem r.2.1) 0 0).startPending r.2.2

/-- LOAD (R442). -/
def State.doLoad (s : State) (n v : Nat) : State :=
  let bad := fun (a len : Nat) => 24 ≤ devSetting a || !(s.stack (devSetting a)).readable (devOffset a) len
  if lImage v % 64 ≠ 0 ∨ lImageLen v % 4 ≠ 0 ∨ lImageLen v = 0 ∨ 65536 < lImageLen v ∨ fld v 224 16 % 4 ≠ 0 ∨ fld v 240 16 % 4 ≠ 0
      ∨ lData v % 64 ≠ 0 ∨ lDataLen v % 64 ≠ 0 ∨ 0x200000 < lDataLen v ∨ fld v 352 21 % 64 ≠ 0
      ∨ 65536 < fld v 224 16 + lImageLen v ∨ 0x200000 < fld v 352 21 + lDataLen v then s.replyTo n v 1 0 0
  else if bad (lImage v) (lImageLen v) || (lDataLen v != 0 && bad (lData v) (lDataLen v)) then s.replyTo n v 2 0 0
  else s.beginReq n v

/-- The session a queue is bound to is the one of the request (R444, R450). -/
def State.ownQueue (s : State) (n q : Nat) : Bool := (look q s.host.cmdqs).any (fun x => x.session == n % 256)

/-- CMDQ_BIND (R444). -/
def State.doBind (s : State) (n v : Nat) : State :=
  let q := fld v 64 4
  let chan := fld v 112 4
  let taken := (look q s.host.cmdqs).any (fun x => x.session != n % 256)
    || s.host.cmdqs.any (fun x => x.1 != q && x.2.channel == chan)
  if (s.physOf (fld v 96 13)).isNone then s.replyTo n v 1 0 0
  else if taken then s.replyTo n v 9 0 0
  else
    let x : CmdQueue := { session := n % 256, core := fld v 96 13, channel := chan, credits := none,
                          pushes := ((look q s.host.cmdqs).map (·.pushes)).getD [] }
    (s.updHost (fun h => { h with cmdqs := put q x h.cmdqs })).replyTo n v 0 0 0

/-- CMDQ_BIND with UNBIND = 1: pushes that were held are not sent. -/
def State.doUnbind (s : State) (n v : Nat) : State :=
  let q := fld v 64 4
  if s.ownQueue n q = false then s.replyTo n v 9 0 0
  else
    let held := ((look q s.host.cmdqs).map (·.pushes)).getD []
    let s1 := s.updHost (fun h => { h with cmdqs := drop' q h.cmdqs })
    (held.foldl (fun s p => s.chpReply p.1 p.2.1 7 9 0 0) s1).replyTo n v 0 0 0

/-- CMD_PUSH (R444). -/
def State.doPush (s : State) (n v : Nat) (payload : List Byte) : State :=
  let q := fld v 64 4
  if payload.length = 0 ∨ s.maxData n - 64 < payload.length then s.replyTo n v 1 0 0
  else if s.ownQueue n q = false then s.replyTo n v 9 0 0
  else
    (s.updHost (fun h => { h with cmdqs := h.cmdqs.map (fun x =>
      if x.1 = q then (x.1, { x.2 with pushes := x.2.pushes ++ [(n, qId v, payload)] }) else x) })).pumpHost

/-- RING_CONFIG (R445). -/
def State.doRing (s : State) (n v : Nat) : State :=
  let a := qBase v
  let e := fld v 144 5
  let c := fld v 152 4
  if a % 64 ≠ 0 ∨ e < 6 ∨ 16 < e ∨ c = 0 ∨ (s.physOf (fld v 160 13)).isNone then s.replyTo n v 1 0 0
  else if 24 ≤ devSetting a ∨ (s.stack (devSetting a)).writable (devOffset a) (64 + 2 ^ (e + c)) = false then s.replyTo n v 2 0 0
  else s.beginReq n v

/-- RING_PUT (R445). -/
def State.doRingPut (s : State) (n v : Nat) : State :=
  let x := s.ring (qRing v)
  if x.enabled = false ∨ qLen v % 64 ≠ 0 ∨ 2 ^ x.entryLog2 < qLen v then s.replyTo n v 1 0 0 else s.beginReq n v

/-- RESET (R447): the port stops, replies whatever the window, and asks for the reset. -/
def State.doReset (s : State) (n v : Nat) (cold : Bool) : State :=
  let rec' := replyRecord (qId v) 10 0 0 0 s.ftime
  let s1 := match s.session n with
    | none => s
    | some x => (s.setSession n { x with txSeq := (x.txSeq + 1) % 2 ^ 32,
                                         unacked := x.unacked ++ [(x.txSeq, 0x11, rec', 1, false)] }).chpEmit n 0x11 x.txSeq rec' false
  (s1.updHost (fun h => { h with stopped := true })).requestReset (if cold then 7 else 6, 0, 0) 5 (!cold)

/-- RECORD (R449): the ACTION, and the reply with the records held. -/
def State.doRecord (s : State) (n v : Nat) : State :=
  let c := s.host.recording
  let c' : Recording := match fld v 64 2 with
    | 0 => { c with st := 0 }
    | 1 => { c with st := 1 }
    | 2 => { c with st := 2 }
    | _ => { c with records := [], next := 0, number := 0 }
  (s.updHost (fun h => { h with recording := c' })).replyTo n v 0 c'.records.length 0

/-! ## Replay (R450) -/

/-- A replay ends: its reply. -/
def State.endReplay (s : State) : State :=
  match s.host.replay with
  | none => s
  | some r =>
    (s.updHost (fun h => { h with replay := none, recording := { h.recording with st := 0 } })).chpReply r.session r.reqId 12 0 r.count 0

/-- REPLAY (R450). -/
def State.doReplay (s : State) (n v : Nat) : State :=
  let c := s.host.recording
  if c.st ≠ 0 then s.replyTo n v 3 0 0
  else
    let r : Replay := { left := c.records, paced := bit v 64, start := s.ftime, first := (c.records.head?.map (·.2.2.2)).getD 0, count := 0,
                        session := n, reqId := qId v }
    let s1 := s.updHost (fun h => { h with replay := some r, recording := { c with st := 3 } })
    if c.records = [] then s1.endReplay else s1

/-- REPLAY with STOP = 1. -/
def State.doReplayStop (s : State) (n v : Nat) : State :=
  let count := (s.host.replay.map (·.count)).getD 0
  s.endReplay.replyTo n v 0 count 0

/-! ## Requests from the wire -/

/-- A request is one that a replay does not refuse (R450). -/
def replayFree (v : Nat) : Bool := [2, 3, 10].contains (qOp v) || (qOp v == 12 && bit v 65)

/-- A request is one that is not recorded (R449). -/
def unrecorded (v : Nat) : Bool := [2, 3, 10, 11, 12].contains (qOp v)

/-- A REQUEST (R435, R436, R439): `mine` says whether the record is this command's, and `body` executes it. A reserved OP is answered
BAD_REQUEST; a record of another command has no effect (log entry 9). -/
def requestOp (head : ChpHead) (record : BitVec 512) (extra : List Byte) (mine : Nat → Bool) (s : State) (body : Nat → Nat → State → State) :
    Host.Outcome State Fault Refusal :=
  let v := record.toNat
  let payload := leBytes 64 v ++ extra
  let reserved := qOp v == 0 || decide (12 < qOp v)
  if mine v = false ∧ reserved = false then .next s
  else
    chpOp head 0x10 payload s anyFits fun n s =>
      s.sequenced n head.seq.toNat true fun s =>
        let s1 := if unrecorded v then s else s.recordPacket 0x10 n head.seq.toNat (packetAsCame head payload)
        if reserved then s1.replyTo n v 1 0 0
        else if s1.host.replay.isSome ∧ replayFree v = false then s1.replyTo n v 3 0 0
        else body n v s1

/-- CHP_WRITE (R439, R440). -/
def execChpWrite (head : ChpHead) (record : BitVec 512) (s : State) : Host.Outcome State Fault Refusal :=
  requestOp head record [] (fun v => qOp v == 1) s fun n v s => s.doTransfer n v

/-- CHP_READ (R439, R440). -/
def execChpRead (head : ChpHead) (record : BitVec 512) (s : State) : Host.Outcome State Fault Refusal :=
  requestOp head record [] (fun v => qOp v == 2) s fun n v s => s.doTransfer n v

/-- DICT_READ (R439). -/
def execDictRead (head : ChpHead) (record : BitVec 512) (s : State) : Host.Outcome State Fault Refusal :=
  requestOp head record [] (fun v => qOp v == 3) s fun n v s => s.doDictRead n v

/-- DICT_WRITE (R439). -/
def execDictWrite (head : ChpHead) (record : BitVec 512) (s : State) : Host.Outcome State Fault Refusal :=
  requestOp head record [] (fun v => qOp v == 4) s fun n v s => s.doDictWrite n v

/-- LOAD_PRIMARY (R442, R443). -/
def execLoadPrimary (head : ChpHead) (record : BitVec 512) (s : State) : Host.Outcome State Fault Refusal :=
  requestOp head record [] (fun v => qOp v == 5 && !bit v 95) s fun n v s => s.doLoad n v

/-- LOAD_COMPANION (R442, R443). -/
def execLoadCompanion (head : ChpHead) (record : BitVec 512) (s : State) : Host.Outcome State Fault Refusal :=
  requestOp head record [] (fun v => qOp v == 5 && bit v 95) s fun n v s => s.doLoad n v

/-- CMDQ_BIND (R444). -/
def execCmdqBind (head : ChpHead) (record : BitVec 512) (s : State) : Host.Outcome State Fault Refusal :=
  requestOp head record [] (fun v => qOp v == 6 && !bit v 80) s fun n v s => s.doBind n v

/-- CMDQ_UNBIND (R444). -/
def execCmdqUnbind (head : ChpHead) (record : BitVec 512) (s : State) : Host.Outcome State Fault Refusal :=
  requestOp head record [] (fun v => qOp v == 6 && bit v 80) s fun n v s => s.doUnbind n v

/-- CMD_PUSH (R444). -/
def execCmdPush (head : ChpHead) (record : BitVec 512) (payload : List Byte) (s : State) : Host.Outcome State Fault Refusal :=
  requestOp head record payload (fun v => qOp v == 7) s fun n v s => s.doPush n v payload

/-- RING_CONFIG with ENABLE = 1 (R445). -/
def execRingConfigEnable (head : ChpHead) (record : BitVec 512) (s : State) : Host.Outcome State Fault Refusal :=
  requestOp head record [] (fun v => qOp v == 8 && bit v 70) s fun n v s => s.doRing n v

/-- RING_CONFIG with ENABLE = 0 (R445). -/
def execRingConfigDisable (head : ChpHead) (record : BitVec 512) (s : State) : Host.Outcome State Fault Refusal :=
  requestOp head record [] (fun v => qOp v == 8 && !bit v 70) s fun n v s => s.doRing n v

/-- RING_PUT (R445). -/
def execRingPut (head : ChpHead) (record : BitVec 512) (s : State) : Host.Outcome State Fault Refusal :=
  requestOp head record [] (fun v => qOp v == 9) s fun n v s => s.doRingPut n v

/-- RESET with KIND 0 (R447). -/
def execChpResetWarm (head : ChpHead) (record : BitVec 512) (s : State) : Host.Outcome State Fault Refusal :=
  requestOp head record [] (fun v => qOp v == 10 && !bit v 64) s fun n v s => s.doReset n v false

/-- RESET with KIND 1 (R447). -/
def execChpResetCold (head : ChpHead) (record : BitVec 512) (s : State) : Host.Outcome State Fault Refusal :=
  requestOp head record [] (fun v => qOp v == 10 && bit v 64) s fun n v s => s.doReset n v true

/-- RECORD with ACTION 0 (R449). -/
def execRecordStop (head : ChpHead) (record : BitVec 512) (s : State) : Host.Outcome State Fault Refusal :=
  requestOp head record [] (fun v => qOp v == 11 && fld v 64 2 == 0) s fun n v s => s.doRecord n v

/-- RECORD with ACTION 1 (R449). -/
def execRecordStartWrapping (head : ChpHead) (record : BitVec 512) (s : State) : Host.Outcome State Fault Refusal :=
  requestOp head record [] (fun v => qOp v == 11 && fld v 64 2 == 1) s fun n v s => s.doRecord n v

/-- RECORD with ACTION 2 (R449). -/
def execRecordStartStopFull (head : ChpHead) (record : BitVec 512) (s : State) : Host.Outcome State Fault Refusal :=
  requestOp head record [] (fun v => qOp v == 11 && fld v 64 2 == 2) s fun n v s => s.doRecord n v

/-- RECORD with ACTION 3 (R449). -/
def execRecordClear (head : ChpHead) (record : BitVec 512) (s : State) : Host.Outcome State Fault Refusal :=
  requestOp head record [] (fun v => qOp v == 11 && fld v 64 2 == 3) s fun n v s => s.doRecord n v

/-- REPLAY (R450). -/
def execChpReplay (head : ChpHead) (record : BitVec 512) (s : State) : Host.Outcome State Fault Refusal :=
  requestOp head record [] (fun v => qOp v == 12 && !bit v 65) s fun n v s => s.doReplay n v

/-- REPLAY with STOP = 1 (R450). -/
def execReplayStop (head : ChpHead) (record : BitVec 512) (s : State) : Host.Outcome State Fault Refusal :=
  requestOp head record [] (fun v => qOp v == 12 && bit v 65) s fun n v s => s.doReplayStop n v

/-! ## Data (R436, R440) -/

/-- The request of a session that a DATA packet belongs to. -/
def State.dataReq (s : State) (n reqId : Nat) : Option HostReq :=
  s.host.reqs.find? (fun r => r.session == n && qId r.record == reqId && (qOp r.record == 1 || qOp r.record == 9))

/-- Data of a request lands, or is held for its controller. Data beyond LENGTH is discarded. -/
def State.takeData (s : State) (n reqId off : Nat) (bs : List Byte) : State :=
  match s.dataReq n reqId with
  | none => s
  | some r =>
    if qLen r.record < off + bs.length then s
    else
      let r' := { r with held := r.held ++ [(off, bs)] }
      (s.swapReq r r').serve r'

/-- CHP_DATA (R436, R440): data whose request has not been accepted is discarded unacknowledged; that of a refused one is acknowledged. -/
def execChpData (head : ChpHead) (payload : List Byte) (s : State) : Host.Outcome State Fault Refusal :=
  let sub := leNat (payload.take 16)
  let bs := payload.drop 16
  let reqId := fld sub 0 32
  chpOp head 0x12 payload s (fun x => decide (16 ≤ payload.length) && bs.length % 64 == 0 && decide (bs.length ≤ x.maxData)) fun n s =>
    let known := (s.dataReq n reqId).isSome || (s.session n).any (fun x => x.ended.contains reqId)
    s.sequenced n head.seq.toNat known fun s =>
      (s.recordPacket 0x12 n head.seq.toNat (packetAsCame head payload)).takeData n reqId (fld sub 64 64) bs

/-! ## Replayed records -/

/-- A recorded packet takes effect as if it had just been accepted: session numbers from 256 on mark what a replay has brought. -/
def State.inject (s : State) (type n : Nat) (payload : List Byte) : State :=
  let v := leNat (payload.take 64)
  if type = 0x12 then
    let sub := leNat (payload.take 16)
    s.takeData (256 + n) (fld sub 0 32) (fld sub 64 64) (payload.drop 16)
  else
    match qOp v with
    | 1 => s.doTransfer (256 + n) v
    | 4 => s.doDictWrite (256 + n) v
    | 5 => s.doLoad (256 + n) v
    | 6 => if bit v 80 then s.doUnbind (256 + n) v else s.doBind (256 + n) v
    | 7 => s.doPush (256 + n) v (payload.drop 64)
    | 8 => s.doRing (256 + n) v
    | 9 => s.doRingPut (256 + n) v
    | _ => s.replyTo (256 + n) v 1 0 0

/-- The bytes of a record, from its place in the ring. -/
def State.recordBytes (s : State) (p len : Nat) : State × Option (List Byte) :=
  match s.recordAddr p with
  | none => (s, none)
  | some (k, off) => s.hbmRead k off len

/-- REPLAY_RECORD (R450): the next record, once its time has come. One that cannot be read has no effect. -/
def execReplayRecord (s : State) : Host.Outcome State Fault Refusal :=
  match s.host.replay with
  | none => .next s
  | some r =>
    match r.left with
    | [] => .next s.endReplay
    | (p, len, _, time) :: rest =>
      if s.portOpen = false ∨ (r.paced ∧ s.ftime < r.start + (time - r.first)) then .next s
      else
        let x := s.recordBytes p len
        let s1 := x.1.updHost (fun h => { h with replay := some { r with left := rest, count := r.count + 1 } })
        let s2 := match x.2 with
          | none => s1
          | some bs =>
            let h := leNat (bs.take 64)
            s1.inject (fld h 16 8) (fld h 24 8) ((bs.drop 112).take (fld h 32 32 - 48))
        .next (if rest = [] then s2.endReplay else s2)

/-! ## The network and PTP (R427, R429) -/

/-- The content of a frame of the network protocols, from the addresses it holds. -/
def netBytes (target sender mac : Nat) : List Byte := leBytes 16 target ++ leBytes 16 sender ++ leBytes 6 mac

/-- ARP_REQUEST (R427). The first octet of HOST_IPV4 is the lowest of the number: DESIGN CHOICE (log entry 45). -/
def execArpRequest (target sender : BitVec 32) (asker : Asker) (s : State) : Host.Outcome State Fault Refusal :=
  wireOp s.portOpen asker.wire (netBytes target.toNat sender.toNat asker.mac.toNat) s fun s =>
    let own := s.get Key.hostIpv4
    let bytes := portMac ++ leBytes 4 own ++ leBytes 6 asker.mac.toNat
    if own ≠ 0 ∧ target.toNat = own then s.sendHost none bytes (.net 0 sender.toNat bytes) else s

/-- The answer of an address on the Chain, which takes untagged frames of at most 1,518 bytes (R452). -/
def State.chainAdvert (s : State) (target sender : Nat) (asker : Asker) : State :=
  if s.chainOn = false ∨ asker.wire.vlans ≠ 0 ∨ 1518 < asker.wire.size ∨ target ≠ s.chainAddr then s
  else s.chainFrame sender (leBytes 6 (leNat [0x02, 0x53, 0, 0, 0, BitVec.ofNat 8 s.macByte]) ++ leBytes 16 s.chainAddr ++ leBytes 6 asker.mac.toNat) 0

/-- NEIGHBOUR_SOLICITATION at the host port or on the Chain (R427, R452). Addresses are numbered with their first octet lowest. -/
def execNeighbourSolicitation (target sender : BitVec 128) (asker : Asker) (s : State) : Host.Outcome State Fault Refusal :=
  if asker.chain then .next (s.chainAdvert target.toNat sender.toNat asker)
  else
    wireOp s.portOpen asker.wire (netBytes target.toNat sender.toNat asker.mac.toNat) s fun s =>
      let own := s.get Key.hostIpv6
      let bytes := portMac ++ leBytes 16 own ++ leBytes 6 asker.mac.toNat
      if own ≠ 0 ∧ target.toNat = own then s.sendHost (some 0) bytes (.net 1 sender.toNat bytes) else s

/-- ICMP_ECHO (R427): the payload comes back. -/
def execIcmpEcho (v6 : Bool) (target sender : BitVec 128) (frame : EchoFrame) (s : State) : Host.Outcome State Fault Refusal :=
  wireOp s.portOpen frame.wire (netBytes target.toNat sender.toNat 0 ++ frame.payload) s fun s =>
    let own := if v6 then s.get Key.hostIpv6 else s.get Key.hostIpv4
    if own ≠ 0 ∧ target.toNat = own then s.sendHost (some 0) frame.payload (.net 2 sender.toNat frame.payload) else s

/-! ## PTP (R429) -/

/-- The state with the PTP clock changed. -/
def State.updPtp (s : State) (f : PtpClock → PtpClock) : State := s.updHost (fun h => { h with ptp := f h.ptp })

/-- An offset is formed: the first one steps fabric time (R355), and each later one steers it (R361). The own times that the clock holds
move with a step. -/
def State.ptpOffset (s : State) (o : Int) : State :=
  let s1 := if s.everLocked then s.steer o
    else { s with ftime := unsgn 64 ((s.ftime : Int) + o), everLocked := true }.count Key.timeSteps 1
  let k : Int := (s1.ftime : Int) - s.ftime
  let s2 := s1.updHost (fun h => { h with ptpHeard := h.ptpHeard.map (fun (t : Nat) => ((t : Int) + k).toNat) })
  ((s2.updPtp (fun c => { c with pending := c.pending.map (fun x => (x.1, x.2.1 + k, x.2.2)), sync := c.sync.map (fun x => (x.1, x.2 + k)),
                                 request := c.request.map (fun x => (x.1, x.2 + k)) })).set Key.timeState 3).timeUpdate

/-- A Sync is whole: with the path delay known it gives an offset; a Delay_Req goes out (log entry 56). -/
def State.ptpSync (s : State) (t1 t2 : Int) : State :=
  let s1 := s.updPtp (fun c => { c with pending := none, sync := some (t1, t2) })
  let s2 := match s1.host.ptp.delay with
    | none => s1
    | some d => s1.ptpOffset (t1 + d - t2)
  let q := (s2.host.ptp.seq + 1) % 65536
  let s3 := s2.updPtp (fun c => { c with seq := q, request := some (q, s2.ftime) })
  s3.sendHost (some 319) (leBytes 3 (q + 65536 * s3.get Key.ptpDomain)) (.delayReq q (s3.get Key.ptpDomain))

/-- A Delay_Resp to the Delay_Req that is out gives the mean path delay, and before the first lock the offset. -/
def State.ptpDelay (s : State) (seq : Nat) (t4 : Int) : State :=
  match s.host.ptp.sync, s.host.ptp.request with
  | some (t1, t2), some (q, t3) =>
    if q ≠ seq then s
    else
      let d := s.half ((t2 - t1) + (t4 - t3))
      let s1 := s.tick.updPtp (fun c => { c with request := none, delay := some d })
      if s.everLocked then s1 else s1.ptpOffset (t1 + d - t2)
  | _, _ => s

/-- The bytes of a PTP message. -/
def ptpBytes (domain : Nat) (m : PtpMessage) : List Byte :=
  match m with
  | .sync q two t c => leBytes 24 (domain + b2n two * 2 ^ 8 + q.toNat * 2 ^ 16 + t % 2 ^ 80 * 2 ^ 32 + unsgn 64 c * 2 ^ 128)
  | .followUp q t c => leBytes 24 (domain + 2 * 2 ^ 8 + q.toNat * 2 ^ 16 + t % 2 ^ 80 * 2 ^ 32 + unsgn 64 c * 2 ^ 128)
  | .delayResp q t c => leBytes 24 (domain + 3 * 2 ^ 8 + q.toNat * 2 ^ 16 + t % 2 ^ 80 * 2 ^ 32 + unsgn 64 c * 2 ^ 128)

/-- PTP_MESSAGE (R429): a message of the own domain is heard; it goes into the offset and the path delay of the end-to-end mechanism. -/
def execPtpMessage (domain : BitVec 8) (frame : PtpFrame) (s : State) : Host.Outcome State Fault Refusal :=
  wireOp s.portOpen frame.wire (ptpBytes domain.toNat frame.message) s fun s =>
    if s.get Key.timeRole ≠ 2 ∨ domain.toNat ≠ s.get Key.ptpDomain then s
    else
      let s1 := s.updHost (fun h => { h with ptpHeard := some s.ftime })
      match frame.message with
      | .sync q two t c =>
        if two then s1.updPtp (fun p => { p with pending := some (q.toNat, s.ftime, c) }) else s1.ptpSync ((t : Int) + c) s.ftime
      | .followUp q t c =>
        match s1.host.ptp.pending with
        | some (k, t2, c0) => if k = q.toNat then s1.ptpSync ((t : Int) + c0 + c) t2 else s1
        | none => s1
      | .delayResp q t c => s1.ptpDelay q.toNat ((t : Int) - c)

/-- PTP_HOLDOVER (R429): 3 s without a time transmitter. -/
def execPtpHoldover (s : State) : Host.Outcome State Fault Refusal :=
  if s.portOpen ∧ s.get Key.timeRole = 2 ∧ s.host.ptpHeard.all (fun t => decide (t + 3000000000 ≤ s.ftime)) then
    .next (s.set Key.timeState 2)
  else .next s

end Sys2Proof.Machine
end

