-- ==== Sys2Proof/Machine/Recovery.lean ====
section
/-!
DEFINITION. The ends of resets and of HBM training: units serve again, and what waited for them goes on.
-/
namespace Sys2Proof.Machine

/-- What waited for a unit that serves again goes on: host requests, collectives and messages (R379, R402, R441). -/
def State.resumeAll (s : State) : State := s.hostRetry.runColls.pumpMsgs

/-- RESET_COMPLETE (R487): a reset whose units are idle and initialised is over; one that still captures or initialises is not. -/
def execResetComplete (index : Nat) (s : State) : Host.Outcome State Fault Refusal :=
  .next (s.whileUp fun s => (s.endReset index).resumeAll)

/-- ESCALATION (R487, R488): the reset that took too long widens, or its unit is fenced. -/
def execEscalation (index : Nat) (s : State) : Host.Outcome State Fault Refusal :=
  .next (s.whileUp fun s => (s.escalate index).hostRetry)

/-- HBM_TRAINING_END (R333–R335): a stack's controller opens, or the stack has failed; held requests go on. -/
def execHbmTrainingEnd (setting : Setting) (identityOk : Bool) (failed : List (Fin 32)) (s : State) :
    Host.Outcome State Fault Refusal :=
  .next (s.whileUp fun s => (s.endTraining setting.val identityOk (failed.map Fin.val)).resumeAll)

end Sys2Proof.Machine
end

