-- ==== Sys2Proof/Machine/Timeouts.lean ====
section
/-!
DEFINITION. The timers of message recovery (R377, R378, R380, R382), also for the requests of local operations to controllers of this
package (R480).
-/
namespace Sys2Proof.Machine

/-- The request of a local operation is sent again: the operation tries again, and where its controller still accepts nothing the
message stays outstanding. -/
def State.resendLocal (s : State) (id : Nat) (m : OutMsg) : State :=
  let p := m.owner
  let s1 := { s with msgs := drop' id s.msgs }.updOp p m.opNo (fun o => { o with msgs := [] })
  let s2 := ((s1.laneAll p).addAll p).runColls
  let shut := match (s2.core p).op m.opNo with
    | some o => if dOp o.desc = 0x12 ∧ !s2.controllerOpen (m.item.head.destEp.toNat - 0x2000) then [(id, 0)] else o.msgs
    | none => []
  if shut.isEmpty then s2.closeMsg id
  else
    { s2 with msgs := put id m (shut.foldl (fun (ms : List (Nat × OutMsg)) (x : Nat × Nat) => drop' x.1 ms) s2.msgs), nextMsg := s.nextMsg,
              msgNo := s.msgNo }.updOp p m.opNo
      (fun o => { o with msgs := [(id, 0)] })

/-- A local operation whose request has had all its resends completes with TIMEOUT, what it was to write undefined (R382). -/
def State.endLocal (s : State) (p : Nat) (o : MseOp) : State :=
  let d := o.desc
  match o.kind with
  | .coll ctx => (s.failColl ctx 6).runColls
  | .ctxHeld => (s.endColl (s.collOf p o.no d) 6).runColls
  | _ =>
    let x := (s.core p).lane (bSlot d)
    let s1 :=
      if dOp d = 0x11 then s.devUndef (x.base + x.top) (frameLen (mLen d))
      else if dOp d = 0x12 then (s.spWrite p (mLocal d) (s.freeBytes (bDepth d * 2 ^ bBuf d))).tick
      else (s.devUndef (uAcc d) (mLen d)).devUndef (uTally d) 32
    let s2 := s1.finishOp p { o with status := 6 }
    ((if dOp d = 0x21 then s2.count Key.bucketAdds 1 else s2).laneAll p).addAll p

/-- An outstanding message, or the request of a local operation, is sent again. -/
def State.againMsg (s : State) (id : Nat) (m : OutMsg) : State := if isLocal m.item.head then s.resendLocal id m else s.resendMsg id m

/-- REORDER_BACKOFF_EXPIRY (R377, R378, R380): a held message is sent again. -/
def execReorderBackoffExpiry (msgId : BitVec 24) (s : State) : Host.Outcome State Fault Refusal :=
  match look msgId.toNat s.msgs with
  | none => .next s
  | some m => if m.held then .next (s.whileUp fun s => s.againMsg msgId.toNat { m with held := false }) else .next s

/-- MSG_TIMEOUT_RESEND (R382). No effect once MSG_RETRIES resends have been made: MSG_TIMEOUT_FINAL then applies. -/
def execMsgTimeoutResend (msgId : BitVec 24) (s : State) : Host.Outcome State Fault Refusal :=
  match look msgId.toNat s.msgs with
  | none => .next s
  | some m =>
    if m.retries < s.get Key.msgRetries then
      let m1 := { m with retries := m.retries + 1, held := false }
      .next (s.whileUp fun s => (s.count Key.msgRetransmits 1).againMsg msgId.toNat m1)
    else .next s

/-- MSG_TIMEOUT_FINAL (R382, R396): the message completes with TIMEOUT; for multicast EXCLUDED holds the leaves that never
answered. -/
def execMsgTimeoutFinal (msgId : BitVec 24) (s : State) : Host.Outcome State Fault Refusal :=
  match look msgId.toNat s.msgs with
  | none => .next s
  | some m =>
    if m.retries < s.get Key.msgRetries ∨ s.packageHeld then .next s
    else if isLocal m.item.head then
      let s1 := (s.count Key.msgTimeouts 1).closeMsg msgId.toNat
      match (s1.core m.owner).op m.opNo with
      | none => .next s1
      | some o => .next (s1.endLocal m.owner o)
    else
      .next ((s.count Key.msgTimeouts 1).msgEnd msgId.toNat m 6 (m.answered.filter (fun a => a.2 == 0)).length
        (leafMask ((s.leaves m).filter (fun i => (look i m.answered).isNone))))

end Sys2Proof.Machine
end

