-- ==== Sys2Proof/Machine/Dispatch.lean ====
section
/-!
DEFINITION. One arm for each command: a direct call of its meaning.
-/
namespace Sys2Proof.Machine

def exec (i : Instr) (s : State) : Host.Outcome State Fault Refusal :=
  match i with
  | .add core rd ra rb => Sys2Proof.Machine.execAdd core rd ra rb s
  | .sub core rd ra rb => Sys2Proof.Machine.execSub core rd ra rb s
  | .aluAnd core rd ra rb => Sys2Proof.Machine.execAluAnd core rd ra rb s
  | .aluOr core rd ra rb => Sys2Proof.Machine.execAluOr core rd ra rb s
  | .aluXor core rd ra rb => Sys2Proof.Machine.execAluXor core rd ra rb s
  | .shl core rd ra rb => Sys2Proof.Machine.execShl core rd ra rb s
  | .shr core rd ra rb => Sys2Proof.Machine.execShr core rd ra rb s
  | .sra core rd ra rb => Sys2Proof.Machine.execSra core rd ra rb s
  | .rotl core rd ra rb => Sys2Proof.Machine.execRotl core rd ra rb s
  | .slt core rd ra rb => Sys2Proof.Machine.execSlt core rd ra rb s
  | .sltu core rd ra rb => Sys2Proof.Machine.execSltu core rd ra rb s
  | .aluMin core rd ra rb => Sys2Proof.Machine.execAluMin core rd ra rb s
  | .aluMax core rd ra rb => Sys2Proof.Machine.execAluMax core rd ra rb s
  | .minu core rd ra rb => Sys2Proof.Machine.execMinu core rd ra rb s
  | .maxu core rd ra rb => Sys2Proof.Machine.execMaxu core rd ra rb s
  | .mul core rd ra rb => Sys2Proof.Machine.execMul core rd ra rb s
  | .mulh core rd ra rb => Sys2Proof.Machine.execMulh core rd ra rb s
  | .mulhu core rd ra rb => Sys2Proof.Machine.execMulhu core rd ra rb s
  | .div core rd ra rb => Sys2Proof.Machine.execDiv core rd ra rb s
  | .divu core rd ra rb => Sys2Proof.Machine.execDivu core rd ra rb s
  | .rem core rd ra rb => Sys2Proof.Machine.execRem core rd ra rb s
  | .remu core rd ra rb => Sys2Proof.Machine.execRemu core rd ra rb s
  | .clz core rd ra rb => Sys2Proof.Machine.execClz core rd ra rb s
  | .ctz core rd ra rb => Sys2Proof.Machine.execCtz core rd ra rb s
  | .popc core rd ra rb => Sys2Proof.Machine.execPopc core rd ra rb s
  | .aluSel core rd ra rb => Sys2Proof.Machine.execAluSel core rd ra rb s
  | .addi core rd ra imm => Sys2Proof.Machine.execAddi core rd ra imm s
  | .andi core rd ra imm => Sys2Proof.Machine.execAndi core rd ra imm s
  | .ori core rd ra imm => Sys2Proof.Machine.execOri core rd ra imm s
  | .xori core rd ra imm => Sys2Proof.Machine.execXori core rd ra imm s
  | .slti core rd ra imm => Sys2Proof.Machine.execSlti core rd ra imm s
  | .shiShl core rd ra amount => Sys2Proof.Machine.execShiShl core rd ra amount s
  | .shiShr core rd ra amount => Sys2Proof.Machine.execShiShr core rd ra amount s
  | .shiSra core rd ra amount => Sys2Proof.Machine.execShiSra core rd ra amount s
  | .shiRotl core rd ra amount => Sys2Proof.Machine.execShiRotl core rd ra amount s
  | .lui core rd imm => Sys2Proof.Machine.execLui core rd imm s
  | .insq core rd quarter imm => Sys2Proof.Machine.execInsq core rd quarter imm s
  | .lb core rd ra imm => Sys2Proof.Machine.execLb core rd ra imm s
  | .lbu core rd ra imm => Sys2Proof.Machine.execLbu core rd ra imm s
  | .lh core rd ra imm => Sys2Proof.Machine.execLh core rd ra imm s
  | .lhu core rd ra imm => Sys2Proof.Machine.execLhu core rd ra imm s
  | .lw core rd ra imm => Sys2Proof.Machine.execLw core rd ra imm s
  | .lwu core rd ra imm => Sys2Proof.Machine.execLwu core rd ra imm s
  | .ld core rd ra imm => Sys2Proof.Machine.execLd core rd ra imm s
  | .sb core rd ra imm => Sys2Proof.Machine.execSb core rd ra imm s
  | .sh core rd ra imm => Sys2Proof.Machine.execSh core rd ra imm s
  | .sw core rd ra imm => Sys2Proof.Machine.execSw core rd ra imm s
  | .sd core rd ra imm => Sys2Proof.Machine.execSd core rd ra imm s
  | .beq core ra rb off => Sys2Proof.Machine.execBeq core ra rb off s
  | .bne core ra rb off => Sys2Proof.Machine.execBne core ra rb off s
  | .blt core ra rb off => Sys2Proof.Machine.execBlt core ra rb off s
  | .bge core ra rb off => Sys2Proof.Machine.execBge core ra rb off s
  | .bltu core ra rb off => Sys2Proof.Machine.execBltu core ra rb off s
  | .bgeu core ra rb off => Sys2Proof.Machine.execBgeu core ra rb off s
  | .jal core rd off => Sys2Proof.Machine.execJal core rd off s
  | .jalr core rd ra imm => Sys2Proof.Machine.execJalr core rd ra imm s
  | .pushd core engine ra => Sys2Proof.Machine.execPushd core engine ra s
  | .pushdn core engine rd ra => Sys2Proof.Machine.execPushdn core engine rd ra s
  | .scwait core ra rb => Sys2Proof.Machine.execScwait core ra rb s
  | .sctest core rd ra rb => Sys2Proof.Machine.execSctest core rd ra rb s
  | .scread core rd ra => Sys2Proof.Machine.execScread core rd ra s
  | .scset core ra rb => Sys2Proof.Machine.execScset core ra rb s
  | .scadd core ra rb => Sys2Proof.Machine.execScadd core ra rb s
  | .qcfg core ra rb => Sys2Proof.Machine.execQcfg core ra rb s
  | .qwait core rd ra => Sys2Proof.Machine.execQwait core rd ra s
  | .qpeek core rd ra => Sys2Proof.Machine.execQpeek core rd ra s
  | .qrel core ra rb => Sys2Proof.Machine.execQrel core ra rb s
  | .qstat core rd ra => Sys2Proof.Machine.execQstat core rd ra s
  | .halt core => Sys2Proof.Machine.execHalt core s
  | .ctuYield core => Sys2Proof.Machine.execCtuYield core s
  | .ifill core rd ra rb => Sys2Proof.Machine.execIfill core rd ra rb s
  | .ifillComplete core => Sys2Proof.Machine.execIfillComplete core s
  | .drd core rd ra => Sys2Proof.Machine.execDrd core rd ra s
  | .drdResult core => Sys2Proof.Machine.execDrdResult core s
  | .ftime core rd => Sys2Proof.Machine.execFtime core rd s
  | .ctxid core rd => Sys2Proof.Machine.execCtxid core rd s
  | .coreid core rd => Sys2Proof.Machine.execCoreid core rd s
  | .swappt core rd ra => Sys2Proof.Machine.execSwappt core rd ra s
  | .cycles core rd => Sys2Proof.Machine.execCycles core rd s
  | .backfillSwitch core => Sys2Proof.Machine.execBackfillSwitch core s
  | .mxeNop core => Sys2Proof.Machine.execMxeNop core s
  | .mma core => Sys2Proof.Machine.execMma core s
  | .mxeCombine core => Sys2Proof.Machine.execMxeCombine core s
  | .mxeDrain core => Sys2Proof.Machine.execMxeDrain core s
  | .mxeClear core => Sys2Proof.Machine.execMxeClear core s
  | .mxeDescComplete core => Sys2Proof.Machine.execMxeDescComplete core s
  | .deferTake core => Sys2Proof.Machine.execDeferTake core s
  | .fgeNop core => Sys2Proof.Machine.execFgeNop core s
  | .fgeStream core => Sys2Proof.Machine.execFgeStream core s
  | .fgeCompress core => Sys2Proof.Machine.execFgeCompress core s
  | .fgeExpand core => Sys2Proof.Machine.execFgeExpand core s
  | .ctxLoad core => Sys2Proof.Machine.execCtxLoad core s
  | .ctxStore core => Sys2Proof.Machine.execCtxStore core s
  | .ctxRoll core => Sys2Proof.Machine.execCtxRoll core s
  | .setStep core => Sys2Proof.Machine.execSetStep core s
  | .fgeDescComplete core => Sys2Proof.Machine.execFgeDescComplete core s
  | .mseNop core => Sys2Proof.Machine.execMseNop core s
  | .msePut core => Sys2Proof.Machine.execMsePut core s
  | .mseGet core => Sys2Proof.Machine.execMseGet core s
  | .mseSend core => Sys2Proof.Machine.execMseSend core s
  | .mseCopy core => Sys2Proof.Machine.execMseCopy core s
  | .mseSignal core => Sys2Proof.Machine.execMseSignal core s
  | .mseFence core => Sys2Proof.Machine.execMseFence core s
  | .mseDescComplete core no => Sys2Proof.Machine.execMseDescComplete core no s
  | .bushelOpen core => Sys2Proof.Machine.execBushelOpen core s
  | .bushelPush core => Sys2Proof.Machine.execBushelPush core s
  | .bushelDrain core => Sys2Proof.Machine.execBushelDrain core s
  | .bushelFrameRead core no => Sys2Proof.Machine.execBushelFrameRead core no s
  | .bushelQuery core => Sys2Proof.Machine.execBushelQuery core s
  | .mseGather core => Sys2Proof.Machine.execMseGather core s
  | .bucketAdd core => Sys2Proof.Machine.execBucketAdd core s
  | .bucketStep core => Sys2Proof.Machine.execBucketStep core s
  | .bucketStepRelease core no => Sys2Proof.Machine.execBucketStepRelease core no s
  | .bucketExchange core => Sys2Proof.Machine.execBucketExchange core s
  | .bucketWindowAdmit core no => Sys2Proof.Machine.execBucketWindowAdmit core no s
  | .bucketAgree core => Sys2Proof.Machine.execBucketAgree core s
  | .groupForm core => Sys2Proof.Machine.execGroupForm core s
  | .collAllReduce core => Sys2Proof.Machine.execCollAllReduce core s
  | .collReduceScatter core => Sys2Proof.Machine.execCollReduceScatter core s
  | .collAllGather core => Sys2Proof.Machine.execCollAllGather core s
  | .collBroadcast core => Sys2Proof.Machine.execCollBroadcast core s
  | .collBarrier core => Sys2Proof.Machine.execCollBarrier core s
  | .collectiveLaunch context => Sys2Proof.Machine.execCollectiveLaunch context s
  | .expertDispatch core => Sys2Proof.Machine.execExpertDispatch core s
  | .expertReturn core => Sys2Proof.Machine.execExpertReturn core s
  | .expertCombine core => Sys2Proof.Machine.execExpertCombine core s
  | .putArrival via packet => Sys2Proof.Machine.execPutArrival via packet s
  | .getArrival via packet => Sys2Proof.Machine.execGetArrival via packet s
  | .sendArrival via packet => Sys2Proof.Machine.execSendArrival via packet s
  | .copyArrival via packet => Sys2Proof.Machine.execCopyArrival via packet s
  | .signalArrival via packet => Sys2Proof.Machine.execSignalArrival via packet s
  | .gatherArrival via packet => Sys2Proof.Machine.execGatherArrival via packet s
  | .readDataArrival via packet => Sys2Proof.Machine.execReadDataArrival via packet s
  | .completionArrival via packet => Sys2Proof.Machine.execCompletionArrival via packet s
  | .busyArrival via packet => Sys2Proof.Machine.execBusyArrival via packet s
  | .retryArrival via packet => Sys2Proof.Machine.execRetryArrival via packet s
  | .creditGrantArrival core channel node ep credits payload => Sys2Proof.Machine.execCreditGrantArrival core channel node ep credits payload s
  | .creditReturnArrival core channel node ep credits => Sys2Proof.Machine.execCreditReturnArrival core channel node ep credits s
  | .packetForward via packet => Sys2Proof.Machine.execPacketForward via packet s
  | .reorderBackoffExpiry msgId => Sys2Proof.Machine.execReorderBackoffExpiry msgId s
  | .reorderContextExpiry node msgId => Sys2Proof.Machine.execReorderContextExpiry node msgId s
  | .dupRecordExpiry node msgId => Sys2Proof.Machine.execDupRecordExpiry node msgId s
  | .msgTimeoutResend msgId => Sys2Proof.Machine.execMsgTimeoutResend msgId s
  | .msgTimeoutFinal msgId => Sys2Proof.Machine.execMsgTimeoutFinal msgId s
  | .detourStallExpiry index => Sys2Proof.Machine.execDetourStallExpiry index s
  | .meshLinkOut setting neighbour => Sys2Proof.Machine.execMeshLinkOut setting neighbour s
  | .openerArrival via packet => Sys2Proof.Machine.execOpenerArrival via packet s
  | .collectiveDataArrival via packet => Sys2Proof.Machine.execCollectiveDataArrival via packet s
  | .abortArrival via packet => Sys2Proof.Machine.execAbortArrival via packet s
  | .collParkExpiry node context key => Sys2Proof.Machine.execCollParkExpiry node context key s
  | .collProgressTimeout context => Sys2Proof.Machine.execCollProgressTimeout context s
  | .troyUpdate packet => Sys2Proof.Machine.execTroyUpdate packet s
  | .troyCommit packet => Sys2Proof.Machine.execTroyCommit packet s
  | .ledgerSet packet => Sys2Proof.Machine.execLedgerSet packet s
  | .troyProgramPut packet => Sys2Proof.Machine.execTroyProgramPut packet s
  | .troyConstPut packet => Sys2Proof.Machine.execTroyConstPut packet s
  | .troyCommandStart setting => Sys2Proof.Machine.execTroyCommandStart setting s
  | .troyCommandComplete setting => Sys2Proof.Machine.execTroyCommandComplete setting s
  | .commitBarrierRelease => Sys2Proof.Machine.execCommitBarrierRelease s
  | .wcbTimeoutExpiry setting line => Sys2Proof.Machine.execWcbTimeoutExpiry setting line s
  | .scrubRead setting line => Sys2Proof.Machine.execScrubRead setting line s
  | .xflDataFrame link frame => Sys2Proof.Machine.execXflDataFrame link frame s
  | .xflIdleFrame link frame => Sys2Proof.Machine.execXflIdleFrame link frame s
  | .neighbourFrame link frame record => Sys2Proof.Machine.execNeighbourFrame link frame record s
  | .stateFrame link frame state port => Sys2Proof.Machine.execStateFrame link frame state port s
  | .timeFrame link frame time => Sys2Proof.Machine.execTimeFrame link frame time s
  | .xflAckTimeout link => Sys2Proof.Machine.execXflAckTimeout link s
  | .linkDown link => Sys2Proof.Machine.execLinkDown link s
  | .linkRetrainHoldoffExpiry link => Sys2Proof.Machine.execLinkRetrainHoldoffExpiry link s
  | .phyTrainDone link => Sys2Proof.Machine.execPhyTrainDone link s
  | .xflSyncDone link skew => Sys2Proof.Machine.execXflSyncDone link skew s
  | .linkTrainTimeLimit link => Sys2Proof.Machine.execLinkTrainTimeLimit link s
  | .stateFrameTimer link => Sys2Proof.Machine.execStateFrameTimer link s
  | .neighbourFrameTimer link => Sys2Proof.Machine.execNeighbourFrameTimer link s
  | .timeSyncTimer => Sys2Proof.Machine.execTimeSyncTimer s
  | .fecSecond link worst corrected uncorrectable => Sys2Proof.Machine.execFecSecond link worst corrected uncorrectable s
  | .tableSeal => Sys2Proof.Machine.execTableSeal s
  | .tableFlip => Sys2Proof.Machine.execTableFlip s
  | .tableRetire => Sys2Proof.Machine.execTableRetire s
  | .tableUnseal => Sys2Proof.Machine.execTableUnseal s
  | .chpHello head payload => Sys2Proof.Machine.execChpHello head payload s
  | .chpFinish head payload => Sys2Proof.Machine.execChpFinish head payload s
  | .chpFinishTimeout session => Sys2Proof.Machine.execChpFinishTimeout session s
  | .chpClose head => Sys2Proof.Machine.execChpClose head s
  | .ackOnly head => Sys2Proof.Machine.execAckOnly head s
  | .chpData head payload => Sys2Proof.Machine.execChpData head payload s
  | .chpWrite head record => Sys2Proof.Machine.execChpWrite head record s
  | .chpRead head record => Sys2Proof.Machine.execChpRead head record s
  | .dictRead head record => Sys2Proof.Machine.execDictRead head record s
  | .dictWrite head record => Sys2Proof.Machine.execDictWrite head record s
  | .loadPrimary head record => Sys2Proof.Machine.execLoadPrimary head record s
  | .loadCompanion head record => Sys2Proof.Machine.execLoadCompanion head record s
  | .cmdqBind head record => Sys2Proof.Machine.execCmdqBind head record s
  | .cmdqUnbind head record => Sys2Proof.Machine.execCmdqUnbind head record s
  | .cmdPush head record payload => Sys2Proof.Machine.execCmdPush head record payload s
  | .ringConfigEnable head record => Sys2Proof.Machine.execRingConfigEnable head record s
  | .ringConfigDisable head record => Sys2Proof.Machine.execRingConfigDisable head record s
  | .ringPut head record => Sys2Proof.Machine.execRingPut head record s
  | .chpResetWarm head record => Sys2Proof.Machine.execChpResetWarm head record s
  | .chpResetCold head record => Sys2Proof.Machine.execChpResetCold head record s
  | .recordStop head record => Sys2Proof.Machine.execRecordStop head record s
  | .recordStartWrapping head record => Sys2Proof.Machine.execRecordStartWrapping head record s
  | .recordStartStopFull head record => Sys2Proof.Machine.execRecordStartStopFull head record s
  | .recordClear head record => Sys2Proof.Machine.execRecordClear head record s
  | .chpReplay head record => Sys2Proof.Machine.execChpReplay head record s
  | .replayStop head record => Sys2Proof.Machine.execReplayStop head record s
  | .replayRecord => Sys2Proof.Machine.execReplayRecord s
  | .chpAckDelayExpiry session => Sys2Proof.Machine.execChpAckDelayExpiry session s
  | .chpRtoExpiry session => Sys2Proof.Machine.execChpRtoExpiry session s
  | .chpRetxLimit session => Sys2Proof.Machine.execChpRetxLimit session s
  | .chpIdleTimeout session => Sys2Proof.Machine.execChpIdleTimeout session s
  | .chpRateRaise session => Sys2Proof.Machine.execChpRateRaise session s
  | .arpRequest target sender asker => Sys2Proof.Machine.execArpRequest target sender asker s
  | .neighbourSolicitation target sender asker => Sys2Proof.Machine.execNeighbourSolicitation target sender asker s
  | .icmpEcho v6 target sender frame => Sys2Proof.Machine.execIcmpEcho v6 target sender frame s
  | .ptpMessage domain frame => Sys2Proof.Machine.execPtpMessage domain frame s
  | .ptpHoldover => Sys2Proof.Machine.execPtpHoldover s
  | .plcaBeacon claimCollision assignedHeard => Sys2Proof.Machine.execPlcaBeacon claimCollision assignedHeard s
  | .chainTxHoldTimeout => Sys2Proof.Machine.execChainTxHoldTimeout s
  | .claimBackoffExpiry collision => Sys2Proof.Machine.execClaimBackoffExpiry collision s
  | .claimTimeout => Sys2Proof.Machine.execClaimTimeout s
  | .chainAssign head id => Sys2Proof.Machine.execChainAssign head id s
  | .assignWatchEnd => Sys2Proof.Machine.execAssignWatchEnd s
  | .strappedIdConflict => Sys2Proof.Machine.execStrappedIdConflict s
  | .ahmRead head items => Sys2Proof.Machine.execAhmRead head items s
  | .ahmWrite head items => Sys2Proof.Machine.execAhmWrite head items s
  | .enumerate head items => Sys2Proof.Machine.execEnumerate head items s
  | .entryWrite index sub value => Sys2Proof.Machine.execEntryWrite index sub value s
  | .dictStagingTimeout index sub => Sys2Proof.Machine.execDictStagingTimeout index sub s
  | .dictFlashStore index sub => Sys2Proof.Machine.execDictFlashStore index sub s
  | .jobStart => Sys2Proof.Machine.execJobStart s
  | .jobStop => Sys2Proof.Machine.execJobStop s
  | .dictFlashRestore value => Sys2Proof.Machine.execDictFlashRestore value s
  | .portEnable port value => Sys2Proof.Machine.execPortEnable port value s
  | .portLinkMask port value => Sys2Proof.Machine.execPortLinkMask port value s
  | .portAxis port value => Sys2Proof.Machine.execPortAxis port value s
  | .portExpectSerial port value => Sys2Proof.Machine.execPortExpectSerial port value s
  | .portExpectPort port value => Sys2Proof.Machine.execPortExpectPort port value s
  | .topoMode value => Sys2Proof.Machine.execTopoMode value s
  | .macsecSak value => Sys2Proof.Machine.execMacsecSak value s
  | .failedMask cluster value => Sys2Proof.Machine.execFailedMask cluster value s
  | .locketWindowData => Sys2Proof.Machine.execLocketWindowData s
  | .hallmarkInstall value => Sys2Proof.Machine.execHallmarkInstall value s
  | .hallmarkInstallDone => Sys2Proof.Machine.execHallmarkInstallDone s
  | .hallmarkRemove value => Sys2Proof.Machine.execHallmarkRemove value s
  | .hallmarkPieceTimeout cluster => Sys2Proof.Machine.execHallmarkPieceTimeout cluster s
  | .signetNonce value => Sys2Proof.Machine.execSignetNonce value s
  | .rollbackCommit value => Sys2Proof.Machine.execRollbackCommit value s
  | .fwUpdate value => Sys2Proof.Machine.execFwUpdate value s
  | .fwUpdateDone result => Sys2Proof.Machine.execFwUpdateDone result s
  | .fwStageData value => Sys2Proof.Machine.execFwStageData value s
  | .debugAuth part value => Sys2Proof.Machine.execDebugAuth part value s
  | .debugLock value => Sys2Proof.Machine.execDebugLock value s
  | .engineWdtExpiry core engine => Sys2Proof.Machine.execEngineWdtExpiry core engine s
  | .coreWdtExpiry core => Sys2Proof.Machine.execCoreWdtExpiry core s
  | .heartbeatCheck missed => Sys2Proof.Machine.execHeartbeatCheck missed s
  | .engineReset core engine capture => Sys2Proof.Machine.execEngineReset core engine capture s
  | .coreReset core capture => Sys2Proof.Machine.execCoreReset core capture s
  | .clusterReset cluster capture => Sys2Proof.Machine.execClusterReset cluster capture s
  | .computeDieReset die capture => Sys2Proof.Machine.execComputeDieReset die capture s
  | .settingReset setting capture => Sys2Proof.Machine.execSettingReset setting capture s
  | .rimDieReset rim => Sys2Proof.Machine.execRimDieReset rim s
  | .packageWarmReset capture => Sys2Proof.Machine.execPackageWarmReset capture s
  | .coldInitialisation => Sys2Proof.Machine.execColdInitialisation s
  | .locketCaptureEnd index => Sys2Proof.Machine.execLocketCaptureEnd index s
  | .locketAccessTimeout index core line => Sys2Proof.Machine.execLocketAccessTimeout index core line s
  | .resetComplete index => Sys2Proof.Machine.execResetComplete index s
  | .escalation index => Sys2Proof.Machine.execEscalation index s
  | .prstNAssert => Sys2Proof.Machine.execPrstNAssert s
  | .packageStart railsOff lowFor chainStrap bootStrap => Sys2Proof.Machine.execPackageStart railsOff lowFor chainStrap bootStrap s
  | .pwrokFall => Sys2Proof.Machine.execPwrokFall s
  | .pkgReady => Sys2Proof.Machine.execPkgReady s
  | .startupTimeout => Sys2Proof.Machine.execStartupTimeout s
  | .vinWarning setting => Sys2Proof.Machine.execVinWarning setting s
  | .vinRecovery setting => Sys2Proof.Machine.execVinRecovery setting s
  | .vinPowerfail setting chargeHeld => Sys2Proof.Machine.execVinPowerfail setting chargeHeld s
  | .setpointUpdate cluster mv => Sys2Proof.Machine.execSetpointUpdate cluster mv s
  | .pmbusPoll rail reading => Sys2Proof.Machine.execPmbusPoll rail reading s
  | .pmbusAlert bus readings => Sys2Proof.Machine.execPmbusAlert bus readings s
  | .avsRead setting mv ma => Sys2Proof.Machine.execAvsRead setting mv ma s
  | .powerWindowEnd => Sys2Proof.Machine.execPowerWindowEnd s
  | .sensorSample readings => Sys2Proof.Machine.execSensorSample readings s
  | .thermalStepDown unit => Sys2Proof.Machine.execThermalStepDown unit s
  | .thermalStepUp unit => Sys2Proof.Machine.execThermalStepUp unit s
  | .prochotInAssert => Sys2Proof.Machine.execProchotInAssert s
  | .prochotInRelease => Sys2Proof.Machine.execProchotInRelease s
  | .refclkLoss => Sys2Proof.Machine.execRefclkLoss s
  | .refclkReturn => Sys2Proof.Machine.execRefclkReturn s
  | .refclk156Loss rim => Sys2Proof.Machine.execRefclk156Loss rim s
  | .xflCrcError link frame => Sys2Proof.Machine.execXflCrcError link frame s
  | .firmwareVerificationEnd attempt => Sys2Proof.Machine.execFirmwareVerificationEnd attempt s
  | .refclk100LockTimeout => Sys2Proof.Machine.execRefclk100LockTimeout s
  | .quickCheckEnd outcome => Sys2Proof.Machine.execQuickCheckEnd outcome s
  | .hbmTrainingEnd setting identityOk failed => Sys2Proof.Machine.execHbmTrainingEnd setting identityOk failed s
  | .swapptComplete core => Sys2Proof.Machine.execSwapptComplete core s

end Sys2Proof.Machine
end

