-- ==== Sys2Proof/Machine/Mesh.lean ====
section
/-!
DEFINITION. The on-package mesh (R22, R33–R35, R480): the grid, the spurs, the route of a packet, links and routers out of use, and what the
routers count.
-/
namespace Sys2Proof.Machine

/-! ## The grid (R22, R33) -/

/-- The setting in a column and a row. -/
def gridAt (x y : Nat) : Nat := 6 * y + x

/-- The settings that have a spur to a rim die. -/
def rimSpurs (r : Nat) : List Nat :=
  match r with
  | 0 => (List.range 6).map (gridAt · 0)
  | 1 => (List.range 4).map (gridAt 5)
  | 2 => (List.range 4).map (gridAt 0)
  | _ => (List.range 6).map (gridAt · 3)

/-- The spur of a rim die nearest to a setting along the rim die's edge (R34). -/
def nearSpur (r n : Nat) : Nat :=
  match r with
  | 0 => gridAt (n % 6) 0
  | 1 => gridAt 5 (n / 6)
  | 2 => gridAt 0 (n / 6)
  | _ => gridAt (n % 6) 3

/-! ## Routes (R34, R35) -/

/-- The numbers from `a` to `b`, both among them. -/
def between (a b : Nat) : List Nat :=
  if a ≤ b then (List.range (b - a + 1)).map (a + ·) else (List.range (a - b + 1)).map (a - ·)

/-- The settings from one to another of the same row, or else of the same column. -/
def gridLine (a b : Nat) : List Nat :=
  if a / 6 = b / 6 then (between (a % 6) (b % 6)).map (gridAt · (a / 6)) else (between (a / 6) (b / 6)).map (gridAt (a % 6))

/-- A route through waypoints of which each shares a row or a column with the next. -/
def gridRoute : List Nat → List Nat
  | a :: b :: t => gridLine a b ++ (gridRoute (b :: t)).drop 1
  | l => l

/-- The route of a packet: to the column of its target first, then to its row (R34; DEDUCED, log entry 57). -/
def meshRoute (a b : Nat) : List Nat := gridRoute [a, gridAt (b % 6) (a / 6), b]

/-- The rows, or the columns, beside one of `n`. -/
def gridBeside (v n : Nat) : List Nat := (if v + 1 < n then [v + 1] else []) ++ (if 0 < v then [v - 1] else [])

/-- The same way through the row, or the column, beside it: two hops more than the straight way (R35). -/
def gridAround (a b : Nat) : List (List Nat) :=
  if a / 6 = b / 6 then (gridBeside (a / 6) 4).map (fun y => gridRoute [a, gridAt (a % 6) y, gridAt (b % 6) y, b])
  else if a % 6 = b % 6 then (gridBeside (a % 6) 6).map (fun x => gridRoute [a, gridAt x (a / 6), gridAt x (b / 6), b])
  else []

/-- A route with one straight part of it, the shortest ones first, led through the row or the column beside it. -/
def meshDetours (route : List Nat) : List (List Nat) :=
  (List.range (route.length - 1)).flatMap (fun len => (List.range (route.length - 1 - len)).flatMap (fun i =>
    (gridAround (route.getD i 0) (route.getD (i + len + 1) 0)).map (fun way => route.take i ++ way ++ route.drop (i + len + 2))))

/-- The routes that may replace the route between two settings, in the order in which they are tried: the failed link alone avoided, a whole
row or column avoided, two failures avoided (R35; DEDUCED, log entry 57). -/
def meshReplacements (a b : Nat) : List (List Nat) :=
  let route := meshRoute a b
  meshDetours route
    ++ (gridBeside (a / 6) 4).map (fun y => gridRoute [a, gridAt (a % 6) y, gridAt (b % 6) y, b])
    ++ (gridBeside (b % 6) 6).map (fun x => gridRoute [a, gridAt x (a / 6), gridAt x (b / 6), b])
    ++ (meshDetours route).flatMap meshDetours

/-- A mesh router is out of use: its setting is under reset or fenced (R480, R488). -/
def State.routerOut (s : State) (n : Nat) : Bool := s.settingFenced n || s.resets.any (fun j => j.domain == 4 && j.target == n)

/-- A link of the mesh is in use (R35). -/
def State.meshLinkUp (s : State) (a b : Nat) : Bool := !s.meshOut.contains (min a b, max a b)

/-- Every link of a route is in use, and every router between its ends. -/
def State.routeUp (s : State) (route : List Nat) : Bool :=
  (route.zip (route.drop 1)).all (fun h => s.meshLinkUp h.1 h.2) && (route.dropLast.drop 1).all (fun n => !s.routerOut n)

/-- The route that a packet takes from one setting to another now: while a failure lasts, the first replacement that avoids it. -/
def State.meshPath (s : State) (a b : Nat) : List Nat :=
  if s.routeUp (meshRoute a b) then meshRoute a b else ((meshReplacements a b).find? s.routeUp).getD (meshRoute a b)

/-! ## Packets (R33, R34) -/

/-- Where an endpoint of the package lies: at a setting, or in a rim die. -/
inductive MeshEnd where
  | setting (n : Nat)
  | rim (r : Nat)
deriving DecidableEq, Repr

/-- The place of an endpoint (R28, R29, R68). -/
def epPlace (ep : Nat) : MeshEnd :=
  if ep < 0x1800 then .setting (ep / 256) else if 0x2300 ≤ ep ∧ ep < 0x2304 then .rim (ep - 0x2300) else .setting (ep % 256 % 24)

/-- The rim die that a port's lowest link lies in. -/
def State.portRim (s : State) (port : Nat) : Nat := ((s.portLinks port).headD 0) / 8

/-- Ordered and control traffic keeps to one spur of each rim die (R34). -/
def oneSpur (p : Packet) : Bool := p.cls == 0 || p.cls == 3

/-- The spur of a rim die that a packet between two rim dies uses: hashed, or any of them. -/
def State.rimSpur (s : State) (r : Nat) (p : Packet) : Nat :=
  let k := if oneSpur p then Config.flowHash [r, p.srcNode.toNat, p.destNode.toNat, p.channel.toNat] else s.free
  let spurs := (rimSpurs r).filter (fun n => !s.routerOut n)
  spurs.getD (k % spurs.length) (nearSpur r 0)

/-- The spur that a packet between a setting and a rim die uses: the nearest, or one beside it while that one's router is out of use (R34,
R480). -/
def State.spurFor (s : State) (r n : Nat) : Nat :=
  let k := nearSpur r n
  if s.routerOut k ∧ k ≠ n then ((rimSpurs r).find? (fun m => meshAdjacent m k && !s.routerOut m)).getD k else k

/-- The mesh routers that forward a packet between two places: none within one rim die (R33). -/
def State.meshLeg (s : State) (a b : MeshEnd) (p : Packet) : List Nat :=
  match a, b with
  | .setting m, .setting n => if m = n then [] else s.meshPath m n
  | .setting m, .rim r => s.meshPath m (s.spurFor r m)
  | .rim r, .setting n => s.meshPath (s.spurFor r n) n
  | .rim q, .rim r => if q = r then [] else s.meshPath (s.rimSpur q p) (s.tick.rimSpur r p)

/-- Where a packet that goes out comes from: an endpoint of this package, or the port that brought it here. -/
def State.packetFrom (s : State) (before : List Output) (p : Packet) : MeshEnd :=
  let same := fun (o : Output) => match o with
    | .received port q => if q.srcNode = p.srcNode ∧ q.msgId = p.msgId then some port else none
    | _ => none
  if p.srcNode.toNat = s.node then epPlace p.srcEp.toNat else .rim ((before.reverse.findSome? same).elim 0 s.portRim)

/-- The routers that something put out passes: a packet to an endpoint, a packet to a port, or one that a port has received for this
package. -/
def State.meshUse (s : State) (before : List Output) (o : Output) : List Nat × Nat :=
  match o with
  | .packet none _ p => (s.meshLeg (s.packetFrom before p) (epPlace p.destEp.toNat) p, p.payload.length)
  | .packet (some port) _ p => (s.meshLeg (s.packetFrom before p) (.rim (s.portRim port)) p, p.payload.length)
  | .received port p => (if s.isOwn p.destNode.toNat then s.meshLeg (.rim (s.portRim port)) (epPlace p.destEp.toNat) p else [], p.payload.length)
  | _ => ([], 0)

/-! ## What the routers count (R35, R39) -/

/-- The flits of a packet's payload; how many the manual does not say, so that beyond one it is free (log entry 57). -/
def meshFlits (bytes : Nat) : Nat := max 1 (Config.meshFlits bytes)

/-- What has been put out since the last tick counts at the routers it passes. -/
def State.countMesh (s : State) : State :=
  let s1 := ((s.out.drop s.meshSeen).zipIdx s.meshSeen).foldl (fun s o =>
    let u := s.meshUse (s.out.take o.2) o.1
    (u.1.foldl (fun s n => s.count (Key.meshFlits n) (meshFlits u.2)) s).tick.tick) s
  { s1 with meshSeen := s.out.length }

/-- Something of the package may have traffic in the mesh. -/
def State.meshBusy (s : State) : Bool :=
  decide (s.meshSeen < s.out.length) || s.cores.any (fun c => !c.2.ops.isEmpty) || !s.host.reqs.isEmpty

/-- The mesh in one tick: the packets, and by free amounts the flits of accesses to memory, the retries and the waits for credit (log entries
6, 57). -/
def State.tickMesh (s : State) : State :=
  if s.meshBusy then
    settings.foldl (fun s n => ((s.countClocks (Key.meshFlits n)).countClocks (Key.meshCrcRetries n)).countClocks (Key.meshStallCycles n))
      s.countMesh
  else s

end Sys2Proof.Machine
end

