-- ==== Sys2Proof/Decode.lean ====
section
/-!
DEFINITION. Decoding. The block takes commands and its table gives no row bits, so a table word spells none. The control
unit's own 32-bit instruction words (R47–R49, R52) are decoded and encoded here as well: the fault of R55 for a reserved
word rests on it.
-/
namespace Sys2Proof

/-- The command a word spells by the table's bits: none, since the table gives no row bits. -/
def decodeTableWord (_nbits _w : Nat) : Option Instr := none

/-- Register field of an instruction word at bit `lo` (R47). -/
def regAt (w : BitVec 32) (lo : Nat) : Reg := ⟨(w >>> lo).toNat % 32, Nat.mod_lt _ (by decide)⟩

/-- The ALU function FN, or none when it is reserved (R49). -/
def decodeAlu (core : CoreId) (rd ra rb : Reg) (fn : Nat) : Option Instr :=
  match fn with
  | 0x00 => some (.add core rd ra rb)
  | 0x01 => some (.sub core rd ra rb)
  | 0x02 => some (.aluAnd core rd ra rb)
  | 0x03 => some (.aluOr core rd ra rb)
  | 0x04 => some (.aluXor core rd ra rb)
  | 0x05 => some (.shl core rd ra rb)
  | 0x06 => some (.shr core rd ra rb)
  | 0x07 => some (.sra core rd ra rb)
  | 0x08 => some (.rotl core rd ra rb)
  | 0x09 => some (.slt core rd ra rb)
  | 0x0A => some (.sltu core rd ra rb)
  | 0x0B => some (.aluMin core rd ra rb)
  | 0x0C => some (.aluMax core rd ra rb)
  | 0x0D => some (.minu core rd ra rb)
  | 0x0E => some (.maxu core rd ra rb)
  | 0x10 => some (.mul core rd ra rb)
  | 0x11 => some (.mulh core rd ra rb)
  | 0x12 => some (.mulhu core rd ra rb)
  | 0x14 => some (.div core rd ra rb)
  | 0x15 => some (.divu core rd ra rb)
  | 0x16 => some (.rem core rd ra rb)
  | 0x17 => some (.remu core rd ra rb)
  | 0x18 => some (.clz core rd ra rb)
  | 0x19 => some (.ctz core rd ra rb)
  | 0x1A => some (.popc core rd ra rb)
  | 0x1C => some (.aluSel core rd ra rb)
  | _ => none

/-- SHI: IMM16[7:6] selects the shift, IMM16[5:0] is the amount (R48). -/
def decodeShi (core : CoreId) (rd ra : Reg) (imm : BitVec 16) : Instr :=
  match (imm.toNat / 64 % 4) with
  | 0 => .shiShl core rd ra (imm.truncate 6)
  | 1 => .shiShr core rd ra (imm.truncate 6)
  | 2 => .shiSra core rd ra (imm.truncate 6)
  | _ => .shiRotl core rd ra (imm.truncate 6)

/-- ISSUE, SYNC, QUEUE and SYSTEM functions, or none when FN is reserved (R52). -/
def decodeIssue (core : CoreId) (rd ra : Reg) (fn : Nat) : Option Instr :=
  if fn < 4 then some (.pushd core (BitVec.ofNat 2 fn) ra)
  else if fn < 8 then some (.pushdn core (BitVec.ofNat 2 fn) rd ra) else none

def decodeSync (core : CoreId) (rd ra rb : Reg) (fn : Nat) : Option Instr :=
  match fn with
  | 0 => some (.scwait core ra rb)
  | 1 => some (.sctest core rd ra rb)
  | 2 => some (.scread core rd ra)
  | 3 => some (.scset core ra rb)
  | 4 => some (.scadd core ra rb)
  | _ => none

def decodeQueue (core : CoreId) (rd ra rb : Reg) (fn : Nat) : Option Instr :=
  match fn with
  | 0 => some (.qcfg core ra rb)
  | 1 => some (.qwait core rd ra)
  | 2 => some (.qpeek core rd ra)
  | 3 => some (.qrel core ra rb)
  | 4 => some (.qstat core rd ra)
  | _ => none

def decodeSystem (core : CoreId) (rd ra rb : Reg) (fn : Nat) : Option Instr :=
  match fn with
  | 0 => some (.halt core)
  | 1 => some (.ctuYield core)
  | 2 => some (.ifill core rd ra rb)
  | 3 => some (.drd core rd ra)
  | 4 => some (.ftime core rd)
  | 5 => some (.ctxid core rd)
  | 6 => some (.coreid core rd)
  | 7 => some (.swappt core rd ra)
  | 8 => some (.cycles core rd)
  | _ => none

/-- The instruction that a core's control unit reads from an instruction word, or none when its OP or FN is reserved
(R47–R49, R52). Bits an operation does not use are ignored. -/
def decodeCtu (core : CoreId) (w : BitVec 32) : Option Instr :=
  let rd := regAt w 21
  let ra := regAt w 16
  let rb := regAt w 11
  let fn := w.toNat % 2048
  let imm := w.truncate 16
  match w.toNat / 2 ^ 26 with
  | 0x00 => decodeAlu core rd ra rb fn
  | 0x01 => some (.addi core rd ra imm)
  | 0x02 => some (.andi core rd ra imm)
  | 0x03 => some (.ori core rd ra imm)
  | 0x04 => some (.xori core rd ra imm)
  | 0x05 => some (.slti core rd ra imm)
  | 0x06 => some (decodeShi core rd ra imm)
  | 0x07 => some (.lui core rd imm)
  | 0x08 => some (.insq core rd ((w >>> 16).truncate 2) imm)
  | 0x10 => some (.lb core rd ra imm)
  | 0x11 => some (.lbu core rd ra imm)
  | 0x12 => some (.lh core rd ra imm)
  | 0x13 => some (.lhu core rd ra imm)
  | 0x14 => some (.lw core rd ra imm)
  | 0x15 => some (.lwu core rd ra imm)
  | 0x16 => some (.ld core rd ra imm)
  | 0x18 => some (.sb core rd ra imm)
  | 0x19 => some (.sh core rd ra imm)
  | 0x1A => some (.sw core rd ra imm)
  | 0x1B => some (.sd core rd ra imm)
  | 0x20 => some (.beq core rd ra imm)
  | 0x21 => some (.bne core rd ra imm)
  | 0x22 => some (.blt core rd ra imm)
  | 0x23 => some (.bge core rd ra imm)
  | 0x24 => some (.bltu core rd ra imm)
  | 0x25 => some (.bgeu core rd ra imm)
  | 0x26 => some (.jal core rd (w.truncate 21))
  | 0x27 => some (.jalr core rd ra imm)
  | 0x30 => decodeIssue core rd ra fn
  | 0x31 => decodeSync core rd ra rb fn
  | 0x32 => decodeQueue core rd ra rb fn
  | 0x33 => decodeSystem core rd ra rb fn
  | _ => none

/-- A word of format A (R47). -/
def wordA (op : Nat) (rd ra rb : Reg) (fn : Nat) : BitVec 32 :=
  BitVec.ofNat 32 (op * 2 ^ 26 + rd.val * 2 ^ 21 + ra.val * 2 ^ 16 + rb.val * 2 ^ 11 + fn)

/-- A word of format I or B (R47): format B names RA and RB in the places of RD and RA. -/
def wordI (op : Nat) (rd ra : Reg) (imm : Nat) : BitVec 32 :=
  BitVec.ofNat 32 (op * 2 ^ 26 + rd.val * 2 ^ 21 + ra.val * 2 ^ 16 + imm)

/-- A word of format J (R47). -/
def wordJ (op : Nat) (rd : Reg) (off : Nat) : BitVec 32 := BitVec.ofNat 32 (op * 2 ^ 26 + rd.val * 2 ^ 21 + off)

/-- The instruction word of a control-unit instruction, unused bits 0 (R47–R49, R52); none for every other command. -/
def encodeCtu : Instr → Option (BitVec 32)
  | .add _ rd ra rb => some (wordA 0x00 rd ra rb 0x00)
  | .sub _ rd ra rb => some (wordA 0x00 rd ra rb 0x01)
  | .aluAnd _ rd ra rb => some (wordA 0x00 rd ra rb 0x02)
  | .aluOr _ rd ra rb => some (wordA 0x00 rd ra rb 0x03)
  | .aluXor _ rd ra rb => some (wordA 0x00 rd ra rb 0x04)
  | .shl _ rd ra rb => some (wordA 0x00 rd ra rb 0x05)
  | .shr _ rd ra rb => some (wordA 0x00 rd ra rb 0x06)
  | .sra _ rd ra rb => some (wordA 0x00 rd ra rb 0x07)
  | .rotl _ rd ra rb => some (wordA 0x00 rd ra rb 0x08)
  | .slt _ rd ra rb => some (wordA 0x00 rd ra rb 0x09)
  | .sltu _ rd ra rb => some (wordA 0x00 rd ra rb 0x0A)
  | .aluMin _ rd ra rb => some (wordA 0x00 rd ra rb 0x0B)
  | .aluMax _ rd ra rb => some (wordA 0x00 rd ra rb 0x0C)
  | .minu _ rd ra rb => some (wordA 0x00 rd ra rb 0x0D)
  | .maxu _ rd ra rb => some (wordA 0x00 rd ra rb 0x0E)
  | .mul _ rd ra rb => some (wordA 0x00 rd ra rb 0x10)
  | .mulh _ rd ra rb => some (wordA 0x00 rd ra rb 0x11)
  | .mulhu _ rd ra rb => some (wordA 0x00 rd ra rb 0x12)
  | .div _ rd ra rb => some (wordA 0x00 rd ra rb 0x14)
  | .divu _ rd ra rb => some (wordA 0x00 rd ra rb 0x15)
  | .rem _ rd ra rb => some (wordA 0x00 rd ra rb 0x16)
  | .remu _ rd ra rb => some (wordA 0x00 rd ra rb 0x17)
  | .clz _ rd ra rb => some (wordA 0x00 rd ra rb 0x18)
  | .ctz _ rd ra rb => some (wordA 0x00 rd ra rb 0x19)
  | .popc _ rd ra rb => some (wordA 0x00 rd ra rb 0x1A)
  | .aluSel _ rd ra rb => some (wordA 0x00 rd ra rb 0x1C)
  | .addi _ rd ra imm => some (wordI 0x01 rd ra imm.toNat)
  | .andi _ rd ra imm => some (wordI 0x02 rd ra imm.toNat)
  | .ori _ rd ra imm => some (wordI 0x03 rd ra imm.toNat)
  | .xori _ rd ra imm => some (wordI 0x04 rd ra imm.toNat)
  | .slti _ rd ra imm => some (wordI 0x05 rd ra imm.toNat)
  | .shiShl _ rd ra n => some (wordI 0x06 rd ra n.toNat)
  | .shiShr _ rd ra n => some (wordI 0x06 rd ra (64 + n.toNat))
  | .shiSra _ rd ra n => some (wordI 0x06 rd ra (128 + n.toNat))
  | .shiRotl _ rd ra n => some (wordI 0x06 rd ra (192 + n.toNat))
  | .lui _ rd imm => some (wordI 0x07 rd 0 imm.toNat)
  | .insq _ rd q imm => some (wordI 0x08 rd 0 (q.toNat * 2 ^ 16 + imm.toNat))
  | .lb _ rd ra imm => some (wordI 0x10 rd ra imm.toNat)
  | .lbu _ rd ra imm => some (wordI 0x11 rd ra imm.toNat)
  | .lh _ rd ra imm => some (wordI 0x12 rd ra imm.toNat)
  | .lhu _ rd ra imm => some (wordI 0x13 rd ra imm.toNat)
  | .lw _ rd ra imm => some (wordI 0x14 rd ra imm.toNat)
  | .lwu _ rd ra imm => some (wordI 0x15 rd ra imm.toNat)
  | .ld _ rd ra imm => some (wordI 0x16 rd ra imm.toNat)
  | .sb _ rd ra imm => some (wordI 0x18 rd ra imm.toNat)
  | .sh _ rd ra imm => some (wordI 0x19 rd ra imm.toNat)
  | .sw _ rd ra imm => some (wordI 0x1A rd ra imm.toNat)
  | .sd _ rd ra imm => some (wordI 0x1B rd ra imm.toNat)
  | .beq _ ra rb off => some (wordI 0x20 ra rb off.toNat)
  | .bne _ ra rb off => some (wordI 0x21 ra rb off.toNat)
  | .blt _ ra rb off => some (wordI 0x22 ra rb off.toNat)
  | .bge _ ra rb off => some (wordI 0x23 ra rb off.toNat)
  | .bltu _ ra rb off => some (wordI 0x24 ra rb off.toNat)
  | .bgeu _ ra rb off => some (wordI 0x25 ra rb off.toNat)
  | .jal _ rd off => some (wordJ 0x26 rd off.toNat)
  | .jalr _ rd ra imm => some (wordI 0x27 rd ra imm.toNat)
  | .pushd _ e ra => some (wordA 0x30 0 ra 0 e.toNat)
  | .pushdn _ e rd ra => some (wordA 0x30 rd ra 0 (4 + e.toNat))
  | .scwait _ ra rb => some (wordA 0x31 0 ra rb 0)
  | .sctest _ rd ra rb => some (wordA 0x31 rd ra rb 1)
  | .scread _ rd ra => some (wordA 0x31 rd ra 0 2)
  | .scset _ ra rb => some (wordA 0x31 0 ra rb 3)
  | .scadd _ ra rb => some (wordA 0x31 0 ra rb 4)
  | .qcfg _ ra rb => some (wordA 0x32 0 ra rb 0)
  | .qwait _ rd ra => some (wordA 0x32 rd ra 0 1)
  | .qpeek _ rd ra => some (wordA 0x32 rd ra 0 2)
  | .qrel _ ra rb => some (wordA 0x32 0 ra rb 3)
  | .qstat _ rd ra => some (wordA 0x32 rd ra 0 4)
  | .halt _ => some (wordA 0x33 0 0 0 0)
  | .ctuYield _ => some (wordA 0x33 0 0 0 1)
  | .ifill _ rd ra rb => some (wordA 0x33 rd ra rb 2)
  | .drd _ rd ra => some (wordA 0x33 rd ra 0 3)
  | .ftime _ rd => some (wordA 0x33 rd 0 0 4)
  | .ctxid _ rd => some (wordA 0x33 rd 0 0 5)
  | .coreid _ rd => some (wordA 0x33 rd 0 0 6)
  | .swappt _ rd ra => some (wordA 0x33 rd ra 0 7)
  | .cycles _ rd => some (wordA 0x33 rd 0 0 8)
  | _ => none

end Sys2Proof
end

