-- ==== Sys2Proof/Machine/Piece.lean ====
section
/-!
DEFINITION. How a Hallmark piece runs (R503, R504): the core under test, which holds no logical core, executes the piece's own instructions and
descriptors by the meanings of the commands, one act at a tick.
-/
namespace Sys2Proof.Machine

/-- The logical core ID under which a core under test runs its piece: logical core 0 of its cluster (log entry 24). -/
def HallTest.id (t : HallTest) : CoreId := BitVec.ofNat 13 (256 * (t.cluster / 12) + 64 * (t.cluster / 4 % 3) + 16 * (t.cluster % 4))

/-- The package as a core under test sees it: its ID names the core, and neither full redundancy nor a start in progress concerns it. -/
def State.asTested (s : State) (t : HallTest) : State :=
  let s1 := ((s.set Key.logicalClustersPerDie 4).set Key.redundancyEnable 0).set Key.pkgState 1
  { s1 with cmap := put t.cluster [Fin.ofNat 17 t.core] s.cmap }

/-- What an act of a core under test leaves: the core, its messages and the free values. Faults inside a test count only in the Hallmark counters
(R504), and nothing leaves the core (R503); packets to itself wait in the test. -/
def State.keepTested (s v : State) (t : HallTest) : State × HallTest :=
  let mine := (v.out.drop s.out.length).filterMap (fun o => match o with
    | .packet none _ p => if p.srcEp.toNat = t.id.toNat ∧ p.destEp.toNat = t.id.toNat then some p else none
    | _ => none)
  let p := 17 * t.cluster + t.core
  let u := { t with mail := t.mail ++ mine }
  ({ s.setCore p (v.core p) with
      freeCtr := v.freeCtr, msgs := v.msgs, nextMsg := v.nextMsg, msgNo := v.msgNo, retired := v.retired, reorders := v.reorders, dups := v.dups,
      hall := { s.hall with tests := s.hall.tests.map (fun x => if x = t then u else x) } }, u)

/-- The state after a command, or before it where it does not run. -/
def State.after (s : State) (i : Instr) : State :=
  match exec i s with
  | .next t => t
  | _ => s

/-- A message descriptor names the core itself and nothing else (R503): the general operations with the core as target, a COPY also as source, and
NOP and FENCE. -/
def State.selfOnly (s : State) (id d : Nat) : Bool :=
  let self := s.mNode d == s.node && mEp d == id
  match dOp d with
  | 0 => true
  | 6 => true
  | 1 => self
  | 2 => self
  | 3 => self
  | 5 => self
  | 4 => self && mEp2 d == id
  | _ => false

/-- A packet reaches the core that sent it: only the command of its operation takes it. -/
def State.deliverSelf (s : State) (p : Packet) : State :=
  [Instr.putArrival none p, .getArrival none p, .sendArrival none p, .copyArrival none p, .signalArrival none p, .readDataArrival none p,
    .completionArrival none p, .busyArrival none p, .retryArrival none p].foldl State.after s

/-- The commands by which the engines of a core go on: at most one of the start commands of an engine fits the head of its queue. -/
def engineActs (id : CoreId) (nos : List Nat) : List Instr :=
  [.mxeNop id, .mma id, .mxeCombine id, .mxeDrain id, .mxeClear id, .mxeDescComplete id, .deferTake id, .fgeNop id, .fgeStream id, .fgeCompress id,
    .fgeExpand id, .ctxLoad id, .ctxStore id, .ctxRoll id, .setStep id, .fgeDescComplete id, .mseNop id, .msePut id, .mseGet id, .mseSend id,
    .mseCopy id, .mseSignal id, .mseFence id, .ifillComplete id, .drdResult id, .backfillSwitch id] ++ nos.map (.mseDescComplete id)

/-- A core under test has an engine stop, or a context halted at a word other than HALT (R504). -/
def Core.pieceFailed (id : CoreId) (c : Core) : Bool :=
  let bad := fun (x : Ctx) => x.st == .halted && decodeCtu id (BitVec.ofNat 32 (c.ibuf.num x.pc.toNat 4)) != some (.halt id)
  c.mxe.stopped || c.fge.stopped || c.mse.stopped || bad c.primary || bad c.companion

/-- One act of a core under test: the next instruction of its running context, a step of an engine, or the arrival of a packet it has sent itself;
which, is free. A message descriptor for anything but the core is refused with cause 0x04 (R503). -/
def State.testAct (s : State) (t : HallTest) : State × HallTest :=
  let p := 17 * t.cluster + t.core
  let u := ((s.asTested t).wake p).tick.tick
  let c := u.core p
  let k := s.tick.free
  match s.free % 3, t.mail with
  | 0, m :: rest =>
    let v := { t with mail := rest }
    { s with hall := { s.hall with tests := s.hall.tests.map (fun x => if x = t then v else x) } }.keepTested (u.deliverSelf m) v
  | 1, _ =>
    let acts := engineActs t.id (c.ops.map (·.no))
    let act := acts.getD (k % acts.length) (.mxeNop t.id)
    let head := c.mse.queue.head?
    if head.any (fun d => c.gateOk d && !u.selfOnly t.id.toNat d) then s.keepTested (u.engineStop p 2 4 (head.getD 0)) t
    else s.keepTested (u.after act) t
  | _, _ =>
    let word := c.ibuf.num c.ctx.pc.toNat 4
    match decodeCtu t.id (BitVec.ofNat 32 word) with
    | some i => s.keepTested (u.after i) t
    | none => s.keepTested (if u.canIssue p then u.ctuFault p 1 word else u) t

/-- A running test at a tick (R504): it fails once its time is over, or with a fault or an engine stop; at HALT of the primary the result is
judged. -/
def State.testTick (s : State) (t : HallTest) : State :=
  if s.pieceLate t then s.testFail t
  else
    let r := s.testAct t
    let c := r.1.core (17 * t.cluster + t.core)
    if c.pieceFailed t.id then r.1.testFail r.2
    else if c.primary.st = .halted then r.1.pieceHalts r.2
    else r.1

/-- Every running test of a package that is not held, where its setting is supervised (R24). -/
def State.tickTests (s : State) : State :=
  if s.packageHeld then s else (s.hall.tests.filter (fun t => s.watches (t.cluster / 12))).foldl State.testTick s

end Sys2Proof.Machine
end

