-- ==== Sys2Proof/Machine/Tick.lean ====
section
/-!
DEFINITION. What passes when no command waits: one nanosecond of fabric time (log entry 1).
-/
namespace Sys2Proof.Machine

/-- The word at the program counter of the running context of a core (R47). -/
def Core.fetchWord (c : Core) : Nat := c.ibuf.num c.ctx.pc.toNat 4

/-- An engine of the core is at work, so that its scratchpad ports compete for grants (R69). -/
def Core.working (c : Core) : Bool := !c.mxe.started.isEmpty || !c.fge.started.isEmpty || !c.ops.isEmpty

/-- The clock counters of a core's waits, and its grants by age (R69), advance by free amounts (R58, R87, R232, R243, R246, R270; log
entry 6). -/
def State.waitClocks (s : State) (p : Nat) : State :=
  let c := s.core p
  let n := physCluster p
  let s1 := match c.ctx.stall with
    | some (.push _ _) => s.countClocks (Key.queueFullClocks n)
    | _ => s
  let s2 := match c.primary.stall with
    | some (.queue q _ _) =>
      if q.val < 16 ∧ bit (s.get Key.pipeChannelMask) q.val then s1.countClocks (Key.pipeWaitClocks n) else s1
    | _ => s1
  let s3 := if c.ops.any (fun o => o.kind == .credit && !o.todo.isEmpty) then s2.countClocks (Key.creditStallClocks n) else s2
  let s4 := if c.ops.any (fun o => o.kind == .windowHeld) then s3.countClocks Key.bucketWindowStallClocks else s3
  let s5 := if c.working then s4.countClocks (Key.arbAgePromotions n) else s4
  let s6 := if c.ops.any c.drainWaits then s5.countClocks (Key.bushelReleaseWaitClocks n) else s5
  if c.onComp then
    let s7 := s6.countClocks (Key.backfillCompanionClocks n)
    if c.primaryEntry then s7.countClocks (Key.backfillLateClocks n) else s7
  else s6

/-- A core in one tick: stalls that can end do, and a running context whose word at the program counter is reserved takes
CTU fault 0x01 (R55). -/
def State.tickCore (s : State) (p : Nat) : State :=
  let s1 := s.wake p
  if s1.canIssue p ∧ decodeCtu 0 (BitVec.ofNat 32 (s1.core p).fetchWord) = none then
    s1.ctuFault p 1 (s1.core p).fetchWord
  else s1.waitClocks p

/-- The rate takes a nanosecond of an offset away: one in 20,000 at the most, 50 parts in a million, and whether now is free (R361). -/
def State.steerRate (s : State) : State :=
  if s.rateLeft = 0 ∨ s.ftime < s.rateAt + 20000 then s
  else if s.free % 2 = 0 then s.tick
  else if 0 < s.rateLeft then { s.tick with ftime := (s.ftime + 1) % 2 ^ 64, rateLeft := s.rateLeft - 1, rateAt := s.ftime }
  else { s.tick with ftime := (s.ftime + 2 ^ 64 - 1) % 2 ^ 64, rateLeft := s.rateLeft + 1, rateAt := s.ftime }

/-- Fabric time one nanosecond on, and the time since a start began (R559); while an offset is being removed it runs at half rate (R361): `slew` counts the ticks left. -/
def State.passTime (s : State) : State :=
  let s1 := if s.slew % 2 = 0 ∧ 0 < s.slew then s else { s with ftime := (s.ftime + 1) % 2 ^ 64 }.steerRate
  { s1 with slew := s1.slew - 1,
            startup := { s1.startup with lead := if s1.startup.running then s1.startup.lead + 1 else s1.startup.lead } }

/-- One tick of an idle block that is not held: time, the host port, the cores that hold logical cores, the tests, the lockstep
comparison, what power counts, the memory controllers, the links and the mesh. -/
def State.idle (s : State) : State :=
  if s.packageHeld then s
  else
  let s1 := s.passTime.pumpHost
  let s2 := ((s1.cores.map Prod.fst).filter (fun p => s1.presents (p / 17) && (s1.mappedCores (p / 17)).contains (p % 17))).foldl State.tickCore s1
  s2.tickTests.tickLockstep.tickCommit.tickPower.tickMemory.tickLinks.tickMesh.tickPrst

end Sys2Proof.Machine
end

