-- ==== Sys2Proof/Safety.lean ====
section
/-!
DEFINITION. The terms that claims are made in: when a command completes, when the control unit of a core can run an instruction, and
what has stayed as it was.
-/
namespace Sys2Proof.Machine

/-- A command completes in a state, and the state after it is `t`. -/
def Completes (c : Instr) (s t : State) : Prop := exec c s = .next t

/-- Logical core `core` is held by physical core `p` (R29, R32). -/
def Holds (s : State) (core : CoreId) (p : Nat) : Prop := s.physOf core.toNat = some p

/-- Logical core `core` is held by physical core `p`, whose running context can execute an instruction (R44, R45). -/
def Runs (s : State) (core : CoreId) (p : Nat) : Prop := s.physOf core.toNat = some p ∧ s.canIssue p = true

/-- Nothing of the package but physical core `p` differs. -/
def OnlyCore (s t : State) (p : Nat) : Prop := t = { s with cores := t.cores } ∧ ∀ q, q ≠ p → t.core q = s.core q

/-- Nothing of the package but the running context of physical core `p` differs. -/
def OnlyCtx (s t : State) (p : Nat) : Prop := OnlyCore s t p ∧ t.core p = (s.core p).setCtx (t.core p).ctx

/-- The running context has gone on to the instruction at `pc`, ready, with nothing else of the package changed but registers. -/
def WentTo (s t : State) (p : Nat) (pc : BitVec 16) : Prop :=
  OnlyCtx s t p ∧ (t.core p).ctx.st = .ready ∧ (t.core p).ctx.stall = none ∧ (t.core p).ctx.pc = pc

/-- The running context's registers hold what they held, but `rd` holds `v`, unless it is g0, which stays 0 (R43). -/
def RegIs (s t : State) (p : Nat) (rd : Reg) (v : Word) : Prop :=
  ∀ r, (t.core p).ctx.get r = if r = rd ∧ r ≠ 0 then v else (s.core p).ctx.get r

/-- The running context's registers hold what they held. -/
def RegsSame (s t : State) (p : Nat) : Prop := ∀ r, (t.core p).ctx.get r = (s.core p).ctx.get r

/-- A command completes by writing `v` to `rd` and going on to the next instruction; nothing else changes. -/
def Writes (c : Instr) (s : State) (p : Nat) (rd : Reg) (v : Word) : Prop :=
  ∃ t, exec c s = .next t ∧ WentTo s t p ((s.core p).ctx.pc + 4) ∧ RegIs s t p rd v

/-- A command completes by going on to the instruction at `pc`; nothing else changes. -/
def GoesTo (c : Instr) (s : State) (p : Nat) (pc : BitVec 16) : Prop :=
  ∃ t, exec c s = .next t ∧ WentTo s t p pc ∧ RegsSame s t p

/-- The running context of core `p` is held at its instruction by `w`; nothing else changes. -/
def Stalls (c : Instr) (s : State) (p : Nat) (st : CtxState) (w : Stall) : Prop :=
  ∃ t, exec c s = .next t ∧ OnlyCtx s t p ∧ (t.core p).ctx = { (s.core p).ctx with st := st, stall := some w }

/-- A counter of the dictionary has advanced by `n`; U64 counters stop at their largest value (R474, log entry 5). -/
def Counted (s t : State) (e : Ent) (n : Nat) : Prop := t.get e = if n = 0 then s.get e else satAdd64 (s.get e) n

/-- An event record has been posted to the event queue of physical core `p` (R85, R88, R90): its 32 bytes lie in the free slot that comes next
(which one is the choice of log entry 8), which is now the queue's last entry; or, where the queue is disabled or full, nothing is written and the
drop is counted. -/
def EventPosted (s t : State) (p kind source cause tag detail0 detail1 : Nat) : Prop :=
  let q := (s.core p).queue 16
  match (if q.mode = 0 then none else q.freeSlot) with
  | none => (t.core p).sp = (s.core p).sp ∧ (t.core p).queue 16 = q ∧ Counted s t (Key.eventDrops (physCluster p)) 1
  | some i => (t.core p).sp = (s.core p).sp.writeN (q.slotAddr i) (eventRecord kind source cause tag s.ftime detail0 detail1)
      ∧ ((t.core p).queue 16).entries = q.entries ++ [q.slotAddr i] ∧ Counted s t (Key.eventDrops (physCluster p)) 0

/-- The running context has taken a CTU fault: it is halted at its instruction with its registers kept, the fault is counted, a CTU_FAULT record
with its cause, the program counter and `detail` is posted, and the primary has the control unit again (R45, R55, R89, R246). -/
def CtuFaulted (s t : State) (p cause detail : Nat) : Prop :=
  (let c := t.core p; let x := if (s.core p).onComp then c.companion else c.primary
   x = { (s.core p).ctx with st := .halted, stall := none } ∧ c.onComp = false)
  ∧ Counted s t (Key.ctuFaults (physCluster p)) 1
  ∧ EventPosted s t p 3 (b2n (s.core p).onComp) cause 0 (s.core p).ctx.pc.toNat detail

/-- Every memory of a core is in canonical form. -/
def CoreWf (c : Core) : Prop := c.sp.wf = true ∧ c.ibuf.wf = true

/-- Every memory of the package is in canonical form. -/
def MemsWf (s : State) : Prop := (∀ p, CoreWf (s.core p)) ∧ ∀ n, (s.stack n).mem.wf = true

/-- A second set of fuses holds all that a first one holds: what the chip was made with is the same, no revoked key is valid again and
no rollback floor is lower (R520). -/
def Fuses.Extends (f g : Fuses) : Prop :=
  g.digests = f.digests ∧ g.seed = f.seed ∧ g.serial = f.serial ∧ g.gradeB = f.gradeB ∧ f.svn ≤ g.svn
    ∧ ∀ k, bit f.revoked k = true → bit g.revoked k = true

/-- The engine `e` of the physical core that holds a logical core may start descriptor `d`, whose OPCODE is `op` (R58–R62). -/
def Starts (s : State) (core : CoreId) (p e op d : Nat) : Prop := Holds s core p ∧ s.startable p e = some d ∧ dOp d = op

/-- A command completes by stopping engine `e` on the descriptor `d` at its head with a cause: the descriptor is not executed and leaves the queue,
the started ones stay, the stop and the refusal are counted, and an ENGINE_STOP record with the cause, the TAG and bytes 0 to 7 of the descriptor is
posted (R61, R62, R89). -/
def StopsEngine (c : Instr) (s : State) (p e cause d : Nat) : Prop :=
  ∃ t, exec c s = .next t ∧ ((t.core p).engine e).stopped = true ∧ ((t.core p).engine e).queue = ((s.core p).engine e).queue.drop 1
    ∧ ((t.core p).engine e).started = ((s.core p).engine e).started ∧ (t.core p).ops = (s.core p).ops
    ∧ (∀ q, q ≠ p → t.core q = s.core q)
    ∧ Counted s t (Key.engineStops (physCluster p)) 1 ∧ Counted s t (Key.descInvalid (physCluster p)) 1
    ∧ EventPosted s t p 2 (e + 2) cause (dTag d) (fld d 0 64) 0

/-- A command completes by starting the descriptor `d` at the head of engine `e`: it leaves the queue and waits for its completion
behind the started ones. Nothing it writes is visible yet: the scratchpad, the sync counters and the other cores are as before. -/
def StartsOn (c : Instr) (s t : State) (p e d : Nat) : Prop :=
  exec c s = .next t ∧ ((t.core p).engine e).queue = ((s.core p).engine e).queue.drop 1
    ∧ (∃ x, ((t.core p).engine e).started = ((s.core p).engine e).started ++ [x] ∧ x.desc = d)
    ∧ (t.core p).sp = (s.core p).sp ∧ (t.core p).ctrs = (s.core p).ctrs ∧ (t.core p).primary = (s.core p).primary
    ∧ (t.core p).companion = (s.core p).companion ∧ ∀ q, q ≠ p → t.core q = s.core q

/-- The DONE_CTR increment of a completed descriptor (R57, R65): the counter DONE_CTR has DONE_INC more, every other its value. -/
def DoneCounted (s t : State) (p d : Nat) : Prop :=
  ∀ n, (t.core p).ctr n = if n = fld d 8 8 ∧ fld d 16 8 ≠ 0 then ((s.core p).ctr n + fld d 16 8) % 2 ^ 32 else (s.core p).ctr n

/-- A packet of operation `op` has reached its own package intact: its port is not fenced, its table version in use and it is on no
detour (R392), it is not aborted, holds no reserved value, its CRC and length are right and its job tag is the package's (R369, R389, R394, R399). -/
def Arrives (s : State) (op : Nat) (via : Option Port) (p : Packet) : Prop :=
  s.packageHeld = false ∧ p.op.toNat = op ∧ s.isOwn p.destNode.toNat = true
    ∧ (∀ q, via = some q → s.fenced (b2n p.epoch) q.val = false ∧ s.tableState (b2n p.epoch) ≠ 0 ∧ p.detour ≠ 1 ∧ p.detour ≠ 2)
    ∧ p.abort = false ∧ packetReserved p = false ∧ packetCrc p = p.crc.toNat ∧ p.payload.length = p.length.toNat
    ∧ p.jobTag.toNat = s.get Key.jobTag

/-- A packet that is a whole message meets a target that takes it now: its endpoint accepts requests and its core is not being
swapped, the message is not a duplicate, no earlier message of its flow is missing, and there is room for its record (R377, R380,
R381, R480, R508). -/
def Admitted (s : State) (p : Packet) : Prop :=
  s.endpointHeld p.destEp.toNat = false ∧ s.heldBySwap p = false ∧ s.dupOf p.srcNode.toNat p.msgId.toNat = none
    ∧ (p.cls = 0 → bit p.operand.toNat 24 = true → s.dupOf p.srcNode.toNat (fld p.operand.toNat 0 24) ≠ none)
    ∧ (s.dups.filter (fun r => r.msgId % 4 == p.msgId.toNat % 4)).length < 65536
    ∧ (∀ c ∈ s.reorders, c.srcNode ≠ p.srcNode.toNat ∨ c.msgId ≠ p.msgId.toNat) ∧ msgCount p = 1

/-- The message of a packet has been answered with a status: its duplicate record is the newest (R381). -/
def Answered (s t : State) (p : Packet) (status : Nat) : Prop :=
  t.dups = s.dups ++ [{ srcNode := p.srcNode.toNat, msgId := p.msgId.toNat, status := status }]

/-- A frame comes in at the host port and is taken: the port takes packets, supports the frame, and finds the SecTAG that MACsec asks
for right (R427, R428). -/
def FrameTaken (s : State) (w : Wire) (bytes : List Byte) : Prop := s.portOpen = true ∧ wireGood w = true ∧ s.secGood w bytes = true

/-- A CHP packet of a type comes in and is taken (R430). -/
def ChpTaken (s : State) (head : ChpHead) (type : Nat) (payload : List Byte) : Prop :=
  FrameTaken s head.wire (packetAsCame head payload) ∧ head.type.toNat = type ∧ s.framed head payload = true

/-- A CHP packet of a session is taken in: its frame is taken, its TAG is right, its header has been taken, and its SEQ is within reach
and has not been received; `u` is the state with the SEQ received (R430, R433, R435). -/
def Taken (s : State) (head : ChpHead) (type : Nat) (payload : List Byte) (u : State) : Prop :=
  let n := head.session.toNat
  let v := s.took head.wire
  ChpTaken s head type payload ∧ ∃ x y, v.tagged head payload = some x ∧ (v.takeHeader n x head).session n = some y
    ∧ (let d := (head.seq.toNat + 2 ^ 32 - y.rxAck) % 2 ^ 32
       d < 1024 ∧ (d = 0 ∨ bit y.rxSack (d - 1) = false) ∧ u = (v.takeHeader n x head).setSession n (y.received d))

/-- A request is taken in and, where R449 says so, recorded; no replay turns it away. `w` is the state in which it takes effect (R436, R449,
R450). -/
def Requested (s : State) (head : ChpHead) (record : BitVec 512) (extra : List Byte) (w : State) : Prop :=
  ∃ u, Taken s head 0x10 (leBytes 64 record.toNat ++ extra) u
    ∧ w = (if unrecorded record.toNat then u
           else u.recordPacket 0x10 head.session.toNat head.seq.toNat (packetAsCame head (leBytes 64 record.toNat ++ extra)))
    ∧ (w.host.replay = none ∨ replayFree record.toNat = true)

/-- The reply record of a request is the last packet that its session has sent or, with its window full, has waiting (R435, R441). -/
def Replied (w t : State) (n reqId op status d0 d1 : Nat) : Prop :=
  ∃ x y, w.session n = some x ∧ t.session n = some y
    ∧ (y.unacked = x.unacked ++ [(x.txSeq, 0x11, replyRecord reqId op status d0 d1 w.ftime, 1, false)]
       ∨ y.waiting = x.waiting ++ [(0x11, replyRecord reqId op status d0 d1 w.ftime)])

/-- Nothing moves on by itself: no collective, message, host request or started message descriptor is in progress. -/
def Quiet (s : State) : Prop :=
  s.colls = [] ∧ s.msgs = [] ∧ s.ctxWaiters = [] ∧ s.host.reqs = [] ∧ ∀ q, (s.core q).ops = []

/-- A reset or capture that has just begun: domain, engine, target, cause, phase and start. -/
def newJob (domain engine target cause : Nat) (phase : ResetPhase) (start : Nat) : ResetJob :=
  { domain := domain, engine := engine, target := target, cause := cause, phase := phase, start := start, bad := [], runs := [], next := none }

end Sys2Proof.Machine
end

