-- ==== Sys2Proof/WellFormed.lean ====
section
/-!
DEFINITION. Which commands are well formed: the bounds of the manual on operands whose Lean type does not already hold them. Nothing
in a meaning rests on them; they say what a sender of commands keeps to.
-/
namespace Sys2Proof

/-- A packet carries at most 1,024 octets, as many as its LENGTH says (R366, R367). -/
def Packet.wf (p : Packet) : Bool := decide (p.payload.length = p.length.toNat) && decide (p.length.toNat ≤ 1024)

/-- A frame's body has 240 octets (R339). -/
def Frame.wf (f : Frame) : Bool := decide (f.body.length ≤ 240) && decide (f.bodyLen.toNat ≤ 240)

/-- A command is well formed. -/
def Instr.wf : Instr → Bool
  | .add _ _ _ _ => true
  | .sub _ _ _ _ => true
  | .aluAnd _ _ _ _ => true
  | .aluOr _ _ _ _ => true
  | .aluXor _ _ _ _ => true
  | .shl _ _ _ _ => true
  | .shr _ _ _ _ => true
  | .sra _ _ _ _ => true
  | .rotl _ _ _ _ => true
  | .slt _ _ _ _ => true
  | .sltu _ _ _ _ => true
  | .aluMin _ _ _ _ => true
  | .aluMax _ _ _ _ => true
  | .minu _ _ _ _ => true
  | .maxu _ _ _ _ => true
  | .mul _ _ _ _ => true
  | .mulh _ _ _ _ => true
  | .mulhu _ _ _ _ => true
  | .div _ _ _ _ => true
  | .divu _ _ _ _ => true
  | .rem _ _ _ _ => true
  | .remu _ _ _ _ => true
  | .clz _ _ _ _ => true
  | .ctz _ _ _ _ => true
  | .popc _ _ _ _ => true
  | .aluSel _ _ _ _ => true
  | .addi _ _ _ _ => true
  | .andi _ _ _ _ => true
  | .ori _ _ _ _ => true
  | .xori _ _ _ _ => true
  | .slti _ _ _ _ => true
  | .shiShl _ _ _ _ => true
  | .shiShr _ _ _ _ => true
  | .shiSra _ _ _ _ => true
  | .shiRotl _ _ _ _ => true
  | .lui _ _ _ => true
  | .insq _ _ _ _ => true
  | .lb _ _ _ _ => true
  | .lbu _ _ _ _ => true
  | .lh _ _ _ _ => true
  | .lhu _ _ _ _ => true
  | .lw _ _ _ _ => true
  | .lwu _ _ _ _ => true
  | .ld _ _ _ _ => true
  | .sb _ _ _ _ => true
  | .sh _ _ _ _ => true
  | .sw _ _ _ _ => true
  | .sd _ _ _ _ => true
  | .beq _ _ _ _ => true
  | .bne _ _ _ _ => true
  | .blt _ _ _ _ => true
  | .bge _ _ _ _ => true
  | .bltu _ _ _ _ => true
  | .bgeu _ _ _ _ => true
  | .jal _ _ _ => true
  | .jalr _ _ _ _ => true
  | .pushd _ _ _ => true
  | .pushdn _ _ _ _ => true
  | .scwait _ _ _ => true
  | .sctest _ _ _ _ => true
  | .scread _ _ _ => true
  | .scset _ _ _ => true
  | .scadd _ _ _ => true
  | .qcfg _ _ _ => true
  | .qwait _ _ _ => true
  | .qpeek _ _ _ => true
  | .qrel _ _ _ => true
  | .qstat _ _ _ => true
  | .halt _ => true
  | .ctuYield _ => true
  | .ifill _ _ _ _ => true
  | .ifillComplete _ => true
  | .drd _ _ _ => true
  | .drdResult _ => true
  | .ftime _ _ => true
  | .ctxid _ _ => true
  | .coreid _ _ => true
  | .swappt _ _ _ => true
  | .cycles _ _ => true
  | .backfillSwitch _ => true
  | .mxeNop _ => true
  | .mma _ => true
  | .mxeCombine _ => true
  | .mxeDrain _ => true
  | .mxeClear _ => true
  | .mxeDescComplete _ => true
  | .deferTake _ => true
  | .fgeNop _ => true
  | .fgeStream _ => true
  | .fgeCompress _ => true
  | .fgeExpand _ => true
  | .ctxLoad _ => true
  | .ctxStore _ => true
  | .ctxRoll _ => true
  | .setStep _ => true
  | .fgeDescComplete _ => true
  | .mseNop _ => true
  | .msePut _ => true
  | .mseGet _ => true
  | .mseSend _ => true
  | .mseCopy _ => true
  | .mseSignal _ => true
  | .mseFence _ => true
  | .mseDescComplete _ _ => true
  | .bushelOpen _ => true
  | .bushelPush _ => true
  | .bushelDrain _ => true
  | .bushelFrameRead _ _ => true
  | .bushelQuery _ => true
  | .mseGather _ => true
  | .bucketAdd _ => true
  | .bucketStep _ => true
  | .bucketStepRelease _ _ => true
  | .bucketExchange _ => true
  | .bucketWindowAdmit _ _ => true
  | .bucketAgree _ => true
  | .groupForm _ => true
  | .collAllReduce _ => true
  | .collReduceScatter _ => true
  | .collAllGather _ => true
  | .collBroadcast _ => true
  | .collBarrier _ => true
  | .collectiveLaunch context => decide (context < 1024)
  | .expertDispatch _ => true
  | .expertReturn _ => true
  | .expertCombine _ => true
  | .putArrival _ packet => packet.wf
  | .getArrival _ packet => packet.wf
  | .sendArrival _ packet => packet.wf
  | .copyArrival _ packet => packet.wf
  | .signalArrival _ packet => packet.wf
  | .gatherArrival _ packet => packet.wf
  | .readDataArrival _ packet => packet.wf
  | .completionArrival _ packet => packet.wf
  | .busyArrival _ packet => packet.wf
  | .retryArrival _ packet => packet.wf
  | .creditGrantArrival _ _ _ _ credits payload => decide (credits < 2 ^ 32) && decide (payload < 2 ^ 32)
  | .creditReturnArrival _ _ _ _ credits => decide (credits < 2 ^ 32)
  | .packetForward _ packet => packet.wf
  | .reorderBackoffExpiry _ => true
  | .reorderContextExpiry _ _ => true
  | .dupRecordExpiry _ _ => true
  | .msgTimeoutResend _ => true
  | .msgTimeoutFinal _ => true
  | .detourStallExpiry _ => true
  | .meshLinkOut _ neighbour => decide (neighbour < 24)
  | .openerArrival _ packet => packet.wf
  | .collectiveDataArrival _ packet => packet.wf
  | .abortArrival _ packet => packet.wf
  | .collParkExpiry _ context _ => decide (context < 1024)
  | .collProgressTimeout context => decide (context < 1024)
  | .troyUpdate packet => packet.wf
  | .troyCommit packet => packet.wf
  | .ledgerSet packet => packet.wf
  | .troyProgramPut packet => packet.wf
  | .troyConstPut packet => packet.wf
  | .troyCommandStart _ => true
  | .troyCommandComplete _ => true
  | .commitBarrierRelease => true
  | .wcbTimeoutExpiry _ line => decide (line < 2 ^ 29)
  | .scrubRead _ line => decide (line < 2 ^ 29)
  | .xflDataFrame _ frame => frame.wf
  | .xflIdleFrame _ frame => frame.wf
  | .neighbourFrame _ frame _ => frame.wf
  | .stateFrame _ frame _ _ => frame.wf
  | .timeFrame _ frame _ => frame.wf
  | .xflAckTimeout _ => true
  | .linkDown _ => true
  | .linkRetrainHoldoffExpiry _ => true
  | .phyTrainDone _ => true
  | .xflSyncDone _ _ => true
  | .linkTrainTimeLimit _ => true
  | .stateFrameTimer _ => true
  | .neighbourFrameTimer _ => true
  | .timeSyncTimer => true
  | .fecSecond _ _ _ _ => true
  | .tableSeal => true
  | .tableFlip => true
  | .tableRetire => true
  | .tableUnseal => true
  | .chpHello _ payload => decide (payload.length < 65536)
  | .chpFinish _ payload => decide (payload.length < 65536)
  | .chpFinishTimeout session => decide (session < 64)
  | .chpClose _ => true
  | .ackOnly _ => true
  | .chpData _ payload => decide (payload.length < 65536)
  | .chpWrite _ _ => true
  | .chpRead _ _ => true
  | .dictRead _ _ => true
  | .dictWrite _ _ => true
  | .loadPrimary _ _ => true
  | .loadCompanion _ _ => true
  | .cmdqBind _ _ => true
  | .cmdqUnbind _ _ => true
  | .cmdPush _ _ payload => decide (payload.length < 65536)
  | .ringConfigEnable _ _ => true
  | .ringConfigDisable _ _ => true
  | .ringPut _ _ => true
  | .chpResetWarm _ _ => true
  | .chpResetCold _ _ => true
  | .recordStop _ _ => true
  | .recordStartWrapping _ _ => true
  | .recordStartStopFull _ _ => true
  | .recordClear _ _ => true
  | .chpReplay _ _ => true
  | .replayStop _ _ => true
  | .replayRecord => true
  | .chpAckDelayExpiry session => decide (session < 64)
  | .chpRtoExpiry session => decide (session < 64)
  | .chpRetxLimit session => decide (session < 64)
  | .chpIdleTimeout session => decide (session < 64)
  | .chpRateRaise session => decide (session < 64)
  | .arpRequest _ _ _ => true
  | .neighbourSolicitation _ _ _ => true
  | .icmpEcho _ _ _ frame => decide (frame.payload.length < 65536)
  | .ptpMessage _ _ => true
  | .ptpHoldover => true
  | .plcaBeacon _ _ => true
  | .chainTxHoldTimeout => true
  | .claimBackoffExpiry _ => true
  | .claimTimeout => true
  | .chainAssign _ _ => true
  | .assignWatchEnd => true
  | .strappedIdConflict => true
  | .ahmRead _ items => decide (items.length ≤ 1024)
  | .ahmWrite _ items => decide (items.length ≤ 1024)
  | .enumerate _ items => decide (items.length ≤ 1024)
  | .entryWrite _ _ _ => true
  | .dictStagingTimeout _ _ => true
  | .dictFlashStore _ _ => true
  | .jobStart => true
  | .jobStop => true
  | .dictFlashRestore _ => true
  | .portEnable _ _ => true
  | .portLinkMask _ _ => true
  | .portAxis _ _ => true
  | .portExpectSerial _ _ => true
  | .portExpectPort _ _ => true
  | .topoMode _ => true
  | .macsecSak _ => true
  | .failedMask _ _ => true
  | .locketWindowData => true
  | .hallmarkInstall _ => true
  | .hallmarkInstallDone => true
  | .hallmarkRemove _ => true
  | .hallmarkPieceTimeout _ => true
  | .signetNonce _ => true
  | .rollbackCommit _ => true
  | .fwUpdate _ => true
  | .fwUpdateDone _ => true
  | .fwStageData _ => true
  | .debugAuth _ _ => true
  | .debugLock _ => true
  | .engineWdtExpiry _ _ => true
  | .coreWdtExpiry _ => true
  | .heartbeatCheck missed => missed.all (fun u => decide (u < 100))
  | .engineReset _ _ _ => true
  | .coreReset _ _ => true
  | .clusterReset _ _ => true
  | .computeDieReset _ _ => true
  | .settingReset _ _ => true
  | .rimDieReset _ => true
  | .packageWarmReset _ => true
  | .coldInitialisation => true
  | .locketCaptureEnd _ => true
  | .locketAccessTimeout _ _ line => decide (line < 1216)
  | .resetComplete _ => true
  | .escalation _ => true
  | .prstNAssert => true
  | .packageStart _ _ _ _ => true
  | .pwrokFall => true
  | .pkgReady => true
  | .startupTimeout => true
  | .vinWarning _ => true
  | .vinRecovery _ => true
  | .vinPowerfail _ _ => true
  | .setpointUpdate _ _ => true
  | .pmbusPoll _ _ => true
  | .pmbusAlert _ readings => readings.all (fun r => decide (r.1 < 50))
  | .avsRead _ _ _ => true
  | .powerWindowEnd => true
  | .sensorSample readings => readings.all (fun r => decide (r.1 < 344))
  | .thermalStepDown unit => decide (unit < 312)
  | .thermalStepUp unit => decide (unit < 312)
  | .prochotInAssert => true
  | .prochotInRelease => true
  | .refclkLoss => true
  | .refclkReturn => true
  | .refclk156Loss _ => true
  | .xflCrcError _ frame => frame.wf
  | .firmwareVerificationEnd attempt => decide (attempt.seen.length = 4)
  | .refclk100LockTimeout => true
  | .quickCheckEnd _ => true
  | .hbmTrainingEnd _ _ _ => true
  | .swapptComplete _ => true

end Sys2Proof
end

