-- ==== Sys2Proof/Certificates/Slice0/Obligations.lean ====
section
/-!
DEFINITION. The statements for the provers.
-/
open Sys2Proof Sys2Proof.Machine

/-- A step runs the command at the front of the queue on the state with the queue's rest (00_scope.md, 95_what_each_step_holds.md). -/
def Obligations.StepRunsFrontCommand : Prop :=
  ∀ (c : Instr) (l : List Instr) (s : State),
    (s.pending = c :: l → step s = exec c { s with pending := l }) ∧
    (s.pending = [] → step s = .next s.idle ∧ (s.packageHeld = true → step s = .next s))

/-- The 26 ALU functions write the value of R49 to RD and change nothing else (R49, R50). -/
def Obligations.AluResults : Prop :=
  ∀ (core : CoreId) (p : Nat) (rd ra rb : Reg) (s : State), Runs s core p →
    let a := (s.core p).ctx.get ra
    let b := (s.core p).ctx.get rb
    let n := b.toNat % 64
    Writes (.add core rd ra rb) s p rd (a + b) ∧
    Writes (.sub core rd ra rb) s p rd (a - b) ∧
    Writes (.aluAnd core rd ra rb) s p rd (a &&& b) ∧
    Writes (.aluOr core rd ra rb) s p rd (a ||| b) ∧
    Writes (.aluXor core rd ra rb) s p rd (a ^^^ b) ∧
    Writes (.shl core rd ra rb) s p rd (a <<< n) ∧
    Writes (.shr core rd ra rb) s p rd (a >>> n) ∧
    Writes (.sra core rd ra rb) s p rd (a.sshiftRight n) ∧
    Writes (.rotl core rd ra rb) s p rd (a.rotateLeft n) ∧
    Writes (.slt core rd ra rb) s p rd (if a.slt b then 1 else 0) ∧
    Writes (.sltu core rd ra rb) s p rd (if a.ult b then 1 else 0) ∧
    Writes (.aluMin core rd ra rb) s p rd (if a.slt b then a else b) ∧
    Writes (.aluMax core rd ra rb) s p rd (if a.slt b then b else a) ∧
    Writes (.minu core rd ra rb) s p rd (if a.ult b then a else b) ∧
    Writes (.maxu core rd ra rb) s p rd (if a.ult b then b else a) ∧
    Writes (.mul core rd ra rb) s p rd (a * b) ∧
    Writes (.aluSel core rd ra rb) s p rd (if (s.core p).ctx.get rd ≠ 0 then a else b) ∧
    Writes (.mulh core rd ra rb) s p rd (BitVec.ofInt 64 (a.toInt * b.toInt / 2 ^ 64)) ∧
    Writes (.mulhu core rd ra rb) s p rd (BitVec.ofNat 64 (a.toNat * b.toNat / 2 ^ 64)) ∧
    Writes (.div core rd ra rb) s p rd (if b = 0 then BitVec.allOnes 64 else BitVec.ofInt 64 (a.toInt.tdiv b.toInt)) ∧
    Writes (.divu core rd ra rb) s p rd (if b = 0 then BitVec.allOnes 64 else BitVec.ofNat 64 (a.toNat / b.toNat)) ∧
    Writes (.rem core rd ra rb) s p rd (if b = 0 then a else BitVec.ofInt 64 (a.toInt.tmod b.toInt)) ∧
    Writes (.remu core rd ra rb) s p rd (if b = 0 then a else BitVec.ofNat 64 (a.toNat % b.toNat)) ∧
    Writes (.clz core rd ra rb) s p rd (BitVec.ofNat 64 ((List.range 64).takeWhile (fun i => !a.getLsbD (63 - i))).length) ∧
    Writes (.ctz core rd ra rb) s p rd (BitVec.ofNat 64 ((List.range 64).takeWhile (fun i => !a.getLsbD i)).length) ∧
    Writes (.popc core rd ra rb) s p rd (BitVec.ofNat 64 ((List.range 64).filter (fun i => a.getLsbD i)).length)

/-- MULH and MULHU hold the exact product above MUL, CLZ, CTZ and POPC count bits, and DIV, DIVU, REM and REMU follow R50 in every corner (R49, R50). -/
def Obligations.ArithmeticRules : Prop :=
  ∀ (core : CoreId) (p : Nat) (rd ra rb : Reg) (s : State), Runs s core p →
    let a := (s.core p).ctx.get ra
    let b := (s.core p).ctx.get rb
    (∃ h, Writes (.mulh core rd ra rb) s p rd h ∧ a.toInt * b.toInt = h.toInt * 2 ^ 64 + ((a * b).toNat : Int)) ∧
    (∃ u, Writes (.mulhu core rd ra rb) s p rd u ∧ a.toNat * b.toNat = u.toNat * 2 ^ 64 + (a * b).toNat) ∧
    (∃ l t : Nat,
      Writes (.clz core rd ra rb) s p rd (BitVec.ofNat 64 l) ∧ Writes (.ctz core rd ra rb) s p rd (BitVec.ofNat 64 t) ∧
      Writes (.popc core rd ra rb) s p rd (BitVec.ofNat 64 ((List.range 64).filter (fun i => a.getLsbD i)).length) ∧
      (a = 0 → l = 64 ∧ t = 64) ∧
      (a ≠ 0 → l < 64 ∧ a.getLsbD (63 - l) = true ∧ (∀ i, 63 - l < i → a.getLsbD i = false) ∧
        t < 64 ∧ a.getLsbD t = true ∧ ∀ i, i < t → a.getLsbD i = false)) ∧
    ∃ q r qu ru : Word,
      Writes (.div core rd ra rb) s p rd q ∧ Writes (.rem core rd ra rb) s p rd r ∧
      Writes (.divu core rd ra rb) s p rd qu ∧ Writes (.remu core rd ra rb) s p rd ru ∧
      (b = 0 → q = BitVec.allOnes 64 ∧ r = a ∧ qu = BitVec.allOnes 64 ∧ ru = a) ∧
      (a.toInt = -2 ^ 63 ∧ b.toInt = -1 → q = a ∧ r = 0) ∧
      (b ≠ 0 ∧ ¬ (a.toInt = -2 ^ 63 ∧ b.toInt = -1) →
        a.toInt = q.toInt * b.toInt + r.toInt ∧ r.toInt.natAbs < b.toInt.natAbs ∧
          (r.toInt = 0 ∨ (r.toInt < 0 ↔ a.toInt < 0))) ∧
      (b ≠ 0 → a.toNat = qu.toNat * b.toNat + ru.toNat ∧ ru.toNat < b.toNat)

/-- The immediate instructions, LUI and INSQ write the value of R48 and change nothing else (R48, R47). -/
def Obligations.ImmediateResults : Prop :=
  ∀ (core : CoreId) (p : Nat) (rd ra : Reg) (imm : BitVec 16) (amount : BitVec 6) (q : BitVec 2) (s : State), Runs s core p →
    let a := (s.core p).ctx.get ra
    let n := amount.toNat
    Writes (.addi core rd ra imm) s p rd (a + imm.signExtend 64) ∧
    Writes (.andi core rd ra imm) s p rd (a &&& imm.zeroExtend 64) ∧
    Writes (.ori core rd ra imm) s p rd (a ||| imm.zeroExtend 64) ∧
    Writes (.xori core rd ra imm) s p rd (a ^^^ imm.zeroExtend 64) ∧
    Writes (.slti core rd ra imm) s p rd (if a.slt (imm.signExtend 64) then 1 else 0) ∧
    Writes (.shiShl core rd ra amount) s p rd (a <<< n) ∧
    Writes (.shiShr core rd ra amount) s p rd (a >>> n) ∧
    Writes (.shiSra core rd ra amount) s p rd (a.sshiftRight n) ∧
    Writes (.shiRotl core rd ra amount) s p rd (a.rotateLeft n) ∧
    Writes (.lui core rd imm) s p rd (imm.signExtend 64 <<< 16) ∧
    ∃ v : Word, Writes (.insq core rd q imm) s p rd v ∧
      ∀ i, i < 64 → v.getLsbD i = if i / 16 = q.toNat then imm.getLsbD (i % 16) else ((s.core p).ctx.get rd).getLsbD i

/-- A load of a legal address writes the bytes there, extended; an illegal one is a CTU fault (R51, R55). -/
def Obligations.LoadsReadScratchpad : Prop :=
  ∀ (core : CoreId) (p : Nat) (rd ra : Reg) (imm : BitVec 16) (s : State), Runs s core p →
    let a := ((s.core p).ctx.get ra + imm.signExtend 64).toNat
    let byte := fun i => (s.core p).sp.read (a + i)
    let legal := fun n => a % n = 0 ∧ a < 0x200000
    let faults := fun c : Instr => ∃ t, exec c s = .next t ∧ CtuFaulted s t p 2 a
    (legal 1 → Writes (.lb core rd ra imm) s p rd ((byte 0).signExtend 64) ∧
      Writes (.lbu core rd ra imm) s p rd ((byte 0).zeroExtend 64)) ∧
    (legal 2 → Writes (.lh core rd ra imm) s p rd ((byte 1 ++ byte 0).signExtend 64) ∧
      Writes (.lhu core rd ra imm) s p rd ((byte 1 ++ byte 0).zeroExtend 64)) ∧
    (legal 4 → Writes (.lw core rd ra imm) s p rd ((byte 3 ++ byte 2 ++ byte 1 ++ byte 0).signExtend 64) ∧
      Writes (.lwu core rd ra imm) s p rd ((byte 3 ++ byte 2 ++ byte 1 ++ byte 0).zeroExtend 64)) ∧
    (legal 8 → Writes (.ld core rd ra imm) s p rd
      (byte 7 ++ byte 6 ++ byte 5 ++ byte 4 ++ byte 3 ++ byte 2 ++ byte 1 ++ byte 0)) ∧
    (¬ legal 1 → faults (.lb core rd ra imm) ∧ faults (.lbu core rd ra imm)) ∧
    (¬ legal 2 → faults (.lh core rd ra imm) ∧ faults (.lhu core rd ra imm)) ∧
    (¬ legal 4 → faults (.lw core rd ra imm) ∧ faults (.lwu core rd ra imm)) ∧
    (¬ legal 8 → faults (.ld core rd ra imm))

/-- A store to a legal address writes the low bytes there and nothing else; an illegal one is a CTU fault (R48, R51, R55). -/
def Obligations.StoresWriteScratchpad : Prop :=
  ∀ (core : CoreId) (p : Nat) (rd ra : Reg) (imm : BitVec 16) (s : State), Runs s core p → (s.core p).sp.wf = true →
    let a := ((s.core p).ctx.get ra + imm.signExtend 64).toNat
    let v := (s.core p).ctx.get rd
    let stores := fun (n : Nat) (c : Instr) =>
      if a % n = 0 ∧ a < 0x200000 then
        ∃ t, exec c s = .next t ∧ OnlyCore s t p ∧ RegsSame s t p ∧ (t.core p).ctx.pc = (s.core p).ctx.pc + 4 ∧
          t.core p = { (s.core p).setCtx (t.core p).ctx with sp := (t.core p).sp, crc := (t.core p).crc } ∧
          (∀ i, i < n → (t.core p).sp.read (a + i) = v.extractLsb' (8 * i) 8) ∧
          (∀ j, j < a ∨ a + n ≤ j → (t.core p).sp.read j = (s.core p).sp.read j)
      else ∃ t, exec c s = .next t ∧ CtuFaulted s t p 2 a
    stores 1 (.sb core rd ra imm) ∧ stores 2 (.sh core rd ra imm) ∧ stores 4 (.sw core rd ra imm) ∧ stores 8 (.sd core rd ra imm)

/-- Branches and jumps go where R48 says, and jumps write the link value (R48, R43). -/
def Obligations.BranchesAndJumps : Prop :=
  ∀ (core : CoreId) (p : Nat) (rd ra rb : Reg) (off imm : BitVec 16) (far : BitVec 21) (s : State), Runs s core p →
    let a := (s.core p).ctx.get ra
    let b := (s.core p).ctx.get rb
    let pc := (s.core p).ctx.pc
    let target := BitVec.ofInt 16 ((pc.toNat : Int) + 4 * off.toInt)
    let next := pc + 4
    let link := fun (c : Instr) (dst : BitVec 16) =>
      ∃ t, exec c s = .next t ∧ WentTo s t p dst ∧ RegIs s t p rd (BitVec.ofNat 64 ((pc.toNat + 4) % 65536))
    GoesTo (.beq core ra rb off) s p (if a = b then target else next) ∧
    GoesTo (.bne core ra rb off) s p (if a ≠ b then target else next) ∧
    GoesTo (.blt core ra rb off) s p (if a.slt b then target else next) ∧
    GoesTo (.bge core ra rb off) s p (if ¬ a.slt b then target else next) ∧
    GoesTo (.bltu core ra rb off) s p (if a.ult b then target else next) ∧
    GoesTo (.bgeu core ra rb off) s p (if ¬ a.ult b then target else next) ∧
    link (.jal core rd far) (BitVec.ofInt 16 ((pc.toNat : Int) + 4 * far.toInt)) ∧
    link (.jalr core rd ra imm) ((a + imm.signExtend 64).truncate 16 &&& 0xFFFC)

/-- PUSHD and PUSHDN copy the descriptor to the engine's queue; a full queue stalls PUSHD and makes PUSHDN write 1 (R58, R52, R55, R56, R246). -/
def Obligations.DescriptorPush : Prop :=
  ∀ (core : CoreId) (p : Nat) (rd ra : Reg) (e : BitVec 2) (s : State), Runs s core p →
    let k := s.core p
    let a := (k.ctx.get ra).toNat
    let n := if e = 1 then 128 else 64
    let legal := e ≠ 3 ∧ a % n = 0 ∧ a + n ≤ 0x200000
    let pushes := fun (c : Instr) (r : Reg) =>
      ∃ t, exec c s = .next t ∧ (∀ q, q ≠ p → t.core q = s.core q) ∧ (t.core p).sp = k.sp ∧
        (t.core p).ctx.pc = k.ctx.pc + 4 ∧ RegIs s t p r 0 ∧
        (∀ f, f < 3 → (t.core p).engine f =
          if f = e.toNat then { k.engine f with queue := (k.engine f).queue ++ [k.sp.num a n] } else k.engine f) ∧
        Counted s t (Key.descIssued (physCluster p)) 1
    let stays := k.onComp = false ∨ k.primaryEntry = false
    (legal ∧ (k.engine e.toNat).queue.length < 16 ∧ s.engineHeld p e.toNat = false →
      pushes (.pushd core e ra) 0 ∧ pushes (.pushdn core e rd ra) rd) ∧
    (legal ∧ 16 ≤ (k.engine e.toNat).queue.length →
      Writes (.pushdn core e rd ra) s p rd 1 ∧
      (stays → ∃ t, exec (.pushd core e ra) s = .next t ∧ (∀ q, q ≠ p → t.core q = s.core q) ∧ t.core p = k.setCtx (t.core p).ctx ∧
        (t.core p).ctx.st = .waiting ∧ (t.core p).ctx.pc = k.ctx.pc ∧ RegsSame s t p) ∧
      (¬ stays → ∃ t, exec (.pushd core e ra) s = .next t ∧ (t.core p).onComp = false ∧ (t.core p).companion.st = .waiting ∧
        (t.core p).companion.pc = k.companion.pc ∧ (t.core p).companion.regs = k.companion.regs)) ∧
    (¬ legal → (∃ t, exec (.pushd core e ra) s = .next t ∧ CtuFaulted s t p 6 a) ∧
      ∃ t, exec (.pushdn core e rd ra) s = .next t ∧ CtuFaulted s t p 6 a)

/-- A waiting context goes on at the tick after its wait has ended, a companion gives the control unit back, and a push to an engine under reset waits (R52, R58, R64, R246, R36). -/
def Obligations.StallsEnd : Prop :=
  (∀ (core : CoreId) (p : Nat) (s : State), Holds s core p → s.pending = [] → s.packageHeld = false → s.coreHeld p = false → s.hall.tests = [] →
    s.redundant = false → s.host.cmdqs = [] → s.waiting = [] → (∀ l, (s.link l).txq = []) →
    let k := s.core p
    let x := k.ctx
    let ends := fun v : Core => ∃ t, step s = .next t ∧ t.core p = v
    let onward := fun y : Ctx => { y with pc := y.pc + 4, st := .ready, stall := none }
    let decodes := fun y : Ctx => decodeCtu 0 (BitVec.ofNat 32 (k.ibuf.num (y.pc + 4).toNat 4)) ≠ none
    let stays := k.onComp = false ∨ k.primaryEntry = false
    x.st = .waiting →
      (∀ n tgt, x.stall = some (.sync n tgt) →
        let hit := ((k.ctr n.toNat : Int) - (tgt.toNat : Int)) % 2 ^ 32 < 2 ^ 31
        (hit → decodes x → ends (k.setCtx (onward x))) ∧ (¬ hit → stays → ends k)) ∧
      (∀ q rd b, x.stall = some (.queue q rd b) →
        (∀ a rest, (k.queue q.val).entries = a :: rest → decodes x → ends (k.setCtx (onward (x.set rd (BitVec.ofNat 64 a))))) ∧
        ((k.queue q.val).entries = [] → stays → ends k)) ∧
      (∀ e a, x.stall = some (.push e a) →
        let n := if e.val = 1 then 128 else 64
        ((k.engine e.val).queue.length < 16 → s.engineHeld p e.val = false → decodes x → ∃ t, step s = .next t ∧ (t.core p).ctx = onward x ∧
          (t.core p).sp = k.sp ∧ ∀ f, f < 3 → (t.core p).engine f =
            if f = e.val then { k.engine f with queue := (k.engine f).queue ++ [k.sp.num a n] } else k.engine f) ∧
        (16 ≤ (k.engine e.val).queue.length ∨ s.engineHeld p e.val = true → stays → ends k)) ∧
      (∀ w q rd b a rest, k.onComp = true → x.stall = some w → s.stallEnds p w = false → k.primary.stall = some (.queue q rd b) →
        (k.queue q.val).entries = a :: rest → decodes k.primary →
        ends { k with onComp := false, primary := onward (k.primary.set rd (BitVec.ofNat 64 a)) })) ∧
  ∀ (core : CoreId) (p : Nat) (rd ra : Reg) (e : BitVec 2) (s : State), Runs s core p →
    let k := s.core p
    let a := (k.ctx.get ra).toNat
    let n := if e = 1 then 128 else 64
    e ≠ 3 → a % n = 0 → a + n ≤ 0x200000 → (k.engine e.toNat).queue.length < 16 → s.engineHeld p e.toNat = true →
      Writes (.pushdn core e rd ra) s p rd 1 ∧
      (k.onComp = false ∨ k.primaryEntry = false → ∃ t, exec (.pushd core e ra) s = .next t ∧ (∀ q, q ≠ p → t.core q = s.core q) ∧
        t.core p = k.setCtx (t.core p).ctx ∧ (t.core p).ctx.st = .waiting ∧ (t.core p).ctx.pc = k.ctx.pc ∧ RegsSame s t p)

/-- SCWAIT, SCTEST, SCREAD, SCSET and SCADD act on the counter RA[7:0] as R52 says (R64, R52, R63). -/
def Obligations.SyncCounterOperations : Prop :=
  ∀ (core : CoreId) (p : Nat) (rd ra rb : Reg) (s : State), Runs s core p →
    let k := s.core p
    let n := (k.ctx.get ra).toNat % 256
    let c := k.ctr n
    let t : Nat := (k.ctx.get rb).toNat % 2 ^ 32
    let hit := ((c : Int) - (t : Int)) % 2 ^ 32 < 2 ^ 31
    let sets := fun (i : Instr) (v : Nat) =>
      ∃ u, exec i s = .next u ∧ OnlyCore s u p ∧ RegsSame s u p ∧ (u.core p).ctx.pc = k.ctx.pc + 4 ∧
        u.core p = { k.setCtx (u.core p).ctx with ctrs := (u.core p).ctrs } ∧
        ∀ m, (u.core p).ctr m = if m = n then v else k.ctr m
    Writes (.sctest core rd ra rb) s p rd (if hit then 1 else 0) ∧
    Writes (.scread core rd ra) s p rd (BitVec.ofNat 64 c) ∧
    (hit → GoesTo (.scwait core ra rb) s p (k.ctx.pc + 4)) ∧
    (¬ hit → k.onComp = false ∨ k.primaryEntry = false →
      Stalls (.scwait core ra rb) s p .waiting (.sync (BitVec.ofNat 8 n) (BitVec.ofNat 32 t))) ∧
    (¬ hit → k.onComp = true → k.primaryEntry = true → ∃ u, exec (.scwait core ra rb) s = .next u ∧ (u.core p).onComp = false ∧
      (u.core p).companion = { k.companion with st := .waiting, stall := some (.sync (BitVec.ofNat 8 n) (BitVec.ofNat 32 t)) }) ∧
    sets (.scset core ra rb) t ∧
    sets (.scadd core ra rb) ((c + t) % 2 ^ 32)

/-- QWAIT, QPEEK, QREL, QSTAT and QCFG act on the queue that RA names and grant and return its credits; an index above 16 and bad operands are CTU faults (R52, R53, R55, R83, R84, R87, R90). -/
def Obligations.QueueOperations : Prop :=
  ∀ (core : CoreId) (p : Nat) (rd ra rb : Reg) (s : State), Runs s core p →
    let k := s.core p
    let q := (k.ctx.get ra).toNat
    let old := k.queue q
    let es := old.entries
    let n := (k.ctx.get rb).toNat % 2 ^ 13
    let a := (k.ctx.get rb).toNat
    let blk := k.sp.num a 16
    let ok := q ≤ 16 ∧ a % 16 = 0 ∧ a + 16 ≤ 0x200000
    let faults := fun i cause detail => ∃ t, exec i s = .next t ∧ CtuFaulted s t p cause detail
    let ownHost := fun (x : Queue) => x.srcNode = s.node ∧ x.srcEp = 0x2300
    let done := fun (i : Instr) (x : Queue) (post : State → Prop) => ∃ t, exec i s = .next t ∧ (∀ c, c ≠ p → t.core c = s.core c) ∧
      (t.core p).queue q = x ∧ (∀ j, j ≠ q → (t.core p).queue j = k.queue j) ∧ (t.core p).sp = k.sp ∧
      (t.core p).ctx.pc = k.ctx.pc + 4 ∧ RegsSame s t p ∧ t.dict = s.dict ∧ post t
    let quiet := fun t : State => t.out = s.out ∧ t.host = s.host
    let onHost := fun (t : State) (f : CmdQueue → Option (Nat × Nat × Nat)) => t.out = s.out ∧
      t.host.cmdqs = s.host.cmdqs.map (fun y => if y.2.channel = q then (y.1, { y.2 with credits := f y.2 }) else y)
    let enabled : Queue := { old with mode := fld blk 36 2, base := fld blk 0 21, slotLog2 := fld blk 24 5, countLog2 := fld blk 32 4,
                                      event := bit blk 38, srcNode := fld blk 64 32, srcEp := fld blk 96 16, next := 0 }
    let slots := 2 ^ enabled.countLog2
    let payload := 2 ^ enabled.slotLog2 - 16
    (q ≤ 16 →
      Writes (.qpeek core rd ra) s p rd (match es with | [] => BitVec.allOnes 64 | a :: _ => BitVec.ofNat 64 a) ∧
      (∀ a as, es = a :: as → Writes (.qwait core rd ra) s p rd (BitVec.ofNat 64 a)) ∧
      (es = [] → k.onComp = false ∨ k.primaryEntry = false → ∃ t, exec (.qwait core rd ra) s = .next t ∧ OnlyCtx s t p ∧
        (t.core p).ctx.st = .waiting ∧ (t.core p).ctx.pc = k.ctx.pc ∧ RegsSame s t p) ∧
      (es = [] → k.onComp = true → k.primaryEntry = true → ∃ t, exec (.qwait core rd ra) s = .next t ∧ (t.core p).onComp = false ∧
        (t.core p).companion.st = .waiting ∧ (t.core p).companion.pc = k.companion.pc) ∧
      Writes (.qstat core rd ra) s p rd (BitVec.ofNat 64 (es.length + 2 ^ 16 * old.claimed.length + 2 ^ 32 * old.mode)) ∧
      (n ≤ es.length → done (.qrel core ra rb) { old with entries := es.drop n } fun t =>
        (old.mode ≠ 2 → quiet t) ∧
        (old.mode = 2 → ¬ ownHost old → t.host = s.host ∧
          t.out = s.out ++ [.creditReturn old.srcNode old.srcEp core.toNat q n]) ∧
        (old.mode = 2 → ownHost old → onHost t fun y => match y.credits with
          | some (c, m, w) => if c = core.toNat then some (c, m + n, w) else y.credits
          | none => none)) ∧
      (es.length < n → faults (.qrel core ra rb) 7 n)) ∧
    (16 < q → faults (.qpeek core rd ra) 3 q ∧ faults (.qwait core rd ra) 3 q ∧ faults (.qstat core rd ra) 3 q ∧
      faults (.qrel core ra rb) 3 q ∧ faults (.qcfg core ra rb) 3 q) ∧
    (ok ∧ fld blk 36 2 = 0 → done (.qcfg core ra rb) { old with mode := 0 } quiet) ∧
    (ok ∧ fld blk 36 2 ≠ 0 ∧ old.mode = 0 ∧ qcfgValid q blk = true →
      done (.qcfg core ra rb) enabled fun t =>
        (enabled.mode ≠ 2 → quiet t) ∧
        (enabled.mode = 2 → ¬ ownHost enabled → t.host = s.host ∧
          t.out = s.out ++ [.grant enabled.srcNode enabled.srcEp core.toNat q slots payload]) ∧
        (enabled.mode = 2 → ownHost enabled → onHost t fun _ => some (core.toNat, slots, payload))) ∧
    (ok ∧ fld blk 36 2 ≠ 0 ∧ (old.mode ≠ 0 ∨ qcfgValid q blk = false) → faults (.qcfg core ra rb) 4 a) ∧
    (q ≤ 16 ∧ ¬ ok → faults (.qcfg core ra rb) 2 a)

/-- HALT halts at its instruction; YIELD, FTIME, CTXID, COREID and CYCLES give what R52 says (R45, R52, R246). -/
def Obligations.HaltYieldAndIdentity : Prop :=
  ∀ (core : CoreId) (p : Nat) (rd : Reg) (s : State), Runs s core p →
    let k := s.core p
    (∃ t, exec (.halt core) s = .next t ∧ OnlyCore s t p ∧ (t.core p).onComp = false ∧
      (if k.onComp then (t.core p).companion else (t.core p).primary) = { k.ctx with st := .halted, stall := none } ∧
      (t.core p).sp = k.sp) ∧
    (k.onComp = false → GoesTo (.ctuYield core) s p (k.ctx.pc + 4)) ∧
    (k.onComp = true → k.primaryEntry = false → GoesTo (.ctuYield core) s p (k.ctx.pc + 4)) ∧
    (k.onComp = true → k.primaryEntry = true → ∃ t, exec (.ctuYield core) s = .next t ∧ (t.core p).onComp = false ∧
      (t.core p).companion = { k.companion with pc := k.companion.pc + 4 }) ∧
    Writes (.ftime core rd) s p rd (BitVec.ofNat 64 s.ftime) ∧
    Writes (.ctxid core rd) s p rd (if k.onComp then 1 else 0) ∧
    Writes (.coreid core rd) s p rd (BitVec.ofNat 64 (2 ^ 32 * s.node + core.toNat)) ∧
    ∃ t, exec (.cycles core rd) s = .next t ∧ RegIs s t p rd (BitVec.ofNat 64 (t.core p).cycles) ∧
      (t.core p).ctx.pc = k.ctx.pc + 4 ∧ (t.core p).sp = k.sp ∧ t.dict = s.dict

/-- IFILL stalls its context until the copy is complete; the copy then holds the scratchpad bytes (R46, R52, R55). -/
def Obligations.InstructionBufferFill : Prop :=
  (∀ (core : CoreId) (p : Nat) (rd ra rb : Reg) (s : State), Runs s core p →
    let x := (s.core p).ctx
    let src := (x.get ra).toNat
    let len := (x.get rb).toNat
    let dst := (x.get rd).toNat
    let ok := src + len ≤ 0x200000 ∧ dst + len ≤ 0x10000 ∧ len % 4 = 0
    (ok → Stalls (.ifill core rd ra rb) s p x.st (.ifill src len dst)) ∧
    (¬ ok → ∃ t, exec (.ifill core rd ra rb) s = .next t ∧ CtuFaulted s t p 5 src)) ∧
  (∀ (core : CoreId) (p src len dst : Nat) (s : State), Holds s core p → (s.core p).ctx.stall = some (.ifill src len dst) →
    (s.core p).ibuf.wf = true →
    ∃ t, exec (.ifillComplete core) s = .next t ∧ OnlyCore s t p ∧ RegsSame s t p ∧ (t.core p).sp = (s.core p).sp ∧
      (t.core p).ctx.stall = none ∧ (t.core p).ctx.pc = (s.core p).ctx.pc + 4 ∧
      (∀ i, i < len → (t.core p).ibuf.read (dst + i) = (s.core p).sp.read (src + i)) ∧
      (∀ j, j < dst ∨ dst + len ≤ j → (t.core p).ibuf.read j = (s.core p).ibuf.read j))

/-- DRD stalls its context until the value returns; a read of no entry gives 0 and counts (R54, R52). -/
def Obligations.DictionaryReadsByPrograms : Prop :=
  (∀ (core : CoreId) (p : Nat) (rd ra : Reg) (s : State), Runs s core p →
    let v := ((s.core p).ctx.get ra).toNat
    Stalls (.drd core rd ra) s p (s.core p).ctx.st (.drd (v / 256 % 65536) (v % 256) rd)) ∧
  (∀ (core : CoreId) (p index sub : Nat) (rd : Reg) (s : State), Holds s core p → s.coreHeld p = false → s.leadAnswers = true →
    (s.core p).ctx.stall = some (.drd index sub rd) →
    ∃ t, exec (.drdResult core) s = .next t ∧ (t.core p).ctx.pc = (s.core p).ctx.pc + 4 ∧ (t.core p).ctx.st = .ready ∧
      (t.core p).ctx.stall = none ∧ (∀ q, q ≠ p → t.core q = s.core q) ∧ (t.core p).sp = (s.core p).sp ∧
      (let refused := fun r : EntryRow => r.access = 2 ∨ r.ty = 7 ∨ r.ty = 8
       (∀ r, s.entryRow index sub = some r → ¬ refused r →
        let v := s.entryNat r (index - r.index) (sub - r.sub) % 256 ^ r.size
        RegIs s t p rd (if r.ty = 4 then (BitVec.ofNat 32 v).signExtend 64 else BitVec.ofNat 64 v) ∧ t.dict = s.dict) ∧
       ((∀ r, s.entryRow index sub = some r → refused r) → RegIs s t p rd 0 ∧ Counted s t Key.drdRefused 1)))

/-- SWAPPT writes 0 in the companion and where no test of the core is due, and a due test of a quiescent core with a free spare begins a swap (R503, R506, R507, R508, R509). -/
def Obligations.SwapPointDecisions : Prop :=
  ∀ (core : CoreId) (p : Nat) (rd ra : Reg) (s : State),
    let k := s.core p
    let n := physCluster p
    (Runs s core p →
    let step := ((s.core p).ctx.get ra).toNat % 2 ^ 32
    let ns := s.lockstepOf n
    let s' := ns.foldl (fun s m => s.swapPoint m step) s
    let mine := fun (m : Nat) => s'.testDue m = true ∧ ∃ q, s'.testTarget m = some q ∧ s'.isSpare m q = false ∧ s'.copyIn p m = some (17 * m + q)
    let due := (∃ m ∈ ns, mine m) ∧ ∀ m ∈ ns, s'.testDue m = true → mine m
    let goesOn := fun (t : State) (v : Word) => (t.core p).ctx.pc = (s.core p).ctx.pc + 4 ∧ (t.core p).sp = (s.core p).sp ∧
      ∀ r, (t.core p).ctx.get r = if r = rd ∧ r ≠ 0 then v else (s.core p).ctx.get r
    ((s.core p).onComp = true → Writes (.swappt core rd ra) s p rd 0) ∧
    ((s.core p).onComp = false →
      ((∀ m ∈ ns, ¬ mine m) → ∃ t, exec (.swappt core rd ra) s = .next t ∧ goesOn t 0) ∧
      (due ∧ s'.quiescent p = false → ∃ t, exec (.swappt core rd ra) s = .next t ∧ goesOn t 2 ∧
        ∀ m ∈ ns, mine m → Counted s' t (Key.swapNotQuiescent m) 1) ∧
      (due ∧ s'.quiescent p = true ∧ (∃ m ∈ ns, s'.freeSpares m = []) → ∃ t, exec (.swappt core rd ra) s = .next t ∧ goesOn t 3 ∧
        ∀ m ∈ ns, mine m → Counted s' t (Key.testsDeferredNoSpare m) 1) ∧
      (due ∧ s'.quiescent p = true ∧ (∀ m ∈ ns, s'.freeSpares m ≠ []) → ∃ t, exec (.swappt core rd ra) s = .next t ∧
        (t.core p).ctx.stall = some (.swap rd) ∧ (t.core p).ctx.pc = (s.core p).ctx.pc ∧
        ∃ k ∈ s'.freeSpares n, ∃ w ∈ t.swaps, w.cluster = n ∧ w.fromPhy = p ∧ w.toPhy = 17 * n + k ∧
          (ns = [n] → w.copy = none) ∧
          (ns = [n, n + 1] → ∀ f, s'.copyIn p (n + 1) = some f → ∃ j ∈ s'.freeSpares (n + 1), w.copy = some (f, 17 * (n + 1) + j))))) ∧
    (∀ w : Swap, Holds s core p → k.ctx.stall = some (.swap rd) → s.swaps = [w] → w.fromPhy = p → w.cluster = n → coreCluster core.toNat = n →
      w.toPhy / 17 = n → w.toPhy ≠ p → (∀ f c, w.copy = some (f, c) → f / 17 = n + 1 ∧ c / 17 = n + 1) → w.waiting = [] →
      s.hall.slots = [] → s.coreHeld p = false →
      ∃ t, exec (.swapptComplete core) s = .next t ∧ t.physOf core.toNat = some w.toPhy ∧ t.swaps = [] ∧ Counted s t (Key.swaps n) 1 ∧
        (let y := t.core w.toPhy
         y.sp = k.sp ∧ y.ibuf = k.ibuf ∧ y.ctrs = k.ctrs ∧ y.queues = k.queues ∧ y.credits = k.credits ∧ y.ctx.pc = k.ctx.pc + 4 ∧
         y.ctx.stall = none ∧ ∀ r, y.ctx.get r = if r = rd ∧ r ≠ 0 then 1 else k.ctx.get r) ∧
        (∀ f c, w.copy = some (f, c) → t.core c = t.core w.toPhy ∧ Counted s t (Key.swaps (n + 1)) 1) ∧
        ∀ q, q ≠ w.toPhy → w.copy.all (fun c => c.2 != q) = true → t.core q = s.core q) ∧
    (Holds s core p → k.ctx.stall = none → exec (.swapptComplete core) s = .next s)

/-- The matrix engine starts MMA, COMBINE, DRAIN and CLEAR in queue order, stops on a refused one, and changes no memory before completion (R59, R61, R97, R102, R125). -/
def Obligations.MatrixDescriptorsStart : Prop :=
  ∀ (core : CoreId) (p d : Nat) (s : State),
    let x := MxeD.of d
    let k := s.core p
    (Starts s core p 0 1 d → (x.refusal 1 k = none → ∃ t, StartsOn (.mma core) s t p 0 d) ∧
      (∀ n, x.refusal 1 k = some n → StopsEngine (.mma core) s p 0 n d)) ∧
    (Starts s core p 0 2 d → (x.refusal 2 k = none → ∃ t, StartsOn (.mxeCombine core) s t p 0 d) ∧
      (∀ n, x.refusal 2 k = some n → StopsEngine (.mxeCombine core) s p 0 n d)) ∧
    (Starts s core p 0 3 d → (x.refusal 3 k = none → ∃ t, StartsOn (.mxeDrain core) s t p 0 d ∧ ∀ b, (t.core p).bank b = k.bank b) ∧
      (∀ n, x.refusal 3 k = some n → StopsEngine (.mxeDrain core) s p 0 n d)) ∧
    (Starts s core p 0 4 d → (bankOk x.block x.bank = true → ∃ t, StartsOn (.mxeClear core) s t p 0 d ∧
        ∀ b, (t.core p).bank b = if b ∈ x.banks then { kind := .empty, closed := false, fmt := 0, entries := [] } else k.bank b) ∧
      (bankOk x.block x.bank = false → StopsEngine (.mxeClear core) s p 0 2 d))

/-- MMA, COMBINE and DRAIN leave in the banks and in their output the values of the accumulation rules (R96, R103, R107, R108, R109, R110, R111, R112, R117, R164). -/
def Obligations.MatrixArithmetic : Prop :=
  ∀ (core : CoreId) (p d : Nat) (s : State),
    let x := MxeD.of d
    let k := s.core p
    let m := k.sp
    let old := fun r c => (k.bank x.bank).entry (32 * r + c)
    let leaves := fun (op : Nat) (i : Instr) (kind : BankKind) (e : Nat → Nat → Option (Int × Nat)) =>
      Starts s core p 0 op d → x.refusal op k = none → x.block = 0 → x.aTrans = false → x.bTrans = false →
      x.aReuse = false → x.bReuse = false →
      ∃ t, exec i s = .next t ∧ ((t.core p).bank x.bank).kind = kind ∧
        ∀ r c v, r < 64 → c < 32 → e r c = some v → ((t.core p).bank x.bank).entries[32 * r + c]? = some v
    let row := fun (f addr stride n : Nat) => (List.range x.kLen).map (fun j =>
      opValue f (m.bits (8 * (addr + 32 * stride * n) + j * opBits f) (opBits f)))
    let raw := fun (n r c : Nat) => m.num (x.aAddr + 32 * x.aStride * r + n * c) n
    (x.accInit = true → x.aFmt = 7 → x.bFmt = 7 → leaves 1 (.mma core) .exact fun r c =>
      some (2 ^ 32 * ((List.range x.kLen).map (fun j =>
        (m.read (x.aAddr + 32 * x.aStride * r + j)).toInt * (m.read (x.bAddr + 32 * x.bStride * c + j)).toInt)).sum, 0)) ∧
    (x.accInit = true → x.aFmt ≤ 2 → x.bFmt = x.aFmt → leaves 1 (.mma core) .fp32 fun r c =>
      let pairs := (row x.aFmt x.aAddr x.aStride r).zip (row x.aFmt x.bAddr x.bStride c)
      let grain := fun g => rna32 (treeSum (((pairs.drop (32 * g)).take 32).map (fun y => y.1.mul y.2)))
      some ((fp32 (foldGrains (ofFp32 0) ((List.range ((x.kLen + 31) / 32)).map grain)) : Nat), 0)) ∧
    (x.aFmt = 0 → leaves 2 (.mxeCombine core) .fp32 fun r c =>
      some ((if x.accInit then raw 4 r c else fp32 (add32 (ofFp32 (old r c).1.toNat) (ofFp32 (raw 4 r c))) : Nat), 0)) ∧
    (x.aFmt = 7 → leaves 2 (.mxeCombine core) .exact fun r c =>
      let v := (BitVec.ofNat 128 (raw 16 r c)).toInt
      let sum := if x.accInit then v else (old r c).1 + v
      if (-2 ^ 95 ≤ v ∧ v < 2 ^ 95) ∧ (-2 ^ 95 ≤ sum ∧ sum < 2 ^ 95) ∧ (x.accInit = true ∨ (old r c).2 = 0) then some (sum, 0) else none) ∧
    (Starts s core p 0 3 d → x.refusal 3 k = none → x.block = 0 → x.outPath = 1 → x.outFmt = 0 → x.outTrans = false →
      x.aCtx = 0xFF → x.bCtx = 0xFF → x.outCtx = 0xFF →
      ∃ t y, exec (.mxeDrain core) s = .next t ∧ (t.core p).mxe.started = k.mxe.started ++ [y] ∧
        (∀ r c, r < 64 → c < 32 → (x.outAddr + 32 * x.outStride * r + 4 * c,
          leBytes 4 (fp32 (entryValue (k.bank x.bank).kind (old r c)))) ∈ y.writes) ∧
        (x.sideGran = 0 → y.writes.length = 2048))

/-- A matrix or Filigree descriptor completes in queue order: writes visible, scale context updated, DONE_CTR incremented, event records posted (R57, R59, R88, R89, R125, R154, R156). -/
def Obligations.CompletionMakesOutputVisible : Prop :=
  ∀ (core : CoreId) (p : Nat) (e : Fin 2) (x : Started) (rest : List Started) (s : State), Holds s core p →
    s.engineHeld p e.val = false → ((s.core p).engine e.val).started = x :: rest →
    let n := physCluster p
    (∀ k ∈ x.counts, k.1.key ∉ [(Key.eventDrops n).key, (Key.ctxSaturations n).key, (Key.satEvents n).key]) →
    let k := s.core p
    let visible := x.writes.foldl (fun m w => m.writeN w.1 w.2) k.sp
    let written := s.updCore p (fun c => { c with sp := visible })
    let completes := fun (post : State → Prop) => ∃ t,
      exec (if e = 0 then .mxeDescComplete core else .fgeDescComplete core) s = .next t ∧
      ((t.core p).engine e.val).started = rest ∧ ((t.core p).engine e.val).queue = (k.engine e.val).queue ∧ DoneCounted s t p x.desc ∧
      (t.core p).primary = k.primary ∧ (t.core p).companion = k.companion ∧ (∀ q, q ≠ p → t.core q = s.core q) ∧ post t
    (x.ctxUps = [] → bit x.desc 66 = false → completes fun t => (t.core p).sp = visible ∧ (t.core p).scales = k.scales) ∧
    (x.ctxUps = [] → bit x.desc 66 = true → completes fun t => (t.core p).scales = k.scales ∧
      EventPosted written t p 1 (e.val + 2) 0 (dTag x.desc) (fld x.desc 0 64) ((t.core p).ctr (fld x.desc 8 8))) ∧
    (∀ ctx mag sats step, x.ctxUps = [(ctx, mag, sats, step)] → bit x.desc 66 = false →
      let c := k.scale ctx
      let n' := min (c.satCount + sats) (2 ^ 32 - 1)
      let crosses := c.satThresh ≠ 0 ∧ c.satCount < c.satThresh ∧ c.satThresh ≤ n'
      completes fun t =>
        (t.core p).scale ctx = { c with amaxCur := maxPattern c.amaxCur mag, satCount := n' } ∧
        (∀ j, j ≠ ctx → (t.core p).scale j = k.scale j) ∧ Counted s t (Key.ctxSaturations n) sats ∧
        (¬ crosses → (t.core p).sp = visible) ∧
        (crosses → Counted s t (Key.satEvents n) 1 ∧
          EventPosted written t p 5 (e.val + 2) ctx (dTag x.desc) n' (step + 2 ^ 32 * c.satThresh)))

/-- The Filigree engine starts STREAM, COMPRESS and EXPAND with the output of the chain, the selection or the list, and stops on a refused one (R189, R193, R198, R200, R204, R210, R215, R216, R219, R221). -/
def Obligations.FiligreeDescriptorsStart : Prop :=
  ∀ (core : CoreId) (p d : Nat) (s : State),
    let x := FgeD.of d
    let good := x.legal (s.core p) = true ∧ x.rangesOk = true
    let rule := fun (op : Nat) (c : Instr) => Starts s core p 1 op d →
      (good → ∃ t, StartsOn c s t p 1 d) ∧
      (x.legal (s.core p) = false → StopsEngine c s p 1 2 d) ∧
      (x.legal (s.core p) = true → x.rangesOk = false → StopsEngine c s p 1 3 d)
    let m := (s.core p).sp
    let elem := fun (k i : Nat) => m.num ((x.inp k).addr + 4 * i) 4
    let out := fun (i v : Nat) => (x.out0.addr + 4 * i, leBytes 4 v)
    let writes := fun (op : Nat) (c : Instr) (ws : List (Nat × List Byte)) => Starts s core p 1 op d → good →
      ∃ t y, exec c s = .next t ∧ (t.core p).fge.started = (s.core p).fge.started ++ [y] ∧ y.writes = ws
    let plain := fun f : Nat => (x.inp 0).fmt = f ∧ (x.inp 0).adv = 0 ∧ x.out0.fmt = f ∧ (x.inp 0).ctx = 0xFF ∧ x.out0.ctx = 0xFF ∧ x.src1 = 31
    let second := fun f : Nat => (x.inp 1).fmt = f ∧ (x.inp 1).adv = 0 ∧ (x.inp 1).ctx = 0xFF
    let oneStage := fun (w : StageW) => x.stages = [w] ∧ w.a = 0 ∧ w.b = 1 ∧ x.src0 = 8 ∧ x.red0 = 0 ∧ x.mask = 31
    let selected := fun i => decide (elem 1 i ≠ 0)
    let rank := fun i => ((List.range i).filter selected).length
    let taken := (List.range x.count).filter (fun i => selected i && decide (rank i < x.rowLen))
    rule 1 (.fgeStream core) ∧ rule 2 (.fgeCompress core) ∧ rule 3 (.fgeExpand core) ∧
    (∀ w, oneStage w → plain 8 → second 8 → ∀ f : Nat → Nat → Nat,
      (w.op = 0x20 ∧ f = (fun a b => (a + b) % 2 ^ 32) ∨ w.op = 0x21 ∧ f = (fun a b => (a + 2 ^ 32 - b) % 2 ^ 32)
        ∨ w.op = 0x22 ∧ f = (fun a b => a * b % 2 ^ 32) ∨ w.op = 0x26 ∧ f = (fun a b => a &&& b)
        ∨ w.op = 0x27 ∧ f = (fun a b => a ||| b) ∨ w.op = 0x28 ∧ f = (fun a b => a ^^^ b)) →
      writes 1 (.fgeStream core) ((List.range x.count).map (fun i => out i (f (elem 0 i) (elem 1 i))))) ∧
    (∀ w, oneStage w → plain 0 → second 0 → x.grad = false → ∀ f : Machine.Num → Machine.Num → Machine.Num,
      (w.op = 1 ∧ f = Machine.Num.add ∨ w.op = 2 ∧ f = Machine.Num.sub ∨
          w.op = 3 ∧ f = Machine.Num.mul ∨ w.op = 5 ∧ f = Machine.Num.div) →
      writes 1 (.fgeStream core) ((List.range x.count).map (fun i =>
        out i (fp32 (rna32 (f (ofFp32 (elem 0 i)) (ofFp32 (elem 1 i)))))))) ∧
    (x.stages = [] → plain 8 → x.src0 = 0 → x.red0 = 1 → x.mask = 31 → x.rowLen = 0 →
      writes 1 (.fgeStream core) [out 0 (((List.range x.count).map (elem 0)).sum % 2 ^ 32)]) ∧
    (x.stages = [] → (x.inp 0).fmt = 8 → (x.inp 0).adv = 0 → x.out0.fmt = 8 → second 8 → x.mask = 1 → x.keys = 0 →
      (x.src0 = 0 → writes 2 (.fgeCompress core) (taken.map (fun i => out (rank i) (elem 0 i))
        ++ [(x.out1.addr, leBytes 4 ((List.range x.count).filter selected).length)])) ∧
      writes 3 (.fgeExpand core) (taken.map (fun i => out i (elem 0 (rank i)))))

/-- CTX_LOAD, CTX_STORE, CTX_ROLL and SET_STEP act on the scale context or the rounding step they name (R151, R153, R146, R218, R219). -/
def Obligations.ScaleContextDescriptors : Prop :=
  ∀ (core : CoreId) (p d : Nat) (s : State),
    let k := s.core p
    let r := streamAt d 352
    let rec1 := k.sp.num r.addr 128
    let alone := fun t : State => ∃ x, ((t.core p).engine 1).started = (k.engine 1).started ++ [x] ∧ x.alone = true ∧ x.desc = d
    (Starts s core p 1 0x0B d → ∃ t, StartsOn (.setStep core) s t p 1 d ∧ (t.core p).rstep = fld d 576 32 ∧ alone t) ∧
    (Starts s core p 1 0x0A d →
      (r.ctx < 64 → ∃ t, StartsOn (.ctxRoll core) s t p 1 d ∧ (t.core p).scale r.ctx = (k.scale r.ctx).roll.1 ∧ alone t ∧
        ∀ j, j ≠ r.ctx → (t.core p).scale j = k.scale j) ∧ (64 ≤ r.ctx → StopsEngine (.ctxRoll core) s p 1 2 d)) ∧
    (Starts s core p 1 8 d →
      let good := r.ctx < 64 ∧ blockOk r.addr 128 = true ∧ (bit rec1 0 = false ∨ (scaleOfRecord rec1).legal = true)
      (good → ∃ t, StartsOn (.ctxLoad core) s t p 1 d ∧ (t.core p).scale r.ctx = scaleOfRecord rec1 ∧ alone t ∧
        ∀ j, j ≠ r.ctx → (t.core p).scale j = k.scale j) ∧
      (¬ good → StopsEngine (.ctxLoad core) s p 1 (if r.ctx < 64 ∧ blockOk r.addr 128 = false then 3 else 2) d)) ∧
    (Starts s core p 1 9 d →
      let good := r.ctx < 64 ∧ blockOk r.addr 128 = true
      (good → ∃ t, StartsOn (.ctxStore core) s t p 1 d ∧ alone t ∧ (∀ j, (t.core p).scale j = k.scale j) ∧
        ∃ x, ((t.core p).engine 1).started = (k.engine 1).started ++ [x] ∧ x.writes = [(r.addr, leBytes 128 (k.scale r.ctx).record)]) ∧
      (¬ good → StopsEngine (.ctxStore core) s p 1 (if r.ctx < 64 then 3 else 2) d))

/-- The matrix engine takes the next deferred descriptor, and the control unit switches to the companion, under R239 and R245 (R44, R239, R245). -/
def Obligations.DeferralAndBackfill : Prop :=
  ∀ (core : CoreId) (p : Nat) (s : State), Holds s core p →
    let k := s.core p
    let head := s.get Key.deferHeadCtr
    let d := k.sp.num (s.get Key.deferRingAddr + k.ctr head % 2 ^ s.get Key.deferRingLog2 * 64) 64
    (s.get Key.deferEnable ≠ 0 → s.engineHeld p 0 = false → k.mxe.queue = [] → (∀ w ∈ s.swaps, w.fromPhy ≠ p) →
      reached (k.ctr (s.get Key.deferTailCtr)) (k.ctr head + 1) = true → k.gateOk d = true →
      ∃ t, exec (.deferTake core) s = .next t ∧ (t.core p).mxe = { k.mxe with queue := [d] } ∧
        (∀ n, (t.core p).ctr n = if n = head then (k.ctr n + 1) % 2 ^ 32 else k.ctr n) ∧ (t.core p).sp = k.sp ∧
        (t.core p).primary = k.primary ∧ (t.core p).companion = k.companion ∧ (∀ q, q ≠ p → t.core q = s.core q) ∧
        Counted s t (Key.deferTaken (physCluster p)) 1 ∧ Counted s t (Key.descIssued (physCluster p)) 1) ∧
    (∀ (since : Nat) (q : Fin 17) (rd : Reg), s.coreHeld p = false → k.primary.stall = some (.queue q rd since) → k.onComp = false →
      q.val < 16 → (k.queue q.val).entries = [] → (k.companion.st = .ready ∨ k.companion.st = .waiting) →
      s.get Key.backfillEnable ≠ 0 → s.get Key.companionPartition ≠ 0 → bit (s.get Key.pipeChannelMask) q.val = true →
      s.get Key.backfillThreshold ≤ s.ftime - since →
      ∃ t, exec (.backfillSwitch core) s = .next t ∧ (∀ c, c ≠ p → t.core c = s.core c) ∧
        t.core p = { k with onComp := true } ∧ Counted s t (Key.backfillSwitches (physCluster p)) 1)

/-- PUT, GET, SEND, COPY, SIGNAL and GATHER of an idle message engine put one message under way; a refused one stops it (R73, R74, R75, R76, R86, R87, R265, R285, R383). -/
def Obligations.MessageDescriptorsStart : Prop :=
  ∀ (core : CoreId) (p d op : Nat) (c : Instr) (s : State), Starts s core p 2 op d →
    (op = 1 ∧ c = .msePut core ∨ op = 2 ∧ c = .mseGet core ∨ op = 3 ∧ c = .mseSend core ∨ op = 4 ∧ c = .mseCopy core
      ∨ op = 5 ∧ c = .mseSignal core ∨ op = 0x20 ∧ c = .mseGather core) →
    let k := s.core p
    let cause := if op = 0x20 then s.gatherCause d else s.generalCause d op
    let node := if op = 0x20 then fld d 224 32 else s.mNode d
    let head := s.msgHead core.toNat op node (mEp d) (if op = 3 then 0 else mOffset d) (mClass d) (mChan d) (if op = 0x20 then d else d % 2 ^ 440)
    (∀ n, cause = some n → StopsEngine c s p 2 n d) ∧
    (cause = none → k.ops = [] → (∀ m ∈ s.msgs, m.2.owner ≠ p) → s.msgs.length < 65536 → s.noRoute head = false →
      ∀ id, s.nextId = some id →
      let sends := fun (credits : List (Nat × Credit)) (payload : List Byte) => ∃ t, exec c s = .next t ∧
        (t.core p).mse = { k.mse with queue := k.mse.queue.drop 1 } ∧
        (∃ o, (t.core p).ops = [o] ∧ o.desc = d ∧ o.no = k.nextOp ∧ o.todo = [] ∧ o.msgs = [(id, 0)] ∧ o.status = 0) ∧
        (∃ m, look id t.msgs = some m ∧ m.owner = p ∧ m.opNo = k.nextOp ∧ m.item.head = head ∧ m.item.payload = payload ∧ m.retries = 0) ∧
        (t.core p).credits = credits ∧ (t.core p).sp = k.sp ∧ (t.core p).ctrs = k.ctrs ∧ (t.core p).primary = k.primary ∧
        (t.core p).companion = k.companion ∧ ∀ q, q ≠ p → t.core q = s.core q
      ((op = 1 ∨ op = 3 ∧ bit d 188 = false) → sends k.credits (k.sp.readN (mLocal d) (mLen d))) ∧
      ((op = 2 ∨ op = 5 ∨ op = 0x20) → sends k.credits []) ∧
      (∀ q, op = 4 → epCore (mEp2 d) = true → s.physOf (mEp2 d) = some q → s.coreHeld q = false →
        sends k.credits ((s.core q).sp.readN (mOffset2 d) (mLen d))) ∧
      (op = 3 → bit d 188 = true →
        (∀ x, k.creditFor head = some x → x.credits ≠ 0 → mLen d ≤ x.payload →
          sends (put (mChan d) { x with credits := x.credits - 1 } k.credits) (k.sp.readN (mLocal d) (mLen d))) ∧
        ((k.creditFor head = none ∨ ∃ x, k.creditFor head = some x ∧ x.credits = 0 ∧ mLen d ≤ x.payload) →
          ∃ t, exec c s = .next t ∧ (∃ o, (t.core p).ops = [o] ∧ o.desc = d ∧ o.todo.length = 1 ∧ o.msgs = []) ∧
            t.msgs = s.msgs ∧ t.out = s.out ∧ (t.core p).credits = k.credits)))

/-- A NOP completes at once where nothing of its engine is started; a FENCE once every descriptor started before it has completed (R57, R74, R75, R81, R97, R189, R320). -/
def Obligations.NopsAndFence : Prop :=
  ∀ (core : CoreId) (p d : Nat) (s : State),
    let k := s.core p
    let done := fun (c : Instr) (e : Nat) => ∃ t, exec c s = .next t ∧ ((t.core p).engine e).queue = (k.engine e).queue.drop 1 ∧
      ((t.core p).engine e).started = [] ∧ DoneCounted s t p d ∧ (t.core p).sp = k.sp ∧ ∀ q, q ≠ p → t.core q = s.core q
    (Starts s core p 0 0 d → bankOk (MxeD.of d).block (MxeD.of d).bank = true →
      ((k.engine 0).started = [] → bit d 66 = false → done (.mxeNop core) 0) ∧
      ((k.engine 0).started ≠ [] → ∃ t, StartsOn (.mxeNop core) s t p 0 d)) ∧
    (Starts s core p 1 0 d →
      ((k.engine 1).started = [] → bit d 66 = false → done (.fgeNop core) 1) ∧
      ((k.engine 1).started ≠ [] → ∃ t, StartsOn (.fgeNop core) s t p 1 d)) ∧
    (Starts s core p 2 0 d →
      (statusCause d ≠ none → StopsEngine (.mseNop core) s p 2 3 d) ∧
      (mStatusEn d = false → bit d 66 = false → k.ops = [] → ∃ t, exec (.mseNop core) s = .next t ∧
        (t.core p).mse = { k.mse with queue := k.mse.queue.drop 1 } ∧ (t.core p).ops = k.ops ∧ (t.core p).sp = k.sp ∧
        DoneCounted s t p d ∧ ∀ q, q ≠ p → t.core q = s.core q)) ∧
    (Starts s core p 2 6 d →
      (statusCause d ≠ none → StopsEngine (.mseFence core) s p 2 3 d) ∧
      (statusCause d = none → ∃ t, exec (.mseFence core) s = .next t ∧
        (t.core p).mse = { k.mse with queue := k.mse.queue.drop 1 } ∧ (t.core p).sp = k.sp ∧ (t.core p).ctrs = k.ctrs ∧
        (∃ o, (t.core p).ops = k.ops ++ [o] ∧ o.desc = d ∧ o.kind = .fence (k.ops.map (·.no))) ∧ ∀ q, q ≠ p → t.core q = s.core q)) ∧
    (∀ no o earlier, Holds s core p → s.engineHeld p 2 = false → k.op no = some o → o.kind = .fence earlier →
      ((∃ x ∈ k.ops, x.no ∈ earlier) → exec (.mseDescComplete core no) s = .next s) ∧
      ((∀ x ∈ k.ops, x.no ∉ earlier) → mStatusEn o.desc = false → bit o.desc 66 = false →
        ∃ t, exec (.mseDescComplete core no) s = .next t ∧ (t.core p).ops = k.ops.filter (fun x => x.no != no) ∧
          DoneCounted s t p o.desc ∧ (t.core p).sp = k.sp ∧
          ∀ n, n < 24 → ∀ w ∈ (t.stack n).wcb, ∀ who ∈ w.writers, ¬ (who % 2 ^ 48 = 65536 * s.node + core.toNat ∧ who / 2 ^ 48 ≤ no)))

/-- BUSHEL_OPEN, PUSH, DRAIN and QUERY act on the lane of their SLOT when no earlier operation of the engine is started (R224, R225, R226, R227, R228, R229, R230, R231, R235). -/
def Obligations.LaneOperations : Prop :=
  (∀ (core : CoreId) (p no : Nat) (o : MseOp) (s : State), Holds s core p → s.engineHeld p 2 = false → (s.core p).op no = some o →
    o.kind = .plain → o.fin = true → dOp o.desc = 0x10 →
    ∃ t, exec (.mseDescComplete core no) s = .next t ∧ ((t.core p).lane (bSlot o.desc)).isOpen = true) ∧
  ∀ (core : CoreId) (p d op : Nat) (c : Instr) (s : State), Starts s core p 2 op d →
    (op = 0x10 ∧ c = .bushelOpen core ∨ op = 0x11 ∧ c = .bushelPush core ∨ op = 0x12 ∧ c = .bushelDrain core
      ∨ op = 0x13 ∧ c = .bushelQuery core) →
    let k := s.core p
    let slot := bSlot d
    let x := k.lane slot
    let f := 64 + 64 * ((mLen d + 63) / 64)
    let rest := fun t : State => (∀ j, j ≠ slot → (t.core p).lane j = k.lane j) ∧ (t.core p).ctrs = k.ctrs ∧ (t.core p).primary = k.primary ∧
      (t.core p).companion = k.companion ∧ ∀ q, q ≠ p → t.core q = s.core q
    (∀ n, s.bushelCause p d op = some n → StopsEngine c s p 2 n d) ∧
    (s.bushelCause p d op = none → k.ops = [] →
      let runs := fun (post : State → MseOp → Prop) => ∃ t o, exec c s = .next t ∧ (t.core p).ops = [o] ∧ o.desc = d ∧ rest t ∧ post t o
      (op = 0x10 → runs fun t o => o.fin = true ∧ (t.core p).sp = k.sp ∧
        (t.core p).lane slot = { isOpen := x.isOpen, base := bBase d, limit := bLimit d, top := 0, last := none, count := 0 } ∧
        Counted s t (Key.bushelDiscarded (physCluster p)) x.count) ∧
      (op = 0x11 → x.top + f ≤ x.limit → s.controllerOpen (devSetting x.base) = true → runs fun t o => o.fin = true ∧
        (t.core p).sp = k.sp ∧ (t.core p).lane slot = { x with last := some x.top, top := x.top + f, count := x.count + 1 } ∧
        ∃ h, h = frameHeader d (x.last.getD 0xFFFFFFFFFF) k.rstep core.toNat x.count s.ftime ∧
          t.hbms = (s.hbmWrite (devSetting x.base) (s.coreWho core.toNat k.nextOp) (devOffset x.base + x.top)
            (h ++ k.sp.readN (mLocal d) (mLen d) ++ List.replicate (f - 64 - mLen d) 0)).hbms) ∧
      (op = 0x11 → x.limit < x.top + f → ∃ t, exec c s = .next t ∧ (t.core p).mse.stopped = true ∧ (t.core p).lane slot = x ∧
        Counted s t (Key.bushelOverflows (physCluster p)) 1) ∧
      (op = 0x12 → runs fun t o => o.kind = .drain 0 (k.ctr (fld d 248 8)) ∧ (t.core p).sp = k.sp ∧ (t.core p).lane slot = x) ∧
      (op = 0x13 → runs fun t o => o.fin = true ∧ (t.core p).lane slot = x ∧
        (t.core p).sp = k.sp.writeN (mLocal d) (leBytes 32 (x.base + x.limit * 2 ^ 64 + x.top * 2 ^ 128 + x.count * 2 ^ 192
          + b2n x.isOpen * 2 ^ 224))))

/-- BUSHEL_FRAME_READ takes the newest frame off the lane, into the window's next place, and completes the drain with its last frame (R231, R232, R233). -/
def Obligations.DrainReadsTheNewestFrame : Prop :=
  ∀ (core : CoreId) (p no j r0 : Nat) (o : MseOp) (s : State), Holds s core p → s.engineHeld p 2 = false → (s.core p).op no = some o →
    o.kind = .drain j r0 → o.msgs = [] →
    let k := s.core p
    let d := o.desc
    let slot := bSlot d
    let x := k.lane slot
    let n := devSetting x.base
    s.controllerOpen n = true → (j < bDepth d ∨ reached (k.ctr (fld d 248 8)) (r0 + j + 1 - bDepth d) = true) →
    (x.last = none → ∃ t, exec (.bushelFrameRead core no) s = .next t ∧ (t.core p).mse.stopped = true ∧ (t.core p).lane slot = x ∧
      Counted s t (Key.bushelUnderflows (physCluster p)) 1) ∧
    (∀ last hb body, x.last = some last →
      let r := s.hbmRead n (devOffset x.base + last) 64
      let h := leNat hb
      r.2 = some hb → headerOk x last slot (bBuf d) h = true →
      (r.1.hbmRead n (devOffset x.base + last + 64) (frameLen (fld h 64 22) - 64)).2 = some body →
      let arrived := fun i => if i = fld d 240 8 then (k.ctr i + 1) % 2 ^ 32 else k.ctr i
      let taken := fun (post : State → Prop) => ∃ t, exec (.bushelFrameRead core no) s = .next t ∧
        (t.core p).sp = k.sp.writeN (mLocal d + j % bDepth d * 2 ^ bBuf d) (hb ++ body) ∧
        (t.core p).lane slot = { x with top := last, last := if fld h 96 40 = 0xFFFFFFFFFF then none else some (fld h 96 40),
                                        count := x.count - 1 } ∧ post t ∧
        (∀ i, i ≠ slot → (t.core p).lane i = k.lane i) ∧
        (∀ q, q ≠ p → t.core q = s.core q) ∧ Counted s t (Key.bushelFramesDrained (physCluster p)) 1
      (j + 1 ≠ bFrames d → taken fun t => (∀ i, (t.core p).ctr i = arrived i) ∧
        (t.core p).op no = some { o with kind := .drain (j + 1) r0 }) ∧
      (j + 1 = bFrames d → k.ops = [o] → mStatusEn d = false → bit d 66 = false → taken fun t => (t.core p).ops = [] ∧
        ∀ i, (t.core p).ctr i = if i = fld d 8 8 ∧ fld d 16 8 ≠ 0 then (arrived i + fld d 16 8) % 2 ^ 32 else arrived i))

/-- A BUCKET_ADD of an idle engine stores the first addends or adds to the accumulator, and keeps the tally (R264, R265, R266, R267). -/
def Obligations.BucketAddSumsExactly : Prop :=
  ∀ (core : CoreId) (p d : Nat) (s : State), Starts s core p 2 0x21 d →
    let k := s.core p
    let src := wordsOf 8 (k.sp.readN (mLocal d) (mLen d))
    let side := sideCounts (k.sp.readN (uSide d) (32 * uSides d))
    let inside := fun a g : Nat => decide (-(2 ^ 63) ≤ sgn 64 a + sgn 64 g) && decide (sgn 64 a + sgn 64 g < 2 ^ 63)
    let stores := fun (from_ : State) (sums : List Nat) (spilt old : Nat) => ∃ t o, exec (.bucketAdd core) s = .next t ∧
      t.hbms = ((from_.devWrite p k.nextOp (uAcc d) (sums.flatMap (leBytes 8))).devWrite p k.nextOp (uTally d)
        (leBytes 32 (addStatus (addStatus old (min spilt (2 ^ 32 - 1))) side))).hbms ∧
      Counted s t Key.bucketAddOverflows spilt ∧ (t.core p).ops = [o] ∧ o.desc = d ∧ o.fin = true ∧ o.status = 0 ∧
      (t.core p).sp = k.sp ∧ (t.core p).ctrs = k.ctrs ∧ (t.core p).primary = k.primary ∧ (t.core p).companion = k.companion ∧
      ∀ q, q ≠ p → t.core q = s.core q
    (∀ n, s.bucketCause d = some n → StopsEngine (.bucketAdd core) s p 2 n d) ∧
    (s.bucketCause d = none → k.ops = [] → s.controllerOpen (devSetting (uAcc d)) = true → s.controllerOpen (devSetting (uTally d)) = true →
      (bit d 149 = true → stores s src 0 0) ∧
      (bit d 149 = false → ∀ acc tally,
        let r1 := s.devRead (uAcc d) (mLen d)
        let r2 := r1.1.devRead (uTally d) 32
        r1.2 = some acc → r2.2 = some tally →
        let both := (wordsOf 8 acc).zip src
        stores r2.1 (both.map (fun x => if inside x.1 x.2 then unsgn 64 (sgn 64 x.1 + sgn 64 x.2) else 0))
          (both.filter (fun x => !inside x.1 x.2)).length (leNat tally)))

/-- BUCKET_STEPs open their steps in order, and a BUCKET_EXCHANGE beyond the bucket window is held until BUCKET_WINDOW_ADMIT (R265, R266, R269, R270, R272). -/
def Obligations.BucketStepsAndWindow : Prop :=
  ∀ (core : CoreId) (p d : Nat) (s : State),
    let k := s.core p
    let still := s.colls = [] ∧ s.ctxWaiters = [] ∧ s.commits = []
    let opened := fun (t : State) (d no : Nat) => t.seq.isOpen = true ∧ t.seq.step = uStep d ∧ t.seq.first = uId d ∧ t.seq.count = uParams d ∧
      (t.core p).op no = none
    let opens := fun (c : Instr) (d : Nat) => ∃ t, exec c s = .next t ∧ DoneCounted s t p d ∧ (t.core p).sp = k.sp ∧
      t.seq = { s.seq with isOpen := true, step := uStep d, first := uId d, count := uParams d, u := uId d, fin := [], run := [], zones := [] } ∧
      ∀ q, q ≠ p → t.core q = s.core q
    (Starts s core p 2 0x22 d →
      (∀ n, s.bucketCause d = some n → StopsEngine (.bucketStep core) s p 2 n d) ∧
      (s.bucketCause d = none → k.op k.nextOp = none → (s.seq.unfinished = false ∨ bit d 149 = true) →
        ∃ t, exec (.bucketStep core) s = .next t ∧ opened t d k.nextOp) ∧
      (still → s.bucketCause d = none → k.ops = [] → s.seq.isOpen = false → mStatusEn d = false → bit d 66 = false →
        opens (.bucketStep core) d) ∧
      (s.bucketCause d = none → k.ops = [] → s.seq.unfinished = true → bit d 149 = false → ∃ t o, exec (.bucketStep core) s = .next t ∧
        t.seq = s.seq ∧ (t.core p).ops = [o] ∧ o.desc = d ∧ o.kind = .stepHeld ∧ (t.core p).ctrs = k.ctrs ∧
        ∀ q, q ≠ p → t.core q = s.core q)) ∧
    (∀ no o, Holds s core p → s.packageHeld = false → k.op no = some o → o.kind = .stepHeld →
      (s.seq.unfinished = true → exec (.bucketStepRelease core no) s = .next s) ∧
      (s.seq.unfinished = false → ∃ t, exec (.bucketStepRelease core no) s = .next t ∧ opened t o.desc no) ∧
      (still → s.seq.isOpen = false → mStatusEn o.desc = false → bit o.desc 66 = false → opens (.bucketStepRelease core no) o.desc)) ∧
    (Starts s core p 2 0x23 d → (∀ n, s.bucketCause d = some n → StopsEngine (.bucketExchange core) s p 2 n d) ∧
      (s.bucketCause d = none → k.ops = [] → s.seq.off s.seq.u + 256 ≤ s.seq.off (uId d) → ∃ t o, exec (.bucketExchange core) s = .next t ∧
        t.seq = s.seq ∧ t.colls = s.colls ∧ (t.core p).ops = [o] ∧ o.desc = d ∧ o.kind = .windowHeld ∧ (t.core p).sp = k.sp ∧
        (t.core p).ctrs = k.ctrs ∧ ∀ q, q ≠ p → t.core q = s.core q)) ∧
    (∀ no o, Holds s core p → s.packageHeld = false → k.op no = some o → o.kind = .windowHeld →
      let c0 := s.collOf p no o.desc
      let formed := s.flag (Key.groupFormed c0.axis) = true ∧ s.get (Key.groupStep c0.axis) = c0.step
      let rimsUp := ∀ r ∈ s.carriers c0.axis, ∀ j ∈ s.resets, ¬ (j.domain = 5 ∧ j.target = r)
      (s.seq.off (uId o.desc) < s.seq.off s.seq.u + 256 → s.colls = [] → s.ctxWaiters = [] → dOp o.desc = 0x23 → formed →
        ¬ rimsUp ∨ s.collControllers p o.desc = false →
        ∃ t, exec (.bucketWindowAdmit core no) s = .next t ∧ t.seq = { s.seq with run := s.seq.run ++ [uId o.desc % 256] } ∧
          t.colls = [] ∧ ((t.core p).op no).map (·.kind) = some .ctxHeld) ∧
      (s.seq.off (uId o.desc) < s.seq.off s.seq.u + 256 → s.colls = [] → s.ctxWaiters = [] → s.streams = [] → o.msgs = [] →
        dOp o.desc = 0x23 → s.seq.keptFrom (uId o.desc) = false → rimsUp → s.collControllers p o.desc = true →
        let ctx := s.collPlace o.desc
        formed →
        ∀ c1, (s.contribution c0).2 = some c1 → (c1.legs.any (fun l => !l.out)) = true → s.collUnreachable ctx c1 = false →
          ∃ t c2, exec (.bucketWindowAdmit core no) s = .next t ∧ t.seq.run = s.seq.run ++ [uId o.desc % 256] ∧ t.colls = [(ctx, c2)] ∧
            c2.owner = p ∧ c2.opNo = no ∧ c2.opened = true ∧ c2.data = c1.data ∧ c2.fail = none ∧
            ((t.core p).op no).map (·.kind) = some (.coll ctx)) ∧
      (s.seq.off s.seq.u + 256 ≤ s.seq.off (uId o.desc) → ∃ t, exec (.bucketWindowAdmit core no) s = .next t ∧ t.seq = s.seq ∧
        t.cores = s.cores ∧ t.colls = s.colls ∧ ∀ e : Ent, e.key ≠ Key.bucketWindowStallClocks.key → t.get e = s.get e))

/-- A collective with its group formed takes its context with its own contribution, and sends its openers unless its launch is to come (R405, R409, R410, R412, R413, R414, R415, R424). -/
def Obligations.CollectivesStart : Prop :=
  ∀ (core : CoreId) (p d op : Nat) (c : Instr) (s : State), Starts s core p 2 op d →
    (op = 0x30 ∧ c = .groupForm core ∨ op = 0x31 ∧ c = .collAllReduce core ∨ op = 0x32 ∧ c = .collReduceScatter core
      ∨ op = 0x33 ∧ c = .collAllGather core ∨ op = 0x34 ∧ c = .collBroadcast core ∨ op = 0x35 ∧ c = .collBarrier core
      ∨ op = 0x23 ∧ c = .bucketExchange core ∨ op = 0x24 ∧ c = .bucketAgree core) →
    let k := s.core p
    let cause := if op < 0x30 then s.bucketCause d else s.collCause p d
    let c0 := s.collOf p k.nextOp d
    let ctx := s.collPlace d
    (∀ n, cause = some n → StopsEngine c s p 2 n d) ∧
    (cause = none → k.ops = [] → s.colls = [] → s.ctxWaiters = [] → s.streams = [] →
      (op = 0x23 → s.seq.off (uId d) < s.seq.off s.seq.u + 256) → (op < 0x30 → s.seq.keptFrom (uId d) = false) →
      let formed := s.flag (Key.groupFormed c0.axis) = true ∧ s.get (Key.groupStep c0.axis) = c0.step
      let serves := (∀ r ∈ s.carriers c0.axis, ∀ j ∈ s.resets, ¬ (j.domain = 5 ∧ j.target = r)) ∧ s.collControllers p d = true
      let holds := fun (launched : Bool) (data : List Byte) => ∃ t c2, exec c s = .next t ∧ t.colls = [(ctx, c2)] ∧ c2.owner = p ∧
        c2.launched = launched ∧ c2.opened = launched ∧ c2.data = data ∧ c2.got = [] ∧ c2.fail = none ∧ c2.group = c0.group ∧
        (t.core p).ops.map (·.kind) = [.coll ctx]
      (∀ c1, serves → op = 0x30 ∨ formed → (s.contribution c0).2 = some c1 →
        (c0.launch = 0 → (c1.legs.any (fun l => !l.out)) = true → (op = 0x23 → s.collUnreachable ctx c1 = false) → holds true c1.data) ∧
        (s.ftime < c0.launch → s.get Key.timeState = 1 ∨ s.get Key.timeState = 3 → holds false c1.data)) ∧
      (op ≠ 0x30 → ¬ formed → ∃ t, exec c s = .next t ∧ t.colls = [] ∧ Counted s t (Key.groupRefusals c0.axis) 1))

/-- A collective of a group of one member completes at once with the member's own data (R405, R410, R412, R413). -/
def Obligations.CollectivesOfOneMember : Prop :=
  ∀ (core : CoreId) (p d op : Nat) (c : Instr) (s : State), Starts s core p 2 op d →
    (op = 0x30 ∧ c = .groupForm core ∨ op = 0x31 ∧ c = .collAllReduce core ∨ op = 0x32 ∧ c = .collReduceScatter core
      ∨ op = 0x33 ∧ c = .collAllGather core ∨ op = 0x34 ∧ c = .collBroadcast core ∨ op = 0x35 ∧ c = .collBarrier core) →
    let k := s.core p
    let a := kAxis d
    s.collCause p d = none → kGroup d = 1 → kRank d = 0 → kLaunch d = 0 → kSrcHbm d = false → kDstHbm d = false → mStatusEn d = false → bit d 66 = false →
    k.ops = [] → s.colls = [] → s.ctxWaiters = [] → s.streams = [] →
    (∀ r ∈ s.carriers a, ∀ j ∈ s.resets, ¬ (j.domain = 5 ∧ j.target = r)) →
    (op = 0x30 ∨ s.flag (Key.groupFormed a) = true ∧ s.get (Key.groupStep a) = kStep d) →
    ∃ t, exec c s = .next t ∧ t.colls = [] ∧ (t.core p).ops = [] ∧ DoneCounted s t p d ∧ Counted s t (Key.collCompleted a) 1 ∧
      (∀ q, q ≠ p → t.core q = s.core q) ∧
      (op = 0x30 → t.get (Key.groupFormed a) = 1 ∧ t.get (Key.groupStep a) = kStep d ∧ t.get (Key.groupSignature a) = s.signature (kStep d) ∧
        (t.core p).sp = k.sp) ∧
      (op = 0x35 → (t.core p).sp = k.sp) ∧
      (op ≠ 0x30 → op ≠ 0x35 → ∃ u : List Byte, u.length = mLen d ∧
        (t.core p).sp = (k.sp.writeN (kDstAddr d) u).writeN (kDstAddr d) (k.sp.readN (mLocal d) (mLen d)))

/-- Streams of a collective are parked, accepted, combined or rejected; launch, timeout and park expiry do what R423, R424 and R416 say (R416, R417, R418, R423, R424). -/
def Obligations.CollectiveStreamsAndTimers : Prop :=
  ∀ (ctx : Nat) (s : State), s.packageHeld = false →
    (∀ at_ c, s.colls = [(at_, c)] → at_ % 1024 = ctx → s.streams = [] → s.ctxWaiters = [] → c.fail = none → c.launched = false →
      c.opened = false → c.got = [] →
      (c.launch ≤ s.ftime → (c.legs.any (fun l => !l.out)) = true → s.destServes c = true → (c.op = 0x23 → s.collUnreachable at_ c = false) →
        ∃ t c2, exec (.collectiveLaunch ctx) s = .next t ∧
        t.colls = [(at_, c2)] ∧ c2.launched = true ∧ c2.opened = true ∧ c2.data = c.data) ∧
      (s.ftime < c.launch → exec (.collectiveLaunch ctx) s = .next s) ∧
      (∃ t, exec (.collProgressTimeout ctx) s = .next t ∧ t.colls = [] ∧ Counted s t (Key.collFailed c.axis) 1)) ∧
    ((∀ x ∈ s.colls, x.1 % 1024 ≠ ctx) → exec (.collectiveLaunch ctx) s = .next s) ∧
    (∀ (node : BitVec 32) (key : BitVec 16),
      let a := s.axisFrom node.toNat
      let mine := fun t : Stream => t.src = node.toNat ∧ t.context = collKey a ctx ∧ t.key = key.toNat ∧ t.accepted = false
      ∃ t, exec (.collParkExpiry node ctx key) s = .next t ∧ (∀ x, x ∈ t.streams ↔ x ∈ s.streams ∧ ¬ mine x) ∧ t.colls = s.colls ∧
        t.cores = s.cores ∧ Counted s t (Key.collParkExpired a) (s.streams.countP (fun x => decide (mine x)))) ∧
    (∀ (via : Option Port) (x : Packet), Arrives s x.op.toNat via x → isCollPacket x = true → s.ctxWaiters = [] →
      let src := x.srcNode.toNat
      let a := s.axisFrom src
      let at_ := collKey a (opContext x)
      let o := leNat x.payload
      let fresh : Stream := { src := src, context := at_, key := opKey x, opener := none, accepted := false, waiting := [] }
      (s.colls = [] → (∀ u ∈ s.streams, ¬ (u.src = src ∧ u.context = at_ ∧ u.key = opKey x)) →
        (opKind x = 1 → exec (.openerArrival via x) s = .next { s.takeIn via x with streams := s.streams ++ [{ fresh with opener := some x }] }) ∧
        (opKind x = 0 → exec (.collectiveDataArrival via x) s =
          .next { s.takeIn via x with streams := s.streams ++ [{ fresh with waiting := [x], last := some s.ftime }] }) ∧
        (opKind x = 2 → exec (.abortArrival via x) s = .next ((s.takeIn via x).freeSpace x))) ∧
      (∀ c, s.colls = [(at_, c)] → c.fail = none → c.complete = false → opKey x = c.key →
        let fails := fun (i : Instr) => ∃ t, exec i s = .next t ∧ t.colls = [] ∧ Counted s t (Key.collFailed c.axis) 1
        (s.streams = [] → opKind x = 1 →
          (fld o 32 32 = c.step % 2 ^ 32 → openerKey c.op o = openerKey c.op c.opener → c.launched = false →
            exec (.openerArrival via x) s =
              .next (State.freeSpace { s.takeIn via x with streams := [{ fresh with opener := some x, accepted := true }] } x)) ∧
          (fld o 32 32 ≠ c.step % 2 ^ 32 → fails (.openerArrival via x) ∧
            ∃ t, exec (.openerArrival via x) s = .next t ∧ Counted s t (Key.collStepMismatch c.axis) 1) ∧
          (fld o 32 32 = c.step % 2 ^ 32 → openerKey c.op o ≠ openerKey c.op c.opener → fails (.openerArrival via x) ∧
            ∃ t, exec (.openerArrival via x) s = .next t ∧ Counted s t (Key.collDisagree c.axis) 1)) ∧
        (s.streams = [] → opKind x = 2 → fails (.abortArrival via x)) ∧
        (∀ (z : Packet) (l : Leg) (before : Option Nat),
          s.streams = [{ fresh with opener := some z, accepted := true, last := before }] → opKind x = 0 →
          bit (leNat z.payload) 13 = x.epoch → c.launched = true → c.opened = true → c.sendable = [] → c.legFor x = some l →
          (c.absorb l x).sendable = [] → (c.absorb l x).complete = false → s.destServes c = true →
          let lo := x.offset.toNat
          let n := x.payload.length
          (l.add = true → (s.destRead c lo (lo + n)).2 = true) →
          ∃ t c2, exec (.collectiveDataArrival via x) s = .next t ∧ t.colls = [(at_, c2)] ∧ c2.got = c.got ++ [(l.phase, lo, lo + n)] ∧
            c2.data = c.data.take lo ++ (if l.add then c.combine n lo ((c.data.drop lo).take n) x.payload else x.payload)
              ++ c.data.drop (lo + n) ∧
            t.streams = [{ fresh with opener := some z, accepted := true, last := some s.ftime }] ∧
            Counted s t (Key.claspForwardStalls a)
              (if before.any (fun k => decide (s.get Key.adderForwardLimit < s.ftime - k)) then 1 else 0) ∧
            (kDstHbm c.desc = false → t.cores = s.cores ∧ t.hbms = s.hbms))))

/-- EXPERT_DISPATCH and EXPERT_RETURN form the messages of their lists in order, EXPERT_COMBINE writes the gate-weighted sums (R249, R251, R252, R255, R256). -/
def Obligations.ExpertDescriptors : Prop :=
  ∀ (core : CoreId) (p d : Nat) (s : State),
    let k := s.core p
    let n := physCluster p
    let others := fun t : State => (t.core p).mse.queue = k.mse.queue.drop 1 ∧ ∀ q, q ≠ p → t.core q = s.core q
    let full := 65536 ≤ s.msgs.length
    (Starts s core p 2 0x40 d → (∀ n, expertCause d 0x40 = some n → StopsEngine (.expertDispatch core) s p 2 n d) ∧
      (expertCause d 0x40 = none → k.ops = [] →
        let a := (List.range (xExperts d)).foldl (s.dispatchList p core.toNat d) { items := [], sent := [], drops := 0, stop := none }
        a.stop = none → ∃ t, exec (.expertDispatch core) s = .next t ∧ others t ∧ Counted s t (Key.expertRowsSent n) a.sent.length ∧
          Counted s t (Key.expertDrops n) a.drops ∧
          ((∀ x ∈ a.items, s.noRoute x.head = false) → ∃ o, (t.core p).ops = [o] ∧ o.desc = d ∧ o.leaves = a.sent.length ∧
            o.todo.length + o.msgs.length = a.items.length) ∧
          (full → ∃ o, (t.core p).ops = [o] ∧ o.desc = d ∧ o.todo = a.items ∧ o.leaves = a.sent.length))) ∧
    (Starts s core p 2 0x41 d → (∀ n, expertCause d 0x41 = some n → StopsEngine (.expertReturn core) s p 2 n d) ∧
      (expertCause d 0x41 = none → k.ops = [] →
        let r := s.returnItems p core.toNat d (returnRows k.sp d)
        r.2 = none → ∃ t, exec (.expertReturn core) s = .next t ∧ others t ∧ Counted s t (Key.expertRowsReturned n) r.1.length ∧
          (r.1 = [] → (t.core p).ops = []) ∧
          (r.1 ≠ [] → (∀ x ∈ r.1, s.noRoute x.head = false) → ∃ o, (t.core p).ops = [o] ∧ o.desc = d ∧
            o.todo.length + o.msgs.length = r.1.length) ∧
          (full → r.1 ≠ [] → ∃ o, (t.core p).ops = [o] ∧ o.desc = d ∧ o.todo = r.1))) ∧
    (Starts s core p 2 0x42 d → (∀ n, expertCause d 0x42 = some n → StopsEngine (.expertCombine core) s p 2 n d) ∧
      (expertCause d 0x42 = none → ∃ t o, exec (.expertCombine core) s = .next t ∧ others t ∧ (t.core p).ops = k.ops ++ [o] ∧ o.desc = d ∧
        o.fin = true ∧ (t.core p).ctrs = k.ctrs ∧ (t.core p).primary = k.primary ∧ (t.core p).companion = k.companion ∧
        (t.core p).sp = k.sp.writeN (xRows d) ((List.range (xTokens d)).flatMap (fun i =>
          (List.range (xRowBytes d / (if bit d 171 then 2 else 4))).flatMap (fun x => leBytes 4 (combineAt k.sp d i x))))))

/-- A packet that fails a check at its destination is counted and has no other effect; one of another job is answered BAD_ENDPOINT where it asks for an answer (R369, R389, R394, R399, R556). -/
def Obligations.ArrivalChecks : Prop :=
  ∀ (via : Option Port) (x : Packet) (c : Instr) (s : State), s.packageHeld = false → s.isOwn x.destNode.toNat = true →
    (x.op = 1 ∧ c = .putArrival via x ∨ x.op = 2 ∧ c = .getArrival via x ∨ x.op = 3 ∧ c = .sendArrival via x
      ∨ x.op = 4 ∧ c = .copyArrival via x ∨ x.op = 5 ∧ c = .signalArrival via x ∨ x.op = 0x20 ∧ c = .gatherArrival via x
      ∨ x.op = 0x80 ∧ c = .readDataArrival via x ∨ x.op = 0xF0 ∧ c = .completionArrival via x ∨ x.op = 0xF1 ∧ c = .busyArrival via x
      ∨ x.op = 0xF2 ∧ c = .retryArrival via x) →
    let v := b2n x.epoch
    let only := fun e : Ent => exec c s = .next ((s.takeIn via x).count e 1)
    let open_ := ∀ q, via = some q → s.fenced v q.val = false ∧ s.tableState v ≠ 0
    (∀ q, via = some q → s.fenced v q.val = true → only (Key.fencedDrops q.val)) ∧
    (∀ q, via = some q → s.fenced v q.val = false → s.tableState v = 0 → only Key.staleEpochDrops) ∧
    (∀ q, via = some q → open_ → x.detour = 1 ∨ x.detour = 2 → exec c s = .next ((s.takeIn via x).transit q x)) ∧
    (open_ → x.detour ≠ 1 → x.detour ≠ 2 → x.abort = true → only Key.abortedPackets) ∧
    (open_ → x.detour ≠ 1 → x.detour ≠ 2 → x.abort = false → packetReserved x = true ∨ packetCrc x ≠ x.crc.toNat ∨ x.payload.length ≠ x.length.toNat →
      only Key.e2eCrcErrors) ∧
    (open_ → x.detour = 0 → x.abort = false → packetReserved x = false → packetCrc x = x.crc.toNat → x.payload.length = x.length.toNat →
      x.jobTag.toNat ≠ s.get Key.jobTag →
      (x.ackReq = false ∨ s.get Key.pkgState ≠ 1 → only Key.tagMismatchArrivals) ∧
      (x.ackReq = true → s.get Key.pkgState = 1 →
        ∃ y, exec c s = .next (((s.takeIn via x).count Key.tagMismatchArrivals 1).sendPacket y) ∧ y.op = 0xF0 ∧ y.destNode = x.srcNode ∧
          y.destEp = x.srcEp ∧ y.msgId = x.msgId ∧ fld (leNat y.payload) 0 8 = 1))

/-- A PUT, COPY or SIGNAL of one packet lands, notifies and is answered once; BAD_ENDPOINT writes nothing and BAD_ADDRESS leaves its range undefined (R71, R76, R77, R79, R381). -/
def Obligations.WritesLandAtTheirTarget : Prop :=
  ∀ (via : Option Port) (x : Packet) (op : Nat) (c : Instr) (s : State), Arrives s op via x →
    (op = 1 ∧ epTroy x.destEp.toNat = false ∧ c = .putArrival via x ∨ op = 4 ∧ c = .copyArrival via x ∨ op = 5 ∧ c = .signalArrival via x) →
    let d := x.fields.toNat
    let ep := x.destEp.toNat
    (Admitted s x → s.writeRefusal x = none → ∀ q, epCore ep = true → s.physOf ep = some q →
      ∃ t, exec c s = .next t ∧ Answered s t x 0 ∧ t.hbms = s.hbms ∧ (∀ r, r ≠ q → t.core r = s.core r) ∧
        (t.core q).sp = (if op = 5 then (s.core q).sp else (s.core q).sp.writeN x.offset.toNat x.payload) ∧
        (∀ n, (t.core q).ctr n = if n = mNotifyCtr d ∧ mNotifyInc d ≠ 0 ∧ (op = 5 ∨ mNotify d = true)
          then ((s.core q).ctr n + mNotifyInc d) % 2 ^ 32 else (s.core q).ctr n) ∧
        (t.core q).primary = (s.core q).primary ∧ (t.core q).companion = (s.core q).companion ∧ (t.core q).queues = (s.core q).queues) ∧
    (Admitted s x → s.writeRefusal x = none → epMem ep = true → op ≠ 5 →
      ∃ t, exec c s = .next t ∧ Answered s t x 0 ∧ t.cores = s.cores ∧
        t.hbms = (s.hbmWrite (ep - 0x2000) (s.packetWho x) (devOffset x.offset.toNat) x.payload).hbms) ∧
    (Admitted s x → s.writeRefusal x = some 1 →
      ∃ t, exec c s = .next t ∧ Answered s t x 1 ∧ Counted s t Key.arrivalsBadEndpoint 1 ∧ t.cores = s.cores ∧ t.hbms = s.hbms) ∧
    (Admitted s x → s.writeRefusal x = some 2 → ∀ q, epCore ep = true → s.physOf ep = some q →
      ∃ t, ∃ bs : List Byte, exec c s = .next t ∧ Answered s t x 2 ∧ Counted s t Key.arrivalsBadAddress 1 ∧ t.hbms = s.hbms ∧
        (∀ r, r ≠ q → t.core r = s.core r) ∧ bs.length = min (mLen d) (0x200000 - mOffset d) ∧
        t.core q = { s.core q with sp := (s.core q).sp.writeN (mOffset d) bs, crc := (t.core q).crc }) ∧
    (Admitted s x → s.writeRefusal x = some 2 → epMem ep = true →
      ∃ t, exec c s = .next t ∧ Answered s t x 2 ∧ Counted s t Key.arrivalsBadAddress 1 ∧ t.cores = s.cores ∧
        (devSetting (mOffset d) ≠ ep - 0x2000 → t.hbms = s.hbms) ∧
        (devSetting (mOffset d) = ep - 0x2000 → ∃ bs : List Byte,
          bs.length = min (mLen d) ((s.stack (ep - 0x2000)).usableTop - devOffset (mOffset d)) ∧
          t.hbms = (s.hbmWrite (ep - 0x2000) (s.packetWho x) (devOffset (mOffset d)) bs).hbms)) ∧
    (s.endpointHeld ep = false → s.heldBySwap x = false → (s.dupOf x.srcNode.toNat x.msgId.toNat).isSome = true →
      ∃ t, exec c s = .next t ∧ Counted s t Key.dupDiscards 1 ∧ t.dups = s.dups ∧
        (∀ r, t.core r = { s.core r with crc := (t.core r).crc }) ∧ t.hbms = s.hbms)

/-- A SEND of one packet enters the next free slot of its channel queue or is refused; grants and returns keep the credit entries (R83, R85, R86, R87, R88, R89, R381). -/
def Obligations.SendsAndCredits : Prop :=
  (  ∀ (via : Option Port) (x : Packet) (s : State), Arrives s 3 via x → Admitted s x → ∀ q, epCore x.destEp.toNat = true →
    s.physOf x.destEp.toNat = some q →
    let d := x.fields.toNat
    let k := s.core q
    let ch := x.channel.toNat
    let u := k.queue ch
    let refused := fun st : Nat => ∃ t, exec (.sendArrival via x) s = .next t ∧ Answered s t x st ∧
      Counted s t (Key.arrivalsRefused (physCluster q)) 1 ∧ (∀ r, t.core r = { s.core r with crc := (t.core r).crc }) ∧ t.hbms = s.hbms
    let barred := u.mode = 0 ∨ u.mode = 2 ∧ (bit d 188 = false ∨ u.srcNode ≠ x.srcNode.toNat ∨ u.srcEp ≠ x.srcEp.toNat)
    (barred → refused 3) ∧
    (¬ barred → 2 ^ u.slotLog2 - 16 < mLen d → refused 5) ∧
    (¬ barred → mLen d ≤ 2 ^ u.slotLog2 - 16 → u.freeSlot = none → refused 4) ∧
    (∀ i, ¬ barred → mLen d ≤ 2 ^ u.slotLog2 - 16 → u.freeSlot = some i →
      let a := u.slotAddr i
      let landed := (k.sp.writeN (a + 16 + x.offset.toNat) x.payload).writeN a (leBytes 16 (mLen d % 2 ^ 17
          + x.srcNode.toNat * 2 ^ 32 + x.srcEp.toNat * 2 ^ 64 + x.msgId.toNat * 2 ^ 80))
      let posts := u.event = true ∧ u.entries = []
      ∃ t, exec (.sendArrival via x) s = .next t ∧ Answered s t x 0 ∧ t.hbms = s.hbms ∧
        (¬ posts → (t.core q).sp = landed ∧ (t.core q).queue 16 = k.queue 16) ∧
        (posts → EventPosted (s.updCore q (fun c => { c with sp := landed })) t q 4 4 ch 0 0 0) ∧
        ((t.core q).queue ch).entries = u.entries ++ [a] ∧ (∀ j, j ≠ ch → j ≠ 16 → (t.core q).queue j = k.queue j) ∧ (t.core q).ctrs = k.ctrs ∧
        (t.core q).primary = k.primary ∧ (t.core q).companion = k.companion ∧ ∀ r, r ≠ q → t.core r = s.core r)) ∧
  (∀ (core : CoreId) (p : Nat) (channel : BitVec 4) (node : BitVec 32) (ep : BitVec 16) (n m : Nat) (s : State), Holds s core p →
    s.packageHeld = false → (s.core p).ops = [] →
    let k := s.core p
    let entryIs := fun (c : Instr) (x : Credit) => ∃ t, exec c s = .next t ∧ OnlyCore s t p ∧ (t.core p).credit channel.toNat = some x ∧
      (∀ j, j ≠ channel.toNat → (t.core p).credit j = k.credit j) ∧ t.core p = { k with credits := (t.core p).credits }
    entryIs (.creditGrantArrival core channel node ep n m) { node := node.toNat, ep := ep.toNat, credits := n, payload := m } ∧
    (∀ x, k.credit channel.toNat = some x → x.node = node.toNat → x.ep = ep.toNat →
      entryIs (.creditReturnArrival core channel node ep n) { x with credits := x.credits + n }) ∧
    ((∀ x, k.credit channel.toNat = some x → x.node ≠ node.toNat ∨ x.ep ≠ ep.toNat) →
      exec (.creditReturnArrival core channel node ep n) s = .next s))

/-- A GET or GATHER at its target is answered with its data, and changes no core (R76, R79, R286). -/
def Obligations.ReadsAreAnswered : Prop :=
  ∀ (via : Option Port) (x : Packet) (s : State), s.endpointHeld x.destEp.toNat = false → s.heldBySwap x = false →
    let d := x.fields.toNat
    let ep := x.destEp.toNat
    let off := x.offset.toNat
    let n := ep - 0x2000
    let sends := fun (c : Instr) (y : Packet) (post : State → Prop) => y.destNode = x.srcNode ∧ y.destEp = x.srcEp ∧ y.msgId = x.msgId ∧
      ∃ u, exec c s = .next (u.sendPacket y) ∧ u.cores = s.cores ∧ u.out = s.out ∧ post u
    let answers := fun (c : Instr) (bs : List Byte) => ∃ y, sends c y (fun _ => True) ∧
      y.op = 0x80 ∧ y.payload = bs ∧ y.offset = x.offset ∧ y.last = true
    let refuses := fun (c : Instr) (st : Nat) (post : State → Prop) => ∃ y, sends c y post ∧ y.op = 0xF0 ∧ fld (leNat y.payload) 0 8 = st
    let badAddress := fun (c : Instr) => refuses c 2 (fun u => Counted s u Key.arrivalsBadAddress 1)
    (Arrives s 2 via x → s.accepts d 2 ep = true → 0 < mLen d → mLen d ≤ 1024 →
      (∀ q, epCore ep = true → s.physOf ep = some q →
        (spRange off (mLen d) = true → answers (.getArrival via x) ((s.core q).sp.readN off (mLen d))) ∧
        (spRange off (mLen d) = false → badAddress (.getArrival via x))) ∧
      (epMem ep = true → devSetting off ≠ n ∨ (s.stack n).readable (devOffset off) (mLen d) = false → badAddress (.getArrival via x)) ∧
      (∀ bs, epMem ep = true → devSetting off = n → (s.stack n).readable (devOffset off) (mLen d) = true →
        (s.hbmRead n (devOffset off) (mLen d)).2 = some bs → answers (.getArrival via x) bs)) ∧
    (Arrives s 0x20 via x → epMem ep = true → s.settingFenced n = false → devSetting off = n →
      (s.stack n).writable (devOffset off) 64 = true → 0 < mLen d → mLen d ≤ 1024 → ∀ hb,
      let r := s.hbmRead n (devOffset off) 64
      r.2 = some hb →
      let h := leNat hb
      let a := devOffset off + 64 + fld d 448 40
      let fits := fld h 0 16 = 0x5AD0 ∧ fld d 448 40 + mLen d ≤ fld h 128 40 ∧ (s.stack n).writable a (mLen d) = true
      (¬ fits → badAddress (.gatherArrival via x)) ∧
      (fits → bit d 150 = true → fld h 64 32 ≠ fld d 352 32 → refuses (.gatherArrival via x) 9 (fun _ => True)) ∧
      (∀ bs, fits → bit d 150 = false ∨ fld h 64 32 = fld d 352 32 → (r.1.hbmRead n a (mLen d)).2 = some bs →
        answers (.gatherArrival via x) bs))

/-- COMPLETION and the last READ_DATA end their message and its descriptor; BUSY and RETRY hold it (R75, R377, R378, R380, R381, R382). -/
def Obligations.AnswersEndMessages : Prop :=
  ∀ (via : Option Port) (x : Packet) (s : State),
    let id := x.msgId.toNat
    (Arrives s 0xF0 via x → look id s.msgs = none → exec (.completionArrival via x) s = .next (s.takeIn via x)) ∧
    (Arrives s 0x80 via x → look id s.msgs = none → exec (.readDataArrival via x) s = .next (s.takeIn via x)) ∧
    (∀ m, look id s.msgs = some m →
      (Arrives s 0xF1 via x → exec (.busyArrival via x) s = .next { s.takeIn via x with msgs := put id { m with held := true } s.msgs }) ∧
      (Arrives s 0xF2 via x → exec (.retryArrival via x) s = .next { s.takeIn via x with msgs := put id { m with held := true } s.msgs }) ∧
      (∀ o, m.owner < 65536 → m.item.head.mcast = false → (s.core m.owner).ops = [o] → (∀ q, q ≠ m.owner → (s.core q).ops = []) →
        o.no = m.opNo → o.msgs = [(id, m.item.group)] → o.todo = [] → o.kind = .plain → o.fin = false → o.status = 0 →
        mStatusEn o.desc = false → bit o.desc 66 = false →
        let ends := fun (c : Instr) (sp : Mem) => ∃ t, exec c s = .next t ∧ look id t.msgs = none ∧ (t.core m.owner).ops = [] ∧
          DoneCounted s t m.owner o.desc ∧ (t.core m.owner).sp = sp ∧ ∀ q, q ≠ m.owner → t.core q = s.core q
        (Arrives s 0xF0 via x → fld (leNat (x.payload.take 4)) 0 8 = 0 → (s.msgs.map Prod.fst).Nodup →
          ends (.completionArrival via x) (s.core m.owner).sp) ∧
        (∀ a, Arrives s 0x80 via x → m.item.head.op = 2 → m.item.dst = some a → a < 2 ^ 21 → m.landed = [] → 0 < m.item.length → m.item.length ≤ 1024 →
          x.payload.length = m.item.length → x.offset = m.item.head.offset → s.engineHeld m.owner 2 = false → (s.msgs.map Prod.fst).Nodup →
          (∀ y ∈ s.msgs, m.no ≤ y.2.no) → ends (.readDataArrival via x) ((s.core m.owner).sp.writeN a x.payload))))

/-- The timers of message recovery resend, give up, and release contexts and records (R377, R380, R381, R382, R396). -/
def Obligations.MessageTimers : Prop :=
  ∀ (node : BitVec 32) (id : BitVec 24) (s : State), s.packageHeld = false →
    (∃ t, exec (.dupRecordExpiry node id) s = .next t ∧ t = { s with dups := t.dups } ∧
      ∀ r, r ∈ t.dups ↔ r ∈ s.dups ∧ ¬ (r.srcNode = node.toNat ∧ r.msgId = id.toNat)) ∧
    (let mine := fun c : Reorder => c.srcNode = node.toNat ∧ c.msgId = id.toNat
     ((∀ c ∈ s.reorders, ¬ mine c) → exec (.reorderContextExpiry node id) s = .next s) ∧
     (∀ c ∈ s.reorders, mine c → ∃ t, exec (.reorderContextExpiry node id) s = .next t ∧ Counted s t Key.reorderExpired 1 ∧
       (∀ r, r ∈ t.reorders ↔ r ∈ s.reorders ∧ ¬ mine r) ∧ ∀ p, (t.core p).sp = (s.core p).sp)) ∧
    (∀ m, look id.toNat s.msgs = some m →
      let again := fun (c : Instr) (retries : Nat) => ∃ t, exec c s = .next t ∧ (∀ q, t.core q = { s.core q with crc := (t.core q).crc }) ∧
        look id.toNat t.msgs = some { m with held := false, retries := retries }
      let ready := s.noRoute m.item.head = false ∧ m.item.source = none ∧ isLocal m.item.head = false
      (m.held = true → ready → again (.reorderBackoffExpiry id) m.retries) ∧
      (m.held = false → exec (.reorderBackoffExpiry id) s = .next s) ∧
      (m.retries < s.get Key.msgRetries → (ready → again (.msgTimeoutResend id) (m.retries + 1)) ∧
        ∃ t, exec (.msgTimeoutResend id) s = .next t ∧ Counted s t Key.msgRetransmits 1) ∧
      (s.get Key.msgRetries ≤ m.retries → exec (.msgTimeoutResend id) s = .next s ∧
        ((∀ q, ∀ o ∈ (s.core q).ops, o.todo = []) → ∃ t, exec (.msgTimeoutFinal id) s = .next t ∧ Counted s t Key.msgTimeouts 1)) ∧
      (m.retries < s.get Key.msgRetries → exec (.msgTimeoutFinal id) s = .next s))

/-- PACKET_FORWARD drops what may not go on, keeps what has arrived for its endpoint and sends the rest on with one hop less (R35, R371, R375, R386, R389, R393, R394). -/
def Obligations.TransitPackets : Prop :=
  ∀ (q : Port) (x : Packet) (s : State), s.packageHeld = false →
    let v := b2n x.epoch
    let dest := x.destNode.toNat
    let c := Instr.packetForward (some q) x
    let u := (s.takeIn (some q) x).freeSpace x
    let live := s.fenced v q.val = false ∧ s.tableState v ≠ 0
    (s.fenced v q.val = true → exec c s = .next (u.count (Key.fencedDrops q.val) 1)) ∧
    (s.fenced v q.val = false → s.tableState v = 0 → exec c s = .next (u.count Key.staleEpochDrops 1)) ∧
    (∀ y : Packet, y.destNode.toNat = s.node → s.redundant = false ∨ s.get Key.redundancyEnable ≠ 1 ∨ 0x1800 ≤ y.srcEp.toNat →
      exec (.packetForward none y) s = .next { s with out := s.out ++ [.packet none 0 (sealed y)] }) ∧
    (live → x.hopsLeft = 0 → s.isOwn dest = false → exec c s = .next (u.count Key.hopLimitDrops 1)) ∧
    (live → s.upDown = false → x.mcast = false → x.detour = 0 →
      (dest = s.node → opReserved x.op.toNat = false → exec c s = .next { u with out := u.out ++ [.packet none 0 x] }) ∧
      (dest = s.node → opReserved x.op.toNat = true → x.abort = false → exec c s = .next (u.count Key.e2eCrcErrors 1)) ∧
      (∀ a : Fin 4, (∀ b : Fin 4, b < a → coord dest b.val = coord s.node b.val) → coord dest a.val ≠ coord s.node a.val → x.hopsLeft ≠ 0 →
        s.exceptionFor v dest = none →
        let e := s.get (Key.axisRoute v a.val (coord dest a.val))
        (bit e 2 = false → exec c s = .next (u.count Key.noRouteDrops 1)) ∧
        (∀ (dir : Fin 2) (o : Nat), bit e 2 = true → coord dest a.val < s.axisSize a.val → fld e 0 2 = dir.val + 1 →
          s.portFor v a.val dir.val = some o → s.usable v o = true →
          ∃ t y, exec c s = .next t ∧ Output.packet (some o) (datelineVc a.val x) y ∈ t.out ∧ y.hopsLeft = x.hopsLeft - 1 ∧
            y.payload = x.payload ∧ y.destNode = x.destNode ∧ t.cores = s.cores ∧ t.hbms = s.hbms))) ∧
    (∀ i, (∀ w, s.waiting[i]? = some w → w.2.1 % 3 ≠ 2) → exec (.detourStallExpiry i) s = .next s) ∧
    (∀ i w, s.waiting[i]? = some w → w.2.1 % 3 = 2 →
      exec (.detourStallExpiry i) s = .next ({ s with waiting := s.waiting.eraseIdx i }.count Key.detourStallDrops 1)) ∧
    (∀ (n : Setting) (m : Nat), m < 24 → meshAdjacent n.val m = true → (min n.val m, max n.val m) ∉ s.meshOut →
      ∃ t, exec (.meshLinkOut n m) s = .next t ∧ t.meshOut = s.meshOut ++ [(min n.val m, max n.val m)] ∧
        Counted s t (Key.meshLinksOut n.val) 1 ∧ Counted s t (Key.meshLinksOut m) 1 ∧
        Counted s t (Key.meshCrcRetries n.val) 64 ∧ Counted s t (Key.meshCrcRetries m) 64)

/-- UPDATE and LEDGER_SET join their unit's queue, program and table PUTs take effect, and a COMMIT completes, waits or is refused by its step (R291, R293, R294, R295, R296, R297). -/
def Obligations.TroyCommandsArrive : Prop :=
  ∀ (x : Packet) (s : State), Arrives s 1 none x → epTroy x.destEp.toNat = true → Admitted s x → x.srcNode.toNat = s.node →
    epCore x.srcEp.toNat = true →
    let n := x.destEp.toNat - 0x2100
    let r := leNat x.payload
    let v := s.troy n
    s.settingFenced n = false → mNotify x.fields.toNat = false →
    (∀ c, isTroyCmd x 1 = true ∧ c = .troyUpdate x ∨ isTroyCmd x 3 = true ∧ c = .ledgerSet x →
      (v.queue.length < 64 → ∃ t, exec c s = .next t ∧ Answered s t x 0 ∧ t.troy n = { v with queue := v.queue ++ [r] } ∧
        t.cores = s.cores ∧ t.hbms = s.hbms ∧ ∀ m, m ≠ n → t.troy m = s.troy m) ∧
      (64 ≤ v.queue.length → ∃ t, exec c s = .next t ∧ Answered s t x 4 ∧ t.troys = s.troys ∧ Counted s t (Key.troyQueueFull n) 1 ∧
        t.cores = s.cores)) ∧
    (∀ c, troyPutKind x = some 1 ∧ c = .troyProgramPut x ∨ troyPutKind x = some 2 ∧ c = .troyConstPut x →
      (v.uses x = false → ∃ t, exec c s = .next t ∧ Answered s t x 0 ∧ t.cores = s.cores ∧ (t.troy n).queue = v.queue ∧
        (troyPutKind x = some 1 → look ((x.offset.toNat - 0x10000) / 128) (t.troy n).programs = some r ∧ (t.troy n).consts = v.consts) ∧
        (troyPutKind x = some 2 → look ((x.offset.toNat - 0x20000) / 256) (t.troy n).consts = some r ∧ (t.troy n).programs = v.programs)) ∧
      (v.uses x = true → ∃ t, exec c s = .next t ∧ t.dups = s.dups ∧ t.cores = s.cores ∧ (t.troy n).programs = v.programs ∧
        (t.troy n).consts = v.consts ∧ (t.troy n).queue = v.queue)) ∧
    (∀ q, isTroyCmd x 2 = true → tRerun r = false → tResult r % 32 = 0 → s.physOf (tCore r) = some q → s.coreHeld q = false →
      let ends := fun st : Nat => ∃ t, exec (.troyCommit x) s = .next t ∧ Answered s t x 0 ∧ t.commits = s.commits ∧ t.seq = s.seq ∧
        (t.core q).sp = (s.core q).sp.writeN (tResult r) (troyRecord r st TroyCounts.none) ∧
        (∀ i, (t.core q).ctr i = if i = tCtr r then ((s.core q).ctr i + 1) % 2 ^ 32 else (s.core q).ctr i) ∧
        (∀ j, j ≠ q → t.core j = s.core j) ∧ (st = 5 → Counted s t Key.commitRefused 1)
      let waits := fun armed : Bool => ∃ t, exec (.troyCommit x) s = .next t ∧ Answered s t x 0 ∧ t.cores = s.cores ∧
        t.commits = s.commits ++ [{ setting := n, cmd := r, armed := armed }]
      (s.seq.released = some (tStep r) → ends 0) ∧
      (s.seq.released ≠ some (tStep r) →
        (s.seq.isOpen = true → s.seq.step = tStep r → waits true) ∧
        (s.seq.isOpen = false → waits false) ∧
        (s.seq.isOpen = true → s.seq.step ≠ tStep r → s.seq.step = (tStep r + 2 ^ 32 - 1) % 2 ^ 32 → waits false) ∧
        (s.seq.isOpen = true → s.seq.step ≠ tStep r → s.seq.step ≠ (tStep r + 2 ^ 32 - 1) % 2 ^ 32 → ends 5)))

/-- A Troy unit starts its head command once its step is released, updates each block at most once, and completes with its record (R292, R294, R297, R299, R300, R303, R304). -/
def Obligations.TroyCommandsRun : Prop :=
  ∀ (n : Setting) (r : Nat) (rest : List Nat) (s : State),
    let v := s.troy n.val
    v.queue = r :: rest → s.troyOpen n.val = true →
    (v.running = none →
      let starts := fun st : Nat => ∃ t, exec (.troyCommandStart n) s = .next t ∧ t.troy n.val = { v with running := some st } ∧ t.cores = s.cores
      (tCmd r = 3 → starts (if s.troyBasic n.val r then 0 else 1)) ∧
      (∀ k, tCmd r ≠ 3 → s.seq.released = some k →
        (k = tStep r → starts (s.updateStatus n.val r).2) ∧
        (k ≠ tStep r → reached k ((tStep r + 1) % 2 ^ 32) = true → starts 6)) ∧
      (tCmd r ≠ 3 → (∀ k, s.seq.released = some k → k ≠ tStep r ∧ reached k ((tStep r + 1) % 2 ^ 32) = false) →
        ∃ t, exec (.troyCommandStart n) s = .next t ∧ t.troys = s.troys ∧ t.cores = s.cores ∧ t.hbms = s.hbms)) ∧
    (∀ st q, v.running = some st → v.heldPuts = [] → tResult r % 32 = 0 → s.physOf (tCore r) = some q → s.coreHeld q = false →
      let ends := fun (status : Nat) (k : TroyCounts) (post : State → Prop) => ∃ t, exec (.troyCommandComplete n) s = .next t ∧
        t.troy n.val = { v with queue := rest, running := none, heldPuts := [] } ∧
        (t.core q).sp = (s.core q).sp.writeN (tResult r) (troyRecord r status k) ∧
        (∀ i, (t.core q).ctr i = if i = tCtr r then ((s.core q).ctr i + 1) % 2 ^ 32 else (s.core q).ctr i) ∧
        (∀ j, j ≠ q → t.core j = s.core j) ∧ Counted s t (Key.troyCommands n.val) 1 ∧ post t
      (st ≠ 0 → ends st TroyCounts.none (fun t => t.hbms = s.hbms)) ∧
      (st = 0 → tCmd r = 3 → ends 0 TroyCounts.none (fun t => t.hbms = (s.ledgerSet n.val r).hbms)) ∧
      (∀ bs, st = 0 → tCmd r = 1 → tVerdict r ≠ 0 ∨ updateShards r = [] → 1 ≤ tCount r → tCount r ≤ 4096 →
        (s.hbmRead n.val (s.ledgerAt n.val (tLedger r)) 8).2 = some bs → bit (leNat bs) 63 = true → fld (leNat bs) 32 16 = tBucket r →
        fld (leNat bs) 0 32 = tStep r → (∀ w ∈ (s.stack n.val).wcb, s.troyWho n.val ∉ w.writers) →
        ends 0 { TroyCounts.none with skipped := 1 } (fun t => t.hbms = s.hbms ∧ Counted s t (Key.troyBlocksLedgerSkipped n.val) 1)) ∧
      (∀ bs x, st = 0 → tCmd r = 1 → tVerdict r = 0 → 1 ≤ tCount r → tCount r ≤ 4096 →
        let at_ := s.ledgerAt n.val (tLedger r)
        let ws := s.troyProgram n.val r
        let bank := bit (leNat bs) 48
        let l := s.hbmRead n.val at_ 8
        let rd := l.1.readBlock n.val r 0 (tCount r) (if bank then tBankOffset r else 0) ws
        let dest := if bank then 0 else tBankOffset r
        let ins := x.inputs r (s.troyKs n.val r)
        let w := blockWrites r 0 dest ws ins
        let masters := ins.map (fun e => caratAdd e.2 (microRun ws e.1).1)
        l.2 = some bs → bit (leNat bs) 63 = true → fld (leNat bs) 32 16 = tBucket r →
        fld (leNat bs) 0 32 = (tStep r + 2 ^ 32 - 1) % 2 ^ 32 → rd.2 = some x →
        let body := (w.1.foldl (fun u a => u.troyWrite n.val (devOffset a.1) a.2) rd.1).troyFlush n.val
        let entry := (body.troyWrite n.val at_ (ledgerEntry (tStep r) (tBucket r) (!bank))).troyFlush n.val
        w.1.head? = some (tMaster r + dest, masters.flatMap (leBytes 6)) ∧
        (tBf16 r = true → (tBf16Shard r + 64 + 2 * tShardElem r,
          masters.flatMap (fun c => leBytes 2 (fBF16.convert .rna (ofCarat c)).code)) ∈ w.1) ∧
        w.2.1 = (masters.filter (fun c => !(ofCarat c).isFin)).length ∧
        ends 0 { TroyCounts.none with updated := 1, nonfin := w.2.1 } (fun t =>
          t.hbms = ((entry.writeVersions n.val r (updateShards r).length).troyFlush n.val).hbms
            ∧ Counted s t (Key.troyBlocksUpdated n.val) 1)))

/-- The write-combining timeout and the scrub rewrite a line as the manual says, and the commit barrier releases its step once (R290, R318, R326, R328). -/
def Obligations.ControllersAndBarrier : Prop :=
  ∀ (n : Setting) (l : Nat) (s : State),
    let x := s.stack n.val
    let pc := (x.place l).1
    let data := x.mem.readN (64 * l) 64
    s.packageHeld = false →
    (x.entryOf l = none → exec (.wcbTimeoutExpiry n l) s = .next s) ∧
    (∀ w, x.entryOf l = some w → w.bytes.length ≠ 64 → x.lineErrors l = [] → x.down.contains pc = false →
      ∃ t, exec (.wcbTimeoutExpiry n l) s = .next t ∧ (t.stack n.val).mem = x.mem.writeN (64 * l) (overlay data (some w)) ∧
        (t.stack n.val).entryOf l = none ∧ Counted s t (Key.hbmWcbRmw n.val) 1 ∧ t.cores = s.cores) ∧
    (s.get Key.scrubPeriod = 0 → exec (.scrubRead n l) s = .next s) ∧
    (s.get Key.scrubPeriod ≠ 0 → s.controllerOpen n.val = true → 64 * l < x.capacity → x.down.contains pc = false →
      (x.lineErrors l = [] → exec (.scrubRead n l) s = .next (s.count (Key.hbmReads n.val) 1)) ∧
      (∀ e, x.lineErrors l = [e] → ∃ t, exec (.scrubRead n l) s = .next t ∧ (t.stack n.val).mem = x.mem.writeN (64 * l) data ∧
        (t.stack n.val).errors = drop' l x.errors ∧ (t.stack n.val).wcb = x.wcb ∧ Counted s t (Key.hbmScrubWritebacks n.val) 1 ∧
        Counted s t (Key.hbmPcCorrected n.val pc) 1 ∧ t.cores = s.cores)) ∧
    (let due := s.seq.isOpen = true ∧ s.seq.unfinished = false ∧ ∃ c ∈ s.commits, c.armed = true ∧ tStep c.cmd = s.seq.step
     (¬ due → exec .commitBarrierRelease s = .next s) ∧
     (due → ∃ t, exec .commitBarrierRelease s = .next t ∧ t.seq = { s.seq with released := some s.seq.step } ∧
       Counted s t Key.commitReleases 1 ∧ ∀ c, c ∈ t.commits ↔ c ∈ s.commits ∧ tStep c.cmd ≠ s.seq.step))

/-- A good frame of a trained link is taken in order: data, credits, neighbour state, neighbour record and time; a bad one is counted (R339, R340, R341, R343, R350, R353, R359). -/
def Obligations.FramesReceived : Prop :=
  ∀ (l : Link) (f : Frame) (s : State), s.packageHeld = false → 3 ≤ (s.link l.val).st → (∀ j, (s.link j).txq = []) → s.waiting = [] →
    let x := s.link l.val
    let n := l.val
    let counts := fun (c : Instr) (e : Ent) => ∃ t, exec c s = .next t ∧ Counted s t e 1 ∧ (t.link n).expect = x.expect ∧
      (t.link n).streams = x.streams
    counts (.xflCrcError l f) (Key.xflCrcErrors n) ∧
    (frameOk f = false →
      (f.ftype = 0 → counts (.xflDataFrame l f) (Key.xflCrcErrors n)) ∧ (f.ftype = 1 → counts (.xflIdleFrame l f) (Key.xflCrcErrors n)) ∧
      (f.ftype = 2 → ∀ (st : BitVec 8) (port : BitVec 4), ctypeOf f.body = 2 → stateRead f.body = (st.toNat, port.toNat) →
        counts (.stateFrame l f st port) (Key.xflCrcErrors n)) ∧
      (f.ftype = 2 → ∀ b : TimeBody, ctypeOf f.body = 3 → timeRead f.body = b → counts (.timeFrame l f b) (Key.xflCrcErrors n)) ∧
      (f.ftype = 2 → ∀ r : NbRecord, ctypeOf f.body = 1 → nbRead f.body = r → counts (.neighbourFrame l f r) (Key.xflCrcErrors n))) ∧
    (frameOk f = true → f.nak = false →
      (f.ftype = 0 → x.st = 5 →
        let below := (x.expect + 65536 - f.seq.toNat) % 65536
        let r := cutPackets 300 ((look f.vc.toNat x.streams).getD [] ++ f.body.take f.bodyLen.toNat)
        (below = 0 → ∃ t, exec (.xflDataFrame l f) s = .next t ∧ (t.link n).expect = (x.expect + 1) % 65536 ∧
          look f.vc.toNat (t.link n).streams = some r.2 ∧ Counted s t (Key.xflFramesRx n) 1 ∧
          t.out = s.out ++ r.1.map (fun p => .received ((s.portOf n).getD 0) p) ∧
          t.inbound = s.inbound ++ r.1.map (fun p => ((s.portOf n).getD 0, p))) ∧
        (below ≠ 0 → below ≤ 256 → counts (.xflDataFrame l f) (Key.xflDuplicates n)) ∧
        (256 < below → ∃ t, exec (.xflDataFrame l f) s = .next t ∧ (t.link n).expect = x.expect ∧ (t.link n).streams = x.streams ∧
          (t.link n).nakDue = (x.nakSent != some x.expect) ∧ t.out = s.out)) ∧
      (f.ftype = 1 → ∃ t, exec (.xflIdleFrame l f) s = .next t ∧ Counted s t (Key.xflFramesRx n) 1 ∧ (t.link n).expect = x.expect ∧
        (t.link n).credit f.creditVc.toNat = x.credit f.creditVc.toNat + 32 * f.credits.toNat) ∧
      (f.ftype = 2 → ∀ (st : BitVec 8) (port : BitVec 4), ctypeOf f.body = 2 → stateRead f.body = (st.toNat, port.toNat) →
        ∃ t, exec (.stateFrame l f st port) s = .next t ∧ (t.link n).nbState = st.toNat ∧ (t.link n).expect = x.expect) ∧
      (f.ftype = 2 → ∀ (b : TimeBody) (q : Nat), ctypeOf f.body = 3 → timeRead f.body = b → s.portOf n = some q → x.st = 5 →
        ∃ t, exec (.timeFrame l f b) s = .next t ∧ (t.link n).echoTx = b.txTime.toNat ∧ (t.link n).echoRx = s.ftime ∧
          (t.port q).hops = b.hops.toNat) ∧
      (f.ftype = 2 → ∀ (r : NbRecord) (q : Nat), ctypeOf f.body = 1 → nbRead f.body = r → s.portOf n = some q → x.st = 4 →
        r.major.toNat = s.get Key.xflVersion / 256 → (∀ o ∈ s.otherRecords q n, o.serial = r.serial ∧ o.port = r.port) →
        s.loopback q r = false → s.expected q r = true →
        ∃ t, exec (.neighbourFrame l f r) s = .next t ∧ (t.link n).st = 5 ∧ (t.link n).record = some r ∧ (t.port q).record = some r))

/-- The events and timers of a link move it between its states and send what R350, R351 and R357 say (R338, R344, R346, R348, R350, R351, R357). -/
def Obligations.LinkEvents : Prop :=
  ∀ (l : Link) (q : Nat) (s : State), s.packageHeld = false → s.portOf l.val = some q →
    let x := s.link l.val
    let n := l.val
    let goes := fun (c : Instr) (post : State → Prop) => ∃ t, exec c s = .next t ∧ t.cores = s.cores ∧ t.hbms = s.hbms ∧ post t
    (if x.st = 2 then goes (.phyTrainDone l) (fun t => (t.link n).st = 3 ∧ (t.link n).expect = 0 ∧ (t.link n).txSeq = 0 ∧ (t.link n).replay = [])
      else exec (.phyTrainDone l) s = .next s) ∧
    (∀ skew, (x.st = 3 → skew ≤ 128 → goes (.xflSyncDone l skew) (fun t => (t.link n).st = 4 ∧
        ∀ v, v < 12 → (t.link n).credit v = s.get Key.vcBufferBytes)) ∧
      (x.st = 3 → 128 < skew → goes (.xflSyncDone l skew) (fun t => (t.link n).st = 3 ∧ Counted s t (Key.linkSkewFails n) 1)) ∧
      (x.st ≠ 3 → exec (.xflSyncDone l skew) s = .next s)) ∧
    (if 2 ≤ x.st ∧ x.st ≤ 4 then goes (.linkTrainTimeLimit l) (fun t => (t.link n).st = 1 ∧ Counted s t (Key.linkTrainFails n) 1)
      else exec (.linkTrainTimeLimit l) s = .next s) ∧
    (if 3 ≤ x.st then goes (.linkDown l) (fun t => (t.link n).st = 1 ∧ (t.link n).credits = [] ∧ (t.link n).replay = [] ∧
        (t.link n).record = none ∧ Counted s t (Key.linkDowns n) 1)
      else exec (.linkDown l) s = .next s) ∧
    (if x.st = 1 ∧ s.portEnabled q = true then goes (.linkRetrainHoldoffExpiry l) (fun t => (t.link n).st = 2)
      else exec (.linkRetrainHoldoffExpiry l) s = .next s) ∧
    goes (.stateFrameTimer l) (fun t => ∃ f, t.out = s.out ++ [.frame n f] ∧ f.ftype = 2 ∧ f.body = stateBody x.st q) ∧
    (if x.st = 4 ∨ x.st = 6 ∨ x.st = 7 then
        goes (.neighbourFrameTimer l) (fun t => ∃ f, t.out = s.out ++ [.frame n f] ∧ f.ftype = 2 ∧ f.body = nbBody (s.nbRecord q n))
      else exec (.neighbourFrameTimer l) s = .next s) ∧
    (q < 16 → (s.activeLinks q).head? = some n → goes .timeSyncTimer (fun t => ∃ f, Output.frame n f ∈ t.out ∧ f.ftype = 2)) ∧
    (if x.replay = [] then exec (.xflAckTimeout l) s = .next s
      else goes (.xflAckTimeout l) (fun t => Counted s t (Key.xflAckTimeouts n) 1)) ∧
    (∀ (w : BitVec 8) (a b : Nat), goes (.fecSecond l w a b) (fun t => t.get (Key.fecWorstCw n) = w.toNat ∧
      Counted s t (Key.fecCorrectedSymbols n) a ∧ Counted s t (Key.fecUncorrectable n) b))

/-- Table, port, job and flash commands take effect when the lead service controller answers and their condition holds (R347, R354, R389, R390, R468, R469, R470, R473). -/
def Obligations.ManagementWrites : Prop :=
  ∀ (s : State), s.leadAnswers = true → s.get Key.pkgState = 1 →
    let done := fun (c : Instr) (post : State → Prop) => ∃ t, exec c s = .next t ∧ Counted s t Key.dictWrites 1 ∧ post t
    let refused := fun (c : Instr) => ∃ t, exec c s = .next t ∧ Counted s t Key.dictWritesRefused 1 ∧ t.tableState 0 = s.tableState 0 ∧
      t.tableState 1 = s.tableState 1 ∧ t.get Key.jobState = s.get Key.jobState
    (∀ v : Fin 2, s.tableState v.val = 0 → s.tableState (1 - v.val) = 2 → done .tableSeal (fun t => t.tableState v.val = 1)) ∧
    (∀ v : Fin 2, s.tableState v.val = 1 → s.tableState (1 - v.val) ≠ 1 → s.ctxWaiters = [] → (∀ x ∈ s.colls, x.2.fail = none) →
      done .tableFlip (fun t => t.tableState v.val = 2 ∧
      t.tableState (1 - v.val) = 3 ∧ ∀ a, a < 4 → t.get (Key.groupFormed a) = 0)) ∧
    (∀ v : Fin 2, s.tableState v.val = 3 → s.tableState (1 - v.val) ≠ 3 → s.resident v.val = 0 →
      done .tableRetire (fun t => t.tableState v.val = 0)) ∧
    (∀ v : Fin 2, s.tableState v.val = 1 → s.tableState (1 - v.val) ≠ 1 → s.resident v.val = 0 →
      done .tableUnseal (fun t => t.tableState v.val = 0)) ∧
    (∀ v : Fin 2, s.resident v.val ≠ 0 → (s.tableState v.val = 3 → s.tableState (1 - v.val) ≠ 3 → refused .tableRetire) ∧
      (s.tableState v.val = 1 → s.tableState (1 - v.val) ≠ 1 → refused .tableUnseal)) ∧
    (∀ v : Fin 2, s.tableState v.val = 0 → s.tableState (1 - v.val) ≠ 0 → s.tableState (1 - v.val) ≠ 2 → refused .tableSeal) ∧
    (s.tableIn 0 = none → refused .tableSeal) ∧ (s.tableIn 1 = none → refused .tableFlip ∧ refused .tableUnseal) ∧
    (s.tableIn 3 = none → refused .tableRetire) ∧
    (∀ (q : Port) (v : BitVec 32), s.portIdle q.val = true → s.linkMaskOk q.val v.toNat = true →
      done (.portLinkMask q v) (fun t => t.portMask q.val = v.toNat)) ∧
    (∀ (q : Port) (v : BitVec 8), s.portIdle q.val = true → v.toNat ≤ 4 → done (.portAxis q v) (fun t => t.portAxis q.val = v.toNat)) ∧
    (∀ (q : Port) (v : BitVec 64), done (.portExpectSerial q v) (fun t => t.get (Key.portExpectSerial q.val) = v.toNat)) ∧
    (∀ (q : Port) (v : BitVec 8), done (.portExpectPort q v) (fun t => t.get (Key.portExpectPort q.val) = v.toNat)) ∧
    (∀ (q : Port) (v : BitVec 8), v.toNat ≤ 1 → done (.portEnable q v) (fun t => t.get (Key.portEnable q.val) = v.toNat)) ∧
    (∀ v : BitVec 8, v.toNat ≤ 1 → done (.topoMode v) (fun t => t.get Key.topoMode = v.toNat)) ∧
    (s.get Key.jobState = 0 → done .jobStart (fun t => t.get Key.jobState = 1 ∧ t.get Key.jobStartTime = s.ftime)) ∧
    (s.get Key.jobState = 1 → refused .jobStart ∧ done .jobStop (fun t => t.get Key.jobState = 0)) ∧
    done (.dictFlashRestore 1) (fun t => t.flashRestore = true) ∧
    (∀ (i : BitVec 16) (k : BitVec 8),
      let key := 256 * i.toNat + k.toNat
      ((look key s.flashDue = none → exec (.dictFlashStore i k) s = .next s) ∧
       (look key s.flashDue ≠ none → ∃ t, exec (.dictFlashStore i k) s = .next t ∧ t.flashDue = drop' key s.flashDue ∧
         Counted s t Key.dictFlashCommits 1)) ∧
      exec (.dictStagingTimeout i k) s = .next { s with staging := drop' key s.staging })

/-- The CHP handshake opens and refuses sessions, and acknowledgements, timers and CLOSE keep and end them (R430, R432, R433, R435, R437, R446). -/
def Obligations.HostSessions : Prop :=
  ∀ (s : State), s.portOpen = true →
    (∀ (head : ChpHead) (hello : List Byte), ChpTaken s head 1 hello → head.session = 0xFF → s.get Key.pkgState = 1 → hello.length = 146 → (hello.getD 88 0).toNat ≤ 3 →
      (∀ x ∈ s.host.sessions, x.2.nonce ≠ (hello.drop 56).take 32) →
      (∀ n, n < 64 → s.session n = none → (∀ m, m < n → (s.session m).isSome = true) → ∃ t x bytes frame, exec (.chpHello head hello) s = .next t ∧
        t.session n = some x ∧ x.finished = false ∧ x.peer = head.peer ∧ x.maxData = 1024 * 2 ^ (hello.getD 88 0).toNat ∧
        x.hostKey = hello.drop 89 ∧ x.nonce = (hello.drop 56).take 32 ∧ x.unacked = [] ∧ t.out = s.out ++ [.chp head.peer bytes frame]) ∧
      ((∀ n, n < 64 → (s.session n).isSome = true) → ∃ t, exec (.chpHello head hello) s = .next t ∧ t.host.sessions = s.host.sessions ∧
        Counted s t Key.chpSessionsRefused 1)) ∧
    (∀ (head : ChpHead) (sig : List Byte) (x : Session), ChpTaken s head 3 sig → sig.length = 114 → s.session head.session.toNat = some x →
      x.finished = false → x.peer = head.peer →
      (s.finishOk x sig = true → ∃ t, exec (.chpFinish head sig) s = .next t ∧ t.session head.session.toNat = some { x with finished := true } ∧
        ∀ m, m ≠ head.session.toNat → t.session m = s.session m) ∧
      (s.finishOk x sig = false → ∃ t, exec (.chpFinish head sig) s = .next t ∧
        t.host.sessions = drop' head.session.toNat s.host.sessions ∧ Counted s t Key.chpSessionsRefused 1)) ∧
    (∀ (head : ChpHead) (u : State), Taken s head 4 [] u → ∃ t, exec (.chpClose head) s = .next t ∧
      t.host.sessions = drop' head.session.toNat u.host.sessions) ∧
    (∀ head : ChpHead, ChpTaken s head 5 [] →
      let w := s.took head.wire
      (w.tagged head [] = none → exec (.ackOnly head) s = .next (w.count Key.chpTagFailures 1)) ∧
      (∀ x v rest, w.tagged head [] = some x → head.ackValid = true → head.ecnEcho = false → head.sack = 0 → x.waiting = [] →
        x.unacked = v :: rest → (∀ w ∈ x.unacked, w.2.2.2.2 = false) →
        let k := (head.ack.toNat + 2 ^ 32 - v.1) % 2 ^ 32
        k ≤ x.unacked.length → ∃ t y, exec (.ackOnly head) s = .next t ∧ t.session head.session.toNat = some y ∧
          y.unacked = x.unacked.drop k)) ∧
    (∀ n, s.session n = none → ∀ c, c = .chpFinishTimeout n ∨ c = .chpAckDelayExpiry n ∨ c = .chpRtoExpiry n ∨ c = .chpRetxLimit n ∨
      c = .chpIdleTimeout n ∨ c = .chpRateRaise n → exec c s = .next s) ∧
    (∀ n x, s.session n = some x →
      let lost := fun c : Instr => ∃ t, exec c s = .next t ∧ t.host.sessions = drop' n s.host.sessions ∧ Counted s t Key.chpSessionsLost 1
      let spent := ∃ v ∈ x.unacked, v.2.2.2.2 = false ∧ s.get Key.chpRetxLimit < v.2.2.2.1
      (x.finished = false → ∃ t, exec (.chpFinishTimeout n) s = .next t ∧ t.host.sessions = drop' n s.host.sessions) ∧
      (x.finished = true → exec (.chpFinishTimeout n) s = .next s) ∧
      (x.finished = true → x.ackDue = true → ∃ t y bytes frame, exec (.chpAckDelayExpiry n) s = .next t ∧ t.session n = some y ∧
        y.ackDue = false ∧ t.out = s.out ++ [.chp x.peer bytes frame]) ∧
      (x.ackDue = false → exec (.chpAckDelayExpiry n) s = .next s) ∧
      (∀ seq type bs k, x.unacked = [(seq, type, bs, k, false)] → k ≤ s.get Key.chpRetxLimit →
        let due := ∀ a, look seq x.sentAt = some a → a + 1000 * s.get Key.chpRto ≤ s.ftime
        let served := ∀ a, type = 0x12 → look (fld (leNat (bs.take 16)) 0 32) x.reads = some a → s.controllerOpen (devSetting a) = true
        (due → served → ∃ t y, exec (.chpRtoExpiry n) s = .next t ∧
          t.session n = some y ∧ y.unacked = [(seq, type, bs, k + 1, false)] ∧ Counted s t Key.chpRetransmits 1) ∧
        (¬ due → exec (.chpRtoExpiry n) s = .next s)) ∧
      (spent → lost (.chpRetxLimit n)) ∧ (¬ spent → exec (.chpRetxLimit n) s = .next s) ∧
      (x.finished = true → lost (.chpIdleTimeout n)) ∧
      (∃ t, exec (.chpRateRaise n) s = .next t ∧ t.session n = some { x with rate := min 1600000000000 (x.rate + 2000000000) } ∧ t.cores = s.cores))

/-- WRITE, READ and their data move bytes between host and HBM, and DICT_READ and DICT_WRITE reach the dictionary (R436, R438, R439, R440, R441, R448). -/
def Obligations.HostTransfers : Prop :=
  ∀ (head : ChpHead) (record : BitVec 512) (s w : State), Requested s head record [] w →
    let v := record.toNat
    let n := head.session.toNat
    let id := qId v
    let setting := devSetting (qAddr v)
    let replies := fun (c : Instr) (op status d0 d1 : Nat) => ∃ t, exec c s = .next t ∧ Replied w t n id op status d0 d1
    (qOp v = 1 →
      (w.rangeStatus v true ≠ 0 → replies (.chpWrite head record) 1 (w.rangeStatus v true) 0 0) ∧
      (w.rangeStatus v true = 0 → ∃ t, exec (.chpWrite head record) s = .next t ∧ t.host.reqs = w.host.reqs ++
        [{ session := n, record := v, landed := [], held := [], claim := none, detail1 := 0 }])) ∧
    (qOp v = 2 →
      (w.rangeStatus v false ≠ 0 → replies (.chpRead head record) 2 (w.rangeStatus v false) 0 0) ∧
      (∀ x bs, w.rangeStatus v false = 0 → (w.stack setting).lost = false → w.controllerOpen setting = true → w.session n = some x →
        qLen v ≤ x.maxData → x.waiting = [] → x.unacked.length + 2 ≤ w.get Key.chpWindow →
        (w.hbmRead setting (devOffset (qAddr v)) (qLen v)).2 = some bs →
        ∃ t y, exec (.chpRead head record) s = .next t ∧ t.session n = some y ∧ y.unacked = x.unacked ++
          [(x.txSeq, 0x12, leBytes 16 id ++ bs, 1, false),
           ((x.txSeq + 1) % 2 ^ 32, 0x11, replyRecord id 2 0 (qLen v) 0 w.ftime, 1, false)])) ∧
    (qOp v = 3 →
      let r := w.readEntry (fld v 64 16) (fld v 80 8)
      (r.2.1 = 0 → r.2.2.length ≤ 16 → replies (.dictRead head record) 3 0 (leNat (r.2.2.take 8)) (leNat ((r.2.2.drop 8).take 8))) ∧
      (r.2.1 = 1 → replies (.dictRead head record) 3 5 0 0) ∧ (r.2.1 = 2 → replies (.dictRead head record) 3 4 0 0)) ∧
    (qOp v = 4 →
      let len := fld v 88 8
      let r := w.dictWrite (fld v 64 16) (fld v 80 8) (leBytes len (fld v 256 256))
      (len = 0 ∨ 32 < len → replies (.dictWrite head record) 4 1 0 0) ∧
      (0 < len → len ≤ 32 → resetsPart v = true → replies (.dictWrite head record) 4 4 0 0) ∧
      (0 < len → len ≤ 32 → resetsPart v = false → r.2.2 = none → (r.1.session n).isSome = true → ∃ t, exec (.dictWrite head record) s = .next t ∧
        Replied r.1 t n id 4 (chpOfItem r.2.1) 0 0)) ∧
    (∀ (data : ChpHead) (payload : List Byte) (s2 u2 : State) (q : HostReq), Taken s2 data 0x12 payload u2 → data.session = head.session →
      u2.host.recording.st = 0 → u2.dataReq n (leNat (payload.take 4)) = some q → q.record = v → q.session = n → qOp v = 1 → q.landed = [] →
      q.held = [] → q.claim = none → qFlush v = false → leNat ((payload.drop 8).take 8) = 0 → payload.length = 16 + qLen v → qLen v % 64 = 0 →
      0 < qLen v → qLen v ≤ s2.maxData n → u2.maxData n = s2.maxData n → (u2.stack setting).lost = false → u2.controllerOpen setting = true →
      ∃ t, exec (.chpData data payload) s2 = .next t ∧ Replied u2 t n id 1 0 (qLen v) 0 ∧ t.host.reqs = u2.host.reqs.erase q ∧
        t.hbms = (u2.hostWrite (qAddr v) (payload.drop 16)).hbms)

/-- LOAD, CMDQ_BIND, CMD_PUSH, RING_CONFIG and RING_PUT act as R442 to R445 say (R439, R442, R443, R444, R445). -/
def Obligations.HostQueuesAndRings : Prop :=
  ∀ (head : ChpHead) (record : BitVec 512) (payload : List Byte) (s w : State), Requested s head record payload w →
    let v := record.toNat
    let n := head.session.toNat
    let replies := fun (c : Instr) (op status d0 d1 : Nat) => ∃ t, exec c s = .next t ∧ Replied w t n (qId v) op status d0 d1
    let clean := fun k : Nat => (w.stack k).lost = false ∧ w.controllerOpen k = true ∧ (w.stack k).errors = [] ∧ (w.stack k).down = []
    let ready := fun a len : Nat => devSetting a < 24 ∧ (w.stack (devSetting a)).readable (devOffset a) len = true ∧ clean (devSetting a)
    let good := lImage v % 64 = 0 ∧ lImageLen v % 4 = 0 ∧ lImageLen v ≠ 0 ∧ lImageLen v ≤ 65536 ∧ fld v 224 16 % 4 = 0 ∧
      fld v 240 16 % 4 = 0 ∧ lData v % 64 = 0 ∧ lDataLen v % 64 = 0 ∧ lDataLen v ≤ 0x200000 ∧ fld v 352 21 % 64 = 0 ∧
      fld v 224 16 + lImageLen v ≤ 65536 ∧ fld v 352 21 + lDataLen v ≤ 0x200000 ∧ ready (lImage v) (lImageLen v) ∧
      (lDataLen v ≠ 0 → ready (lData v) (lDataLen v))
    let atWork := ∀ c ∈ loadTargets v, ∀ p, w.physOf c = some p → ∀ j ∈ w.resets, domOverlap j.dom (1, 0, p) = false
    let still := Quiet w ∧ w.swaps = [] ∧ (∀ y ∈ w.host.cmdqs, y.2.pushes = [])
    let holds := fun (t : State) (p : Nat) => ∀ image data, still → (w.loadBytes v).2 = some (image, data) →
      (t.core p).ibuf.readN (fld v 224 16) (lImageLen v) = image ∧ (t.core p).sp.readN (fld v 352 21) (lDataLen v) = data
    (∀ c p, payload = [] → qOp v = 5 → bit v 95 = false → good → atWork → c ∈ loadTargets v → w.physOf c = some p →
      ∃ t, exec (.loadPrimary head record) s = .next t ∧ holds t p ∧ (t.core p).primary = startedCtx v ∧ (t.core p).onComp = false ∧
        (t.core p).mxe = Engine.fresh ∧ (t.core p).fge = Engine.fresh ∧ (t.core p).mse = Engine.fresh ∧ (t.core p).ctrs = []) ∧
    (∀ c p, payload = [] → qOp v = 5 → bit v 95 = true → good → atWork → c ∈ loadTargets v → w.physOf c = some p →
      ∃ t, exec (.loadCompanion head record) s = .next t ∧ ((w.core p).companionFree = true → holds t p) ∧ (t.core p).primary = (w.core p).primary ∧
        (t.core p).companion = (if (w.core p).companionFree then startedCtx v else (w.core p).companion)) ∧
    (payload = [] → qOp v = 6 →
      let q := fld v 64 4
      let chan := fld v 112 4
      let free := (∀ x, look q w.host.cmdqs = some x → x.session = n) ∧ ∀ x ∈ w.host.cmdqs, x.1 ≠ q → x.2.channel ≠ chan
      (bit v 80 = false → w.physOf (fld v 96 13) = none → replies (.cmdqBind head record) 6 1 0 0) ∧
      (bit v 80 = false → w.physOf (fld v 96 13) ≠ none → free → ∃ t x, exec (.cmdqBind head record) s = .next t ∧
        Replied w t n (qId v) 6 0 0 0 ∧ look q t.host.cmdqs = some x ∧ x.session = n ∧ x.core = fld v 96 13 ∧ x.channel = chan ∧
        x.credits = none) ∧
      (bit v 80 = false → w.physOf (fld v 96 13) ≠ none → ¬ free → replies (.cmdqBind head record) 6 9 0 0) ∧
      (∀ x, bit v 80 = true → look q w.host.cmdqs = some x → x.session = n → x.pushes = [] → ∃ t, exec (.cmdqUnbind head record) s = .next t ∧
        Replied w t n (qId v) 6 0 0 0 ∧ t.host.cmdqs = drop' q w.host.cmdqs)) ∧
    (∀ x id, qOp v = 7 → 0 < payload.length → payload.length ≤ w.maxData n - 64 → look (fld v 64 4) w.host.cmdqs = some x → x.session = n →
      x.credits = none → (∀ y ∈ w.host.cmdqs, y.2.pushes = []) → w.outstanding < 65536 → w.nextId = some id →
      ∃ t m, exec (.cmdPush head record payload) s = .next t ∧ look id t.msgs = some m ∧ m.owner = 65536 + fld v 64 4 ∧
        m.item.payload = payload ∧ m.item.head.op = 3 ∧ m.item.head.destEp = BitVec.ofNat 16 x.core ∧
        m.item.head.channel = BitVec.ofNat 4 x.channel ∧ m.item.head.cls = 0) ∧
    (payload = [] → qOp v = 8 → (w.ring (qRing v)).claims = [] → qBase v % 64 = 0 → 6 ≤ fld v 144 5 → fld v 144 5 ≤ 16 → fld v 152 4 ≠ 0 →
      w.physOf (fld v 160 13) ≠ none → devSetting (qBase v) < 24 →
      (w.stack (devSetting (qBase v))).writable (devOffset (qBase v)) (64 + 2 ^ (fld v 144 5 + fld v 152 4)) = true → clean (devSetting (qBase v)) →
      (bit v 70 = true → ∃ t, exec (.ringConfigEnable head record) s = .next t ∧ Replied w t n (qId v) 8 0 0 0 ∧
        t.ring (qRing v) = { enabled := true, base := qBase v, entryLog2 := fld v 144 5, countLog2 := fld v 152 4, core := fld v 160 13,
                             ctr := fld v 176 8, produced := 0, claims := [] } ∧
        t.hbms = (w.hostWrite (qBase v) (List.replicate 16 0)).hbms) ∧
      (bit v 70 = false → ∃ t, exec (.ringConfigDisable head record) s = .next t ∧ Replied w t n (qId v) 8 0 0 0 ∧
        t.ring (qRing v) = { w.ring (qRing v) with enabled := false } ∧ t.hbms = w.hbms)) ∧
    (∀ bs, payload = [] → qOp v = 9 →
      let x := w.ring (qRing v)
      let fill := (x.produced + x.claims.length + 2 ^ 64 - leNat bs) % 2 ^ 64
      x.enabled = true → qLen v % 64 = 0 → qLen v ≤ 2 ^ x.entryLog2 → 0 < qLen v → clean (devSetting x.base) →
      (w.devRead (x.base + 8) 8).2 = some bs →
      (fill < 2 ^ x.countLog2 → ∃ t, exec (.ringPut head record) s = .next t ∧
        t.ring (qRing v) = { x with claims := x.claims ++ [((x.produced + x.claims.length) % 2 ^ 64, false)] }) ∧
      (2 ^ x.countLog2 ≤ fill → replies (.ringPut head record) 9 6 0 (leNat bs)))

/-- RESET, RECORD and REPLAY requests act as R447, R449 and R450 say (R447, R449, R450). -/
def Obligations.HostControlRequests : Prop :=
  (∀ (head : ChpHead) (record : BitVec 512) (s w : State), Requested s head record [] w →
    let v := record.toNat
    let n := head.session.toNat
    let c := w.host.recording
    let replies := fun (i : Instr) (op status d0 d1 : Nat) => ∃ t, exec i s = .next t ∧ Replied w t n (qId v) op status d0 d1
    let records := fun (i : Instr) (c' : Recording) => ∃ t, exec i s = .next t ∧ t.host.recording = c' ∧
      Replied w t n (qId v) 11 0 c'.records.length 0
    (qOp v = 10 → bit v 64 = false → w.get Key.pkgState = 1 → w.startup.everReady = true → w.resets = [] →
      ∃ t j, exec (.chpResetWarm head record) s = .next t ∧ t.host.stopped = true ∧ t.get Key.pkgState = 0 ∧ t.resets = [j] ∧
        j.domain = 6 ∧ j.cause = 5 ∧ j.phase = .capture) ∧
    (qOp v = 10 → bit v 64 = true → ∃ t, exec (.chpResetCold head record) s = .next t ∧ t.startup.cause = 2 ∧
      t.cores = [] ∧ t.msgs = [] ∧ t.host.sessions = [] ∧ t.resets = []) ∧
    (qOp v = 11 →
      (fld v 64 2 = 0 → records (.recordStop head record) { c with st := 0 }) ∧
      (fld v 64 2 = 1 → records (.recordStartWrapping head record) { c with st := 1 }) ∧
      (fld v 64 2 = 2 → records (.recordStartStopFull head record) { c with st := 2 }) ∧
      (fld v 64 2 = 3 → records (.recordClear head record) { c with records := [], next := 0, number := 0 })) ∧
    (qOp v = 12 → bit v 65 = false →
      (c.st ≠ 0 → replies (.chpReplay head record) 12 3 0 0) ∧
      (c.st = 0 → c.records = [] → replies (.chpReplay head record) 12 0 0 0) ∧
      (c.st = 0 → c.records ≠ [] → ∃ t r, exec (.chpReplay head record) s = .next t ∧ t.host.replay = some r ∧ r.left = c.records ∧
        r.count = 0 ∧ r.paced = bit v 64 ∧ r.session = n ∧ t.host.recording = { c with st := 3 })) ∧
    (qOp v = 12 → bit v 65 = true →
      (w.host.replay = none → replies (.replayStop head record) 12 0 0 0) ∧
      (∀ r, w.host.replay = some r → ∃ t, exec (.replayStop head record) s = .next t ∧ t.host.replay = none ∧ t.host.recording.st = 0))) ∧
  ∀ s : State,
    (s.host.replay = none → exec .replayRecord s = .next s) ∧
    (∀ r, s.host.replay = some r →
      (r.left = [] → ∃ t, exec .replayRecord s = .next t ∧ t.host.replay = none ∧ t.host.recording.st = 0) ∧
      (∀ a len k time rest, r.left = (a, len, k, time) :: rest →
        (s.portOpen = false ∨ r.paced = true ∧ s.ftime < r.start + (time - r.first) → exec .replayRecord s = .next s) ∧
        (s.portOpen = true → r.paced = false ∨ r.start + (time - r.first) ≤ s.ftime → rest ≠ [] → (s.recordBytes a len).2 = none →
          ∃ t, exec .replayRecord s = .next t ∧ t.host.replay = some { r with left := rest, count := r.count + 1 } ∧ t.cores = s.cores) ∧
        (∀ bs, s.portOpen = true → r.paced = false ∨ r.start + (time - r.first) ≤ s.ftime → (s.recordBytes a len).2 = some bs →
          let on := { r with left := rest, count := r.count + 1 }
          let w := (s.recordBytes a len).1.updHost (fun x => { x with replay := some on })
          let h := leNat (bs.take 64)
          let n := 256 + fld h 24 8
          let v := leNat (((bs.drop 112).take (fld h 32 32 - 48)).take 64)
          let goes := fun post : State → Prop => ∃ t, exec .replayRecord s = .next t ∧ post t
          goes (fun _ => True) ∧
          (fld h 16 8 = 0x10 → rest ≠ [] → qOp v = 1 → w.rangeStatus v true = 0 → goes (fun t => t.host.replay = some on ∧ t.cores = s.cores ∧
            t.host.reqs = s.host.reqs ++ [{ session := n, record := v, landed := [], held := [], claim := none, detail1 := 0 }])) ∧
          (fld h 16 8 = 0x10 → rest ≠ [] → qOp v = 4 → 0 < fld v 88 8 → fld v 88 8 ≤ 32 → resetsPart v = false →
            let d := w.dictWrite (fld v 64 16) (fld v 80 8) (leBytes (fld v 88 8) (fld v 256 256))
            d.2.2 = none → goes (fun t => Counted d.1 t Key.replayRepliesDropped 1 ∧ t.host = d.1.host)))))

/-- The network protocols answer only for the own address, PTP steers fabric time, and the Chain claims, takes and loses its ID (R427, R428, R429, R452, R454, R456, R457, R458, R460, R465). -/
def Obligations.NetworkAndChain : Prop :=
  ∀ s : State,
    let own4 := s.get Key.hostIpv4
    let own6 := s.get Key.hostIpv6
    let answers := fun (c : Instr) (w : Wire) (bytes : List Byte) (mine : Prop) (o : HostFrame → Output) =>
      (s.portOpen = false → exec c s = .next s) ∧
      (s.portOpen = true → s.secGood w bytes = false → s.flag Key.macsecEnable = true → exec c s = .next (s.count Key.macsecDrops 1)) ∧
      (s.portOpen = true → s.secGood w bytes = true → wireGood w = false → exec c s = .next (s.count Key.hostRxDiscards 1)) ∧
      (FrameTaken s w bytes → mine → ∃ t f, exec c s = .next t ∧ t.out = s.out ++ [o f] ∧ t.dict = s.dict ∧ t.cores = s.cores) ∧
      (FrameTaken s w bytes → ¬ mine → exec c s = .next (s.took w))
    let backsOff := fun (t : State) => ∃ k, 1 ≤ k ∧ k ≤ 64 ∧ t.chain.claim = .backoff k
    let lost := fun (t : State) => t.get Key.chainId = 0 ∧ t.get Key.chainIdSource = 2 ∧ t.chain.claim = .listening 0 ∧
      Counted s t Key.chainIdConflicts 1
    let on := s.chainOn = true
    let port := s.get Key.ahmUdpPort
    (∀ (target sender : BitVec 32) (k : Asker), answers (.arpRequest target sender k) k.wire
      (netBytes target.toNat sender.toNat k.mac.toNat) (own4 ≠ 0 ∧ target.toNat = own4)
      (.net 0 sender.toNat (portMac ++ leBytes 4 own4 ++ leBytes 6 k.mac.toNat))) ∧
    (∀ (target sender : BitVec 128) (k : Asker),
      (k.chain = false → answers (.neighbourSolicitation target sender k) k.wire (netBytes target.toNat sender.toNat k.mac.toNat)
        (own6 ≠ 0 ∧ target.toNat = own6) (.net 1 sender.toNat (portMac ++ leBytes 16 own6 ++ leBytes 6 k.mac.toNat))) ∧
      (k.chain = true →
        (on → k.wire.vlans = 0 → k.wire.size ≤ 1518 → target.toNat = s.chainAddr →
          ∃ t bs, exec (.neighbourSolicitation target sender k) s = .next t ∧ t.chain.tx = s.chain.tx ++ [(sender.toNat, s.ftime, bs, 0)] ∧
            t.out = s.out ∧ t.dict = s.dict) ∧
        (target.toNat ≠ s.chainAddr → exec (.neighbourSolicitation target sender k) s = .next s))) ∧
    (∀ (v6 : Bool) (target sender : BitVec 128) (e : EchoFrame),
      let own := if v6 then own6 else own4
      answers (.icmpEcho v6 target sender e) e.wire (netBytes target.toNat sender.toNat 0 ++ e.payload) (own ≠ 0 ∧ target.toNat = own)
        (.net 2 sender.toNat e.payload)) ∧
    (∀ (domain : BitVec 8) (f : PtpFrame), FrameTaken s f.wire (ptpBytes domain.toNat f.message) →
      let mine := s.get Key.timeRole = 2 ∧ domain.toNat = s.get Key.ptpDomain
      let c := Instr.ptpMessage domain f
      (∀ q at_ corr, f.message = .sync q false at_ corr → mine →
        (s.host.ptp.delay = none → ∃ t n g, exec c s = .next t ∧ t.out = s.out ++ [.delayReq n (s.get Key.ptpDomain) g] ∧ t.ftime = s.ftime ∧
          t.host.ptp.sync = some ((at_ : Int) + corr, (s.ftime : Int)) ∧ t.host.ptpHeard = some s.ftime ∧ t.cores = s.cores) ∧
        (∀ d, s.host.ptp.delay = some d → s.everLocked = false → ∃ t, exec c s = .next t ∧ t.ftime = unsgn 64 ((at_ : Int) + corr + d) ∧
          t.everLocked = true ∧ Counted s t Key.timeSteps 1 ∧ t.get Key.timeState = 3 ∧ t.host.ptpHeard = some s.ftime ∧ t.cores = s.cores) ∧
        (∀ d, s.host.ptp.delay = some d → s.everLocked = true →
          ((at_ : Int) + corr + d - s.ftime).natAbs ≤ s.get Key.timeUnsyncLimit → ∃ t, exec c s = .next t ∧ t.ftime = s.ftime ∧
          t.rateLeft = (at_ : Int) + corr + d - s.ftime ∧ t.get Key.timeState = 3 ∧ t.host.ptpHeard = some s.ftime ∧ t.cores = s.cores)) ∧
      (∀ q at_ corr t1 t2 t3, f.message = .delayResp q at_ corr → mine → s.host.ptp.sync = some (t1, t2) →
        s.host.ptp.request = some (q.toNat, t3) → s.everLocked = true → ∃ t d, exec c s = .next t ∧ t.host.ptp.delay = some d ∧
          (2 * d - ((t2 - t1) + ((at_ : Int) - corr - t3))).natAbs ≤ 1 ∧ t.ftime = s.ftime ∧ t.cores = s.cores) ∧
      (¬ mine → exec c s = .next (s.took f.wire))) ∧
    (if s.portOpen = true ∧ s.get Key.timeRole = 2 ∧ (∀ h, s.host.ptpHeard = some h → h + 3000000000 ≤ s.ftime) then
        exec .ptpHoldover s = .next (s.set Key.timeState 2)
      else exec .ptpHoldover s = .next s) ∧
    (∀ a b : Bool,
      let c := Instr.plcaBeacon a b
      (s.chainOn = false → exec c s = .next s) ∧
      (on → s.get Key.chainId ≠ 0 → s.chain.claim = .held →
        let k := 1 + s.get Key.plcaMaxBurst
        let sent := fun due : List (Nat × Nat × Bool) => { s with
          out := s.out ++ (s.chain.tx.take k).map (fun f => Output.chain f.1 f.2.2.1 f.2.2.2)
          chain := { s.chain with tx := s.chain.tx.drop k, collisions := if a then s.chain.collisions + 1 else 0, resetsDue := due } }
        (s.chain.resetsDue = [] → exec c s = .next (sent [])) ∧
        (∀ m x, s.chain.resetsDue = [(m, x)] → exec c s = .next
          (if m ≤ min k s.chain.tx.length then (sent []).startPending (some x) else sent [(m - min k s.chain.tx.length, x)]))) ∧
      (on → s.get Key.chainId = 0 → s.chain.resetsDue = [] → ∃ t, exec c s = .next t ∧ t.out = s.out ∧ t.chain.tx = s.chain.tx ∧ t.dict = s.dict ∧
        (s.chain.claim = .listening 0 → t.chain.claim = .listening 1) ∧ (∀ n, s.chain.claim = .listening (n + 1) → backsOff t) ∧
        (∀ n, s.chain.claim = .backoff (n + 1) → t.chain.claim = .backoff n) ∧
        (∀ id src seq h, s.chain.claim = .watching id src seq h → t.chain.claim = .watching id src seq (h || b)))) ∧
    (s.packageHeld = false → s.chain.resetsDue = [] → ∃ t, exec .chainTxHoldTimeout s = .next t ∧ t.out = s.out ∧ (∀ f, f ∈ t.chain.tx ↔ f ∈ s.chain.tx ∧ s.ftime < f.2.1 + 100000000) ∧
      Counted s t Key.chainTxDiscards (s.chain.tx.countP (fun f => decide (f.2.1 + 100000000 ≤ s.ftime)))) ∧
    (∀ collision : Bool,
      (on → s.chain.claim = .backoff 0 → ∃ t seq, exec (.claimBackoffExpiry collision) s = .next t ∧
        t.out = s.out ++ [.chain 0 (s.ahmPayload 4 seq 0 0 []) port] ∧ Counted s t Key.chainClaims 1 ∧
        (collision = false → t.chain.claim = .claiming) ∧ (collision = true → Counted s t Key.chainClaimCollisions 1 ∧ backsOff t)) ∧
      (¬ (on ∧ s.chain.claim = .backoff 0) → exec (.claimBackoffExpiry collision) s = .next s)) ∧
    (on → s.chain.claim = .claiming → ∃ t, exec .claimTimeout s = .next t ∧ backsOff t ∧ t.out = s.out ∧ t.dict = s.dict) ∧
    (s.chain.claim ≠ .claiming → exec .claimTimeout s = .next s) ∧
    (∀ (head : AhmHead) (id : BitVec 8), s.hears head = true → head.magic = 0xA4E1 → head.version = 1 → head.type = 5 →
      let c := Instr.chainAssign head id
      (head.serial.toNat ≠ s.fuses.serial ∨ head.items ≠ 1 ∨ id.toNat = 0 ∨ 30 < id.toNat → exec c s = .next (s.count Key.ahmDiscards 1)) ∧
      (head.serial.toNat = s.fuses.serial → head.items = 1 → 1 ≤ id.toNat → id.toNat ≤ 30 → s.repeated head = none →
        ∃ t, exec c s = .next t ∧ Counted s t Key.ahmRequests 1 ∧ t.get Key.chainId = s.get Key.chainId ∧
          (s.get Key.chainId = id.toNat → t.chain.claim = s.chain.claim ∧
            t.chain.tx = s.chain.tx ++ [(head.src, s.ftime, s.ahmPayload 3 head.seq.toNat 0 0 [], port)]) ∧
          (s.get Key.chainId ≠ id.toNat → t.chain.tx = s.chain.tx ∧ t.chain.claim = .watching id.toNat head.src head.seq.toNat false))) ∧
    (∀ id src seq h, on → s.chain.claim = .watching id src seq h → ∃ t, exec .assignWatchEnd s = .next t ∧
      (h = false → t.get Key.chainId = id ∧ t.get Key.chainIdSource = 1 ∧ t.chain.claim = .held ∧
        t.chain.tx = s.chain.tx ++ [(src, s.ftime, s.ahmPayload 3 seq 0 0 [], port)] ∧ t.out = s.out) ∧
      (h = true → lost t ∧ t.chain.tx = s.chain.tx ++ [(src, s.ftime, s.ahmPayload 3 seq 1 0 [], port)] ∧ t.out = s.out)) ∧
    (s.chain.claim = .held → exec .assignWatchEnd s = .next s) ∧
    (if on ∧ s.get Key.chainId ≠ 0 ∧ s.get Key.chainIdSource = 0 ∧ 16 ≤ s.chain.collisions then
        ∃ t, exec .strappedIdConflict s = .next t ∧ lost t ∧ t.out = s.out
      else exec .strappedIdConflict s = .next s)

/-- AHM_READ, AHM_WRITE and ENUMERATE are checked, answered and remembered; ENTRY_WRITE and LOCKET_WINDOW_DATA follow their rules (R36, R461, R462, R463, R464, R465, R466, R469, R485, R494). -/
def Obligations.DictionaryRequests : Prop :=
  ∀ (head : AhmHead) (items : List Byte) (s : State),
    let n := head.items.toNat
    let requests : List (Instr × Bool × BitVec 8) :=
      [(.ahmRead head items, decide (4 * n ≤ items.length), 1), (.ahmWrite head items, (writeItems n items).isSome, 2),
       (.enumerate head items, decide (1 ≤ n) && decide (4 * n ≤ items.length), 6)]
    let whole := head.magic = 0xA4E1 ∧ head.version = 1 ∧ (head.serial = 0 ∨ head.serial.toNat = s.fuses.serial) ∧ items.length ≤ 1024
    let s1 := s.count Key.ahmRequests 1
    let replies := fun (c : Instr) (post : State → List Byte → Prop) => ∃ t a, exec c s = .next t ∧
      t.chain.tx = s.chain.tx ++ [(head.src, t.ftime, a, t.get Key.ahmUdpPort)] ∧ (head.src, head.seq.toNat, a) ∈ t.chain.answered ∧ post t a
    (s.hears head = true →
      (ahmTypes.contains head.type = false → ∀ r ∈ requests, exec r.1 s = .next (s.count Key.ahmDiscards 1)) ∧
      (¬ whole → ∀ r ∈ requests, head.type = r.2.2 → exec r.1 s = .next (s.count Key.ahmDiscards 1)) ∧
      (whole → ∀ a, s.repeated head = some a → ∀ r ∈ requests, head.type = r.2.2 → r.2.1 = true →
        exec r.1 s = .next { s.count Key.ahmDuplicates 1 with
          chain := { s.chain with tx := s.chain.tx ++ [(head.src, s.ftime, a, s.get Key.ahmUdpPort)] } }) ∧
      (whole → s.repeated head = none →
        (head.type = 1 → 4 * n ≤ items.length → s.get Key.locketWindowSetting < 24 → replies (.ahmRead head items) (fun t _ => Counted s t Key.ahmRequests 1 ∧ t.cores = s.cores)) ∧
        (∀ i k, head.type = 1 → n = 1 → 4 ≤ items.length → readItems 1 items = [(i, k)] →
          let gives := fun (status : Nat) (value : List Byte) => replies (.ahmRead head items) (fun _ a =>
            a = s.ahmPayload 3 head.seq.toNat 0 1 (answerItem i k status value))
          (s.entryRow i k = none → gives 1 []) ∧
          (∀ r, s.entryRow i k = some r → r.access = 2 → gives 2 []) ∧
          (∀ r, s.entryRow i k = some r → r.access ≠ 2 → 256 * i + k ≠ Key.locketWindowData.key →
            gives 0 (leBytes r.size (s1.entryNat r (i - r.index) (k - r.sub))))) ∧
        (∀ i k v, head.type = 2 → writeItems n items = some [(i, k, v)] →
          (i ≠ 0x8010 → replies (.ahmWrite head items) (fun t a => t.dict = (s1.dictWrite i k v).1.dict ∧
            a = s.ahmPayload 3 head.seq.toNat 0 1 (answerItem i k (s1.dictWrite i k v).2.1 []))) ∧
          (i = 0x8010 → k = 1 → v = leBytes 4 6 → s.get Key.pkgState ≠ 2 → replies (.ahmWrite head items) (fun t a =>
            a = s.ahmPayload 3 head.seq.toNat 0 1 (answerItem i k 0 []) ∧ t.resets = s.resets ∧ t.cores = s.cores ∧
            t.chain.resetsDue = s.chain.resetsDue ++ [(s.chain.tx.length + 1, (6, false))]))) ∧
        (head.type = 6 → 1 ≤ n → 4 * n ≤ items.length → replies (.enumerate head items) (fun t a => Counted s t Key.ahmRequests 1 ∧
          let v := leNat (items.take 4)
          let ds := descriptors (dictRows.filter (fun r => !s.hidden r.index && (bit v 24 || !r.expert))) 21 (256 * fld v 0 16 + fld v 16 8)
          a = s.ahmPayload 3 head.seq.toNat 0 (ds.length / 48) ds)))) ∧
    (∀ (index : BitVec 16) (sub : BitVec 8) (value : List Byte),
      let i := index.toNat
      let k := sub.toNat
      let c := Instr.entryWrite index sub value
      let refused := fun (status : Nat) => exec c s = .next { s.count Key.dictWritesRefused 1 with out := s.out ++ [.dict status []] }
      (s.leadAnswers = false → exec c s = .next s) ∧
      (s.leadAnswers = true →
        (s.entryRow i k = none → i < 0xF000 → refused 1) ∧
        (∀ r, s.entryRow i k = some r →
          (s.admits r i k = false → refused 2) ∧
          (s.admits r i k = true → value.length ≠ r.size → r.ty ≠ 8 → refused 4) ∧
          (s.admits r i k = true → value.length = r.size → s.inRange r i k (leNat value) = false → refused 3) ∧
          (s.admits r i k = true → value.length = r.size → s.inRange r i k (leNat value) = true → r.access ≠ 2 →
            ∃ t, exec c s = .next t ∧ t.get ⟨256 * i + k, r.dflt⟩ = leNat value &&& s.fieldMask i k ∧ t.out.getLast? = some (.dict 0 []) ∧
              Counted s t Key.dictWrites 1 ∧ t.fuses = s.fuses ∧ t.hbms = s.hbms)))) ∧
    (s.get Key.pkgState ≠ 2 →
      let m := s.get Key.locketWindowSetting
      let off := s.get Key.locketWindowOffset
      ∀ u bs, (s.stack m).lost = false → s.controllerOpen m = true → s.hbmRead m ((s.stack m).locketBase + off) 64 = (u, some bs) →
        ∃ t, exec .locketWindowData s = .next t ∧ t.out = u.out ++ [.dict 0 bs] ∧ t.get Key.locketWindowOffset = (off + 64) % 0x4000000 ∧
          t.cores = u.cores ∧ t.hbms = u.hbms)

/-- MACsec keys, updates, the commit of fuses, Signet reports and debug authorisation take effect as their entries say (R428, R518, R524, R526, R527, R530, R533). -/
def Obligations.KeysImagesAndDebug : Prop :=
  ∀ s : State, s.leadAnswers = true → s.get Key.pkgState = 1 →
    let frame := fun (t : State) => t.cores = s.cores ∧ t.hbms = s.hbms
    let done := fun (c : Instr) (post : State → Prop) => ∃ t, exec c s = .next t ∧ Counted s t Key.dictWrites 1 ∧ frame t ∧ post t
    let refused := fun (c : Instr) => exec c s = .next { s.count Key.dictWritesRefused 1 with out := s.out ++ [.dict 2 []] }
    let free := s.get Key.fwUpdateStatus ≠ 1
    let off := s.get Key.fwStageOffset
    let other := 1 - s.fw.running
    (∀ v : BitVec 360, v.toNat % 256 ≤ 3 → done (.macsecSak v) (fun t => look (v.toNat % 256) t.host.saks = some (leBytes 45 v.toNat))) ∧
    (∀ v : BitVec 256, done (.signetNonce v) (fun t => Counted s t Key.signetReports 1 ∧
      let body := s.reportBody (leBytes 32 v.toNat)
      let seed := shake256 ("XH-440 ID".toList.map (fun c => BitVec.ofNat 8 c.toNat) ++ s.fuses.seed) 57
      let sig := (ed448Sign seed (shake256 ([(4 : Byte)] ++ body) 64) ++ List.replicate 114 0).take 114
      ∀ i, i < 5 → t.get (Key.signetReport i) = leNat (((body ++ sig ++ List.replicate 14 0).drop (64 * i)).take 64))) ∧
    (free →
      done (.rollbackCommit 1) (fun t => t.fw = { s.fw with committing := true } ∧ t.fuses = s.fuses) ∧
      done (.rollbackCommit 0) (fun t => t.fw = s.fw ∧ t.fuses = s.fuses) ∧
      (s.fw.committing = true → let t := s.tickCommit
        t = s.tick ∨ t.fw = { s.fw with committing := false } ∧ t.fuses.svn = max s.fuses.svn s.fw.svn ∧ t.fuses.digests = s.fuses.digests ∧
          t.fuses.serial = s.fuses.serial ∧ ∀ k, bit t.fuses.revoked k =
            (bit s.fuses.revoked k || (decide (k < 4) && bit s.fw.revoke k && decide (k ≠ s.fw.keySlot)))) ∧
      (∀ v : BitVec 64, done (.fwUpdate v) (fun t => t.get Key.fwUpdateStatus = 1 ∧ t.fuses = s.fuses ∧
        t.fw = { s.fw with update := some (v.toNat % 2 ^ 40, 64 * (v.toNat / 2 ^ 40), other) })) ∧
      (∀ v : BitVec 256, off + 32 ≤ 0x1000000 → done (.fwStageData v) (fun t => t.get Key.fwStageOffset = off + 32 ∧ t.fuses = s.fuses ∧
        t.fw = s.fw.setSlot other ((s.fw.slot other).writeN off (leBytes 32 v.toNat))))) ∧
    (¬ free → refused (.rollbackCommit 1) ∧ ∀ (v : BitVec 64) (w : BitVec 256), refused (.fwUpdate v) ∧ refused (.fwStageData w)) ∧
    (∀ result : UpdateEnd,
      let ok := result.writeOk
      (s.fw.update = none → exec (.fwUpdateDone result) s = .next s) ∧
      (∀ a len k, s.fw.update = some (a, len, k) →
        let ends := fun (status : Nat) (post : State → Prop) => ∃ t, exec (.fwUpdateDone result) s = .next t ∧ t.get Key.fwUpdateStatus = status ∧
          t.fw.update = none ∧ t.cores = s.cores ∧ t.fuses = s.fuses ∧ post t
        let refuses := fun (status : Nat) (e : Ent) => ends status (fun t => Counted s t e 1 ∧ Counted s t Key.fwUpdateRefused 1 ∧
          t.get Key.fwNextSlot = s.get Key.fwNextSlot)
        let served := devSetting a < 24 → (s.stack (devSetting a)).lost = true ∨ s.controllerOpen (devSetting a) = true
        (served → ok = false → refuses 6 Key.fwUpdateRefused) ∧
        (served → ok = true → a ≠ 0xFFFFFFFFFF → (0x1000000 < len ∨ (s.fetchObject a len).2 = none) → refuses 3 Key.fwUpdateRefused) ∧
        (∀ u bs, served → ok = true →
          (a = 0xFFFFFFFFFF ∧ u = s ∧ bs = [] ∨ a ≠ 0xFFFFFFFFFF ∧ len ≤ 0x1000000 ∧ s.fetchObject a len = (u, some bs)) →
          let m := (s.fw.slot k).writeN 0 bs
          let v := { u with fw := u.fw.setSlot k m }.imageCheck k
          (v = 0 → ends 2 (fun t => t.get Key.fwNextSlot = k ∧ t.fw.slot k = m)) ∧
          (v = 1 → refuses 3 Key.bootImageInvalid) ∧ (v = 2 → refuses 4 Key.bootVerifyFails) ∧
          (v = 3 → refuses 4 Key.bootRevokedRefused) ∧ (v = 4 → refuses 5 Key.bootRollbackRefused)))) ∧
    (∀ v : BitVec 512,
      let bs := leBytes 64 v.toNat
      done (.debugAuth 0 v) (fun t => t.dbg.parts = [(0, bs)] ∧ t.get Key.debugState = s.get Key.debugState) ∧
      done (.debugAuth 1 v) (fun t => t.dbg.parts = s.dbg.parts ++ [(1, bs)] ∧ t.get Key.debugState = s.get Key.debugState) ∧
      done (.debugAuth 2 v) (fun t => t.dbg.parts = s.dbg.parts ++ [(2, bs)] ∧ t.get Key.debugState = s.get Key.debugState) ∧
      (∀ a b c, s.dbg.parts = [(0, a), (1, b), (2, c)] →
        let auth := a ++ (b ++ (c ++ bs))
        if s.authCheck auth = true then
          done (.debugAuth 3 v) (fun t => t.get Key.debugState = fld (leNat (auth.take 64)) 16 3 ∧ Counted s t Key.debugAuthGrants 1 ∧
            t.dbg.parts = [])
        else done (.debugAuth 3 v) (fun t => t.get Key.debugState = s.get Key.debugState ∧ Counted s t Key.debugAuthRefused 1 ∧
          t.dbg.parts = []))) ∧
    done (.debugLock 1) (fun t => t.get Key.debugState = 0) ∧ done (.debugLock 0) (fun t => t.get Key.debugState = s.get Key.debugState)

/-- Bundles are installed and removed, failed cores cleared, and a timed-out piece fails its core, as R502, R504 and R515 say (R500, R501, R502, R504, R515). -/
def Obligations.HallmarkManagement : Prop :=
  ∀ s : State, s.leadAnswers = true → s.get Key.pkgState = 1 →
    let done := fun (c : Instr) (post : State → Prop) => ∃ t, exec c s = .next t ∧ Counted s t Key.dictWrites 1 ∧ t.cores = s.cores ∧
      t.hbms = s.hbms ∧ post t
    let refused := fun (c : Instr) (status : Nat) => exec c s = .next { s.count Key.dictWritesRefused 1 with out := s.out ++ [.dict status []] }
    let free := s.get Key.hallmarkInstallStatus ≠ 1
    let idOf := fun (b : List Byte) => fld (leNat (b.take 64)) 32 32
    (∀ (n : Cluster) (value : BitVec 32),
      let v := value.toNat &&& 0x1FFFF
      let m := s.get (Key.failedMask n.val)
      (v &&& m = v → done (.failedMask n value) (fun t => t.get (Key.failedMask n.val) = v ∧
        ∀ q, q < 17 → bit m q = true → bit v q = false → 17 * n.val + q ∉ t.hall.passed)) ∧
      (v &&& m ≠ v → refused (.failedMask n value) 3)) ∧
    (∀ v : BitVec 64, (free → done (.hallmarkInstall v) (fun t => t.get Key.hallmarkInstallStatus = 1 ∧
        t.hall = { s.hall with install := some (v.toNat % 2 ^ 40, 64 * (v.toNat / 2 ^ 40)) })) ∧
      (¬ free → refused (.hallmarkInstall v) 2)) ∧
    (∀ v : BitVec 32, (free → (∃ b ∈ s.hall.slots, idOf b.2 = v.toNat) → done (.hallmarkRemove v) (fun t =>
        ∀ b, b ∈ t.hall.slots ↔ b ∈ s.hall.slots ∧ idOf b.2 ≠ v.toNat)) ∧
      (free → (∀ b ∈ s.hall.slots, idOf b.2 ≠ v.toNat) → refused (.hallmarkRemove v) 3) ∧
      (¬ free → refused (.hallmarkRemove v) 2)) ∧
    (s.hall.install = none → exec .hallmarkInstallDone s = .next s) ∧
    (∀ a len, s.hall.install = some (a, len) → (devSetting a < 24 → (s.stack (devSetting a)).lost = true ∨ s.controllerOpen (devSetting a) = true) →
      let ends := fun (status : Nat) (e : Ent) (post : State → Prop) => ∃ t, exec .hallmarkInstallDone s = .next t ∧ t.hall.install = none ∧
        t.get Key.hallmarkInstallStatus = status ∧ Counted s t e 1 ∧ t.cores = s.cores ∧ post t
      let refuses := fun (status : Nat) => ends status Key.hallmarkInstallRefused (fun t => t.hall.slots = s.hall.slots)
      ((s.fetchObject a len).2 = none → refuses 3) ∧
      (∀ u bs, s.fetchObject a len = (u, some bs) →
        let total := fld (leNat (bs.take 64)) 96 32
        let b := bs.take total
        let rest := (s.hall.slots.filter (fun x => idOf x.2 != idOf b)).foldl (fun n x => n + x.2.length) 0
        let good := b.length = total ∧ bundleOk b = true
        (¬ good → refuses 3) ∧ (good → s.sigCheck 2 b ≠ 0 → refuses 4) ∧
        (good → s.sigCheck 2 b = 0 → (s.bundleSlot (idOf b) = none ∨ 16777216 < rest + total) → refuses 5) ∧
        (∀ k, good → s.sigCheck 2 b = 0 → s.bundleSlot (idOf b) = some k → rest + total ≤ 16777216 →
          ends 2 Key.hallmarkInstalls (fun t => look k t.hall.slots = some b)))) ∧
    (∀ n : Cluster,
      let c := Instr.hallmarkPieceTimeout n
      let late := fun x : HallTest => ∃ e, x.pieces.head? = some e ∧ x.began + 1000000 * fld (leNat (e.2.2.take 64)) 112 16 ≤ s.ftime
      ((∀ x ∈ s.hall.tests, x.cluster = n.val → ¬ late x) → exec c s = .next s) ∧
      (∀ x, s.hall.tests = [x] → x.cluster = n.val → late x → x.quick = false → s.packageHeld = false → x.core < 17 →
          s.dieFenced (n.val / 4) = false → s.resets = [] → Quiet s →
        ∃ t j, exec c s = .next t ∧ t.hall.tests = [] ∧ bit (t.get (Key.failedMask n.val)) x.core = true ∧
          17 * n.val + x.core ∉ t.hall.passed ∧ Counted s t (Key.hallmarkFails n.val) 1 ∧ Counted s t (Key.resets 1) 1 ∧
          t.resets = [j] ∧ j.domain = 1 ∧ j.target = 17 * n.val + x.core ∧ j.phase = .running))

/-- A reset request captures first or resets exactly its domain, merges into one in progress, and is counted (R478, R479, R485, R486, R490, R495, R553). -/
def Obligations.ResetRequests : Prop :=
  ∀ (core : CoreId) (p : Nat) (e : Fin 3) (n : Cluster) (die : Die) (m : Setting) (r : Rim) (s : State), s.leadAnswers = true →
    s.get Key.pkgState = 1 → Holds s core p → Quiet s →
    let asks := fun cap : Bool => [(Instr.engineReset core e cap, 0, e.val, p), (.coreReset core cap, 1, 0, p), (.clusterReset n cap, 2, 0, n.val),
      (.computeDieReset die cap, 3, 0, die.val), (.settingReset m cap, 4, 0, m.val)]
    let done := fun (c : Instr) (post : State → Prop) => ∃ t, exec c s = .next t ∧ post t
    let seq := satAdd64 (s.get Key.locketsCaptured) 1
    (∀ x ∈ asks true, s.domFenced x.2 = false → s.resets = [] → done x.1 (fun t =>
      t.resets = [{ newJob x.2.1 x.2.2.1 x.2.2.2 4 .capture s.ftime with seq := seq }] ∧ t.cores = s.cores ∧ t.hbms = s.hbms ∧
      Counted s t Key.locketsCaptured 1 ∧ Counted s t Key.dictWrites 1)) ∧
    (∀ x ∈ asks false, s.domFenced x.2 = false → s.resets = [] → done x.1 (fun t =>
      t.resets = [newJob x.2.1 x.2.2.1 x.2.2.2 4 .running s.ftime] ∧ Counted s t (Key.resets x.2.1) 1 ∧ Counted s t Key.dictWrites 1 ∧
      (∀ q, inDomain x.2 q = false → t.core q = s.core q) ∧ t.fuses = s.fuses ∧
      (x.2.1 ≠ 4 ∨ (s.troy m.val).queue = [] → ∀ k, (t.stack k).mem = (s.stack k).mem) ∧
      (x.2.1 = 0 → t.core p = if e = 0 then (s.core p).resetMxe else if e = 1 then (s.core p).resetFge
        else { s.core p with mse := Engine.fresh, ops := [] }) ∧
      (1 ≤ x.2.1 → x.2.1 ≤ 3 → ∀ q, inDomain x.2 q = true → t.core q = { Core.fresh with sp := (s.core q).sp, ibuf := (s.core q).ibuf }) ∧
      (x.2.1 = 4 → (t.stack m.val).accepting = false ∧ (t.stack m.val).wcb = [] ∧
        ∀ q, inDomain x.2 q = true → ∃ a b, t.core q = { Core.fresh with sp := { base := a, cells := [] }, ibuf := { base := b, cells := [] } }))) ∧
    (∀ cap, ∀ x ∈ asks cap, s.domFenced x.2 = true ∨ (∃ j ∈ s.resets, domCovers j.dom x.2 = true) → done x.1 (fun t =>
      t.resets = s.resets ∧ t.cores = s.cores ∧ t.hbms = s.hbms ∧ Counted s t Key.resetRequestsMerged 1)) ∧
    (s.rimFenced r.val = false → s.resets = [] → done (.rimDieReset r) (fun t =>
      t.resets = [newJob 5 0 r.val 4 .running s.ftime] ∧ Counted s t (Key.resets 5) 1 ∧ (∀ i, i < 8 → (t.link (8 * r.val + i)).st = 0) ∧
      (∀ c ∈ t.reorders, c.msgId % 4 ≠ r.val) ∧ (∀ d ∈ t.dups, d.msgId % 4 ≠ r.val) ∧ t.hbms = s.hbms ∧ t.fuses = s.fuses ∧
      (r.val ≠ 0 → t.cores = s.cores ∧ t.host = s.host) ∧
      (r.val = 0 → t.host.sessions = [] ∧ t.chain.answers = false ∧ t.ftime = 0))) ∧
    (s.startup.everReady = true → s.resets = [] →
      done (.packageWarmReset true) (fun t => t.resets = [{ newJob 6 0 0 4 .capture s.ftime with seq := seq }] ∧ t.get Key.pkgState = 0 ∧
        t.chain.answers = false ∧ t.host.stopped = true ∧ t.cores = s.cores) ∧
      (s.fw.committing = false → s.troys = [] → done (.packageWarmReset false) (fun t =>
        (t.pins.bootStrap ≠ 1 → t.resets = [newJob 6 0 0 4 .running 0] ∧ t.get Key.pkgState = 0) ∧
        (t.pins.bootStrap = 1 → t.resets = [] ∧ t.get Key.pkgState = 2) ∧ t.cores = [] ∧ t.ftime = 0 ∧ (∀ k, (t.stack k).mem = (s.stack k).mem) ∧ t.cmap = s.cmap ∧
        t.fuses = s.fuses ∧ Counted s t (Key.resets 6) 1))) ∧
    (s.fw.committing = false → done .coldInitialisation (fun t => t.cores = [] ∧ t.hbms = [] ∧ t.ftime = 0 ∧ t.resets = [] ∧
      (t.pins.bootStrap ≠ 1 → t.get Key.pkgState = 0 ∧
        t.startup = { Startup.fresh with cause := 1, ringMib := t.get Key.recordRingMib, marks := t.retireMarks }) ∧
      (t.pins.bootStrap = 1 → t.get Key.pkgState = 2 ∧ t.startup.cause = 1) ∧ t.fuses = s.fuses ∧
      t.pins = { s.pins with chainStrap := t.pins.chainStrap, bootStrap := t.pins.bootStrap } ∧ t.pending = s.pending))

/-- Watchdogs and heartbeats ask for resets, captures end in records, and resets complete or widen to a fence (R24, R481, R482, R483, R484, R487, R488, R490, R491, R492). -/
def Obligations.WatchdogsAndEscalation : Prop :=
  ∀ (core : CoreId) (p : Nat) (s : State), s.packageHeld = false → Holds s core p → p < 4896 →
    s.dieFenced (p / 68) = false → Quiet s →
    let done := fun (c : Instr) (post : State → Prop) => ∃ t, exec c s = .next t ∧ post t
    let captures := fun (c : Instr) (d e tgt cause : Nat) (count : Ent) => done c (fun t =>
      t.resets = [{ newJob d e tgt cause .capture s.ftime with seq := satAdd64 (s.get Key.locketsCaptured) 1 }] ∧ t.cores = s.cores ∧
      t.hbms = s.hbms ∧ Counted s t count 1 ∧ Counted s t Key.locketsCaptured 1)
    (s.resets = [] → s.get Key.pkgState = 1 →
      (∀ e : Fin 3, (s.watched p = true → s.engineBusy p e.val = true → s.engineHeld p e.val = false →
          captures (.engineWdtExpiry core e) 0 e.val p 1 (Key.engineWdtExpiries (physCluster p))) ∧
        (s.watched p = false ∨ s.engineBusy p e.val = false → exec (.engineWdtExpiry core e) s = .next s)) ∧
      (s.watched p = true → s.coreBusy p = true → s.coreHeld p = false →
        captures (.coreWdtExpiry core) 1 0 p 2 (Key.coreWdtExpiries (physCluster p))) ∧
      (s.watched p = false ∨ s.coreBusy p = false → exec (.coreWdtExpiry core) s = .next s) ∧
      (∀ u k, u < 72 → s.flag Key.wdtEnable = true → s.dieFenced u = false → s.watches (u / 3) = true → s.missed = [(u, k)] →
        (k + 1 ≠ s.get Key.heartbeatMissLimit → done (.heartbeatCheck [u]) (fun t => t.missed = [(u, k + 1)] ∧ t.resets = [] ∧
          Counted s t (Key.heartbeatMissesDie u) 1 ∧ t.cores = s.cores)) ∧
        (k + 1 = s.get Key.heartbeatMissLimit → captures (.heartbeatCheck [u]) 3 0 u 3 (Key.dieHangsDie u)) ∧
        done (.heartbeatCheck []) (fun t => t.missed = [] ∧ t.cores = s.cores ∧ t.dict = s.dict)) ∧
      (s.flag Key.wdtEnable = false → exec (.heartbeatCheck [0]) s = .next s)) ∧
    (∀ j, s.resets = [j] →
      let ends := exec (.resetComplete 0) s = .next { s with resets := [] }
      let stays := exec (.resetComplete 0) s = .next s
      (j.phase = .capture → stays ∧ exec (.escalation 0) s = .next s) ∧
      (j.phase = .running → j.next = none →
        (j.domain ≤ 3 → ends) ∧
        (j.domain = 4 → if s.resetDone j = true then ends else stays) ∧
        (j.domain = 6 → stays) ∧
        (j.domain = 5 → done (.resetComplete 0) (fun t => t.resets = [] ∧ t.cores = s.cores ∧ (j.target = 0 → t.chain.answers = true))) ∧
        (∀ d tgt, (j.domain = 0 ∧ d = 1 ∧ tgt = j.target ∨ j.domain = 1 ∧ d = 2 ∧ tgt = j.target / 17
              ∨ j.domain = 2 ∧ d = 3 ∧ tgt = j.target / 4) →
          done (.escalation 0) (fun t => t.resets = [newJob d 0 tgt j.cause .running s.ftime] ∧ Counted s t (Key.escalations j.domain) 1 ∧
            Counted s t (Key.resets d) 1 ∧ (∀ q, inDomain (d, 0, tgt) q = false → t.core q = s.core q))) ∧
        (j.domain = 3 → done (.escalation 0) (fun t => t.dieFenced j.target = true ∧ t.resets = [] ∧ Counted s t Key.diesFencedTotal 1 ∧
          t.cores = s.cores)) ∧
        (j.domain = 4 → done (.escalation 0) (fun t => t.settingFenced j.target = true ∧ t.resets = [] ∧
          Counted s t Key.settingsFencedTotal 1 ∧ (t.stack j.target).lost = true ∧ t.cores = s.cores)) ∧
        (j.domain = 5 → done (.escalation 0) (fun t => t.rimFenced j.target = true ∧ t.resets = [] ∧ Counted s t Key.rimsFencedTotal 1 ∧
          t.cores = s.cores)) ∧
        (j.domain = 6 → done (.escalation 0) (fun t => t.startup.cause = 3 ∧ t.cores = [] ∧ t.hbms = [] ∧ t.resets = [] ∧ t.ftime = 0 ∧
          t.get Key.pkgState = if t.pins.bootStrap = 1 then 2 else 0))) ∧
      (j.phase = .capture → j.domain = 1 → j.target = p →
        (∀ n, n < 24 → s.capturedIn (1, 0, p) n = if n = p / 204 then [(core.toNat, p)] else []) → (s.stack (p / 204)).lost = false →
        (s.stack (p / 204)).down = [] → (s.stack (p / 204)).mem.wf = true → s.locketPlace (p / 204) 1 % 64 = 0 →
        let n := p / 204
        let off := s.locketPlace n 1
        done (.locketCaptureEnd 0) (fun t => t.resets = [newJob 1 j.engine p j.cause .running s.ftime] ∧ Counted s t (Key.resets 1) 1 ∧
          (t.stack n).mem.num ((s.stack n).locketBase + off) 2 = 0x10C7 ∧ t.get (Key.locketLast n) = off ∧
          t.get (Key.locketNext n) = off + 131072 ∧
          Counted s t Key.locketsTruncated (if 1000000 * s.get Key.locketCaptureLimit ≤ s.ftime - j.start then 1 else 0))) ∧
      (j.phase = .running → exec (.locketCaptureEnd 0) s = .next s) ∧
      (∀ line g, j.phase = .capture → inDomain j.dom p = true → (j.domain = 0 → line < 256) → segmentOf line = some g → (p, line) ∉ j.bad →
        let c := Instr.locketAccessTimeout 0 core line
        let flags := fun (k : Nat) => done c (fun t => (∃ j', t.resets = [j'] ∧ j'.dom = j.dom ∧
            j'.bad = j.bad ++ (List.range (k + 1)).map (fun i => (p, line + i))) ∧ Counted s t Key.locketAccessTimeouts 1 ∧
          Counted s t Key.locketAccessesSkipped k ∧ t.cores = s.cores ∧ t.hbms = s.hbms)
        ((∀ r ∈ j.runs, r.1 ≠ p) → flags 0) ∧
        (j.runs = [(p, line - 1, 15)] → g.1 < line → flags (g.2 - line - 1)) ∧
        (j.runs = [(p, line - 1, 3)] → g.1 < line → flags 0)))

/-- Supply events, regulators, the power limit, the sensors, PROCHOT_N and the references act as R538 to R547 say (R538, R539, R540, R541, R542, R543, R544, R545, R546, R547). -/
def Obligations.SupplyPowerAndThermal : Prop :=
  ∀ s : State, s.packageHeld = false →
    let done := fun (c : Instr) (post : State → Prop) => ∃ t, exec c s = .next t ∧ post t
    (∀ n : Setting,
      let k := n.val
      let y := s.supply k
      (s.settingFenced k = false → y.stretched = false → done (.vinWarning n) (fun t => t.supply k = { y with stretched := true } ∧
        Counted s t (Key.vinWarnings k) 1 ∧ t.cores = s.cores)) ∧
      (y.stretched = true → exec (.vinWarning n) s = .next s) ∧
      (s.settingFenced k = false → exec (.vinRecovery n) s = .next { s with supplies := put k Supply.fresh s.supplies }) ∧
      (∀ held : Bool, (s.settingFenced k = true → exec (.vinPowerfail n held) s = .next s) ∧
        (s.settingFenced k = false → s.resets = [] → Quiet s → (s.troy k).queue = [] → done (.vinPowerfail n held) (fun t =>
          (t.supply k).powerFail = true ∧ Counted s t (Key.vinPowerfails k) 1 ∧ t.supplyHeld k = true)) ∧
        (s.settingFenced k = false → s.get Key.pkgState = 1 → s.startup.running = false → s.resets = [] → Quiet s →
            (s.troy k).queue = [] → done (.vinPowerfail n held) (fun t =>
          (t.supply k).powerFail = true ∧ Counted s t (Key.vinPowerfails k) 1 ∧ t.resets = [newJob 4 0 k 0 .running s.ftime] ∧
          (held = true → (t.stack k).mem = (s.stack k).mem) ∧
          (held = false → (t.stack k).mem.cells = [] ∧ (t.stack k).errors = [] ∧ Counted s t (Key.hbmPowerfailLost k) 1))))) ∧
    (∀ (n : Cluster) (mv : Nat), s.dieFenced (n.val / 4) = false → s.watches (n.val / 12) = true →
      exec (.setpointUpdate n mv) s = .next (s.set (Key.clusterMv n.val)
        (min 850 (max 600 (5 * ((max (Config.fusedMv n.val (s.clockStep n.val)) mv + 4) / 5)))))) ∧
    (∀ k : Fin 50,
      (s.railPresent k.val = false → ∀ r, exec (.pmbusPoll k r) s = .next s) ∧
      (s.rimWorks (s.railHost k.val) = false → ∀ r, exec (.pmbusPoll k r) s = .next s) ∧
      (s.railPresent k.val = true → s.rimWorks (s.railHost k.val) = true →
        done (.pmbusPoll k none) (fun t => Counted s t (Key.pmbusErrors (s.railBus k.val)) 1 ∧ t.out = s.out ++ [.pmbus k.val 3]) ∧
        ∀ r : RailReading, done (.pmbusPoll k (some r)) (fun t => t.get (Key.railMv k.val) = r.mv % 2 ^ 16 ∧
          t.get (Key.railMa k.val) = r.ma % 2 ^ 32 ∧ Counted s t (Key.railFaults k.val) (if r.fault then 1 else 0) ∧
          Counted s t (Key.railExcursions k.val) (if 24 ≤ k.val ∧ railOk k.val r.mv = false then 1 else 0) ∧
          t.out = s.out ++ (if r.fault then [.pmbus k.val 3, .pmbus k.val 2] else [.pmbus k.val 3]))) ∧
      (∀ (b : Rim) (rs : List (Nat × Option RailReading)),
        let reads := fun i : Nat => s.railBus i = b.val ∧ s.railPresent i = true ∧ s.rimWorks (s.railHost i) = true
        let silent := fun i : Nat => decide (s.railBus i = b.val) && s.railPresent i && s.rimWorks (s.railHost i) && ((look i rs).getD none).isNone
        (s.rimWorks b.val = false → exec (.pmbusAlert b rs) s = .next s) ∧
        (s.rimWorks b.val = true → done (.pmbusAlert b rs) (fun t => Counted s t (Key.pmbusAlerts b.val) 1 ∧ t.cores = s.cores ∧
          Counted s t (Key.pmbusErrors b.val) ((List.range 50).countP silent) ∧
          (∀ r, reads k.val → look k.val rs = some (some r) → t.get (Key.railMv k.val) = r.mv % 2 ^ 16 ∧
            t.get (Key.railMa k.val) = r.ma % 2 ^ 32 ∧ Counted s t (Key.railFaults k.val) (if r.fault then 1 else 0) ∧
            Counted s t (Key.railExcursions k.val) (if 24 ≤ k.val ∧ railOk k.val r.mv = false then 1 else 0)) ∧
          (¬ reads k.val → t.get (Key.railMv k.val) = s.get (Key.railMv k.val)))))) ∧
    (∀ (n : Setting) (mv ma : Nat), (s.railPresent n.val = false ∨ s.watches n.val = false → exec (.avsRead n mv ma) s = .next s) ∧
      (s.railPresent n.val = true → s.watches n.val = true → done (.avsRead n mv ma) (fun t => t.get (Key.railMv n.val) = mv % 2 ^ 16 ∧
        t.get (Key.railMa n.val) = ma % 2 ^ 32 ∧ t.out = s.out))) ∧
    (done .powerWindowEnd (fun t =>
      let total := ((List.range 50).map s.railPower).foldl (· + ·) 0
      let w := t.get Key.pkgPower
      let limit := s.get Key.pkgPowerLimit
      (w = total / 1000000 ∨ total % 1000000 ≠ 0 ∧ w = total / 1000000 + 1) ∧ t.cores = s.cores ∧
      ∀ n ∈ s.liveClusters,
        let v := s.clusterStep n 1
        t.clusterStep n 0 = s.clusterStep n 0 ∧
        t.clusterStep n 1 = if limit < w then (if 8 < v then v - 1 else v) else if 100 * w < 97 * limit then min 16 (v + 1) else v)) ∧
    (∀ (i : Nat) (x : Int), i < 344 → -2 ^ 31 ≤ x → x < 2 ^ 31 → done (.sensorSample [(i, x)]) (fun t =>
      let pts := sensorPoints i
      t.get (Key.temp i) = unsgn 32 x ∧ Counted s t Key.overLimitSamples (if pts.2.1 ≤ x then 1 else 0) ∧ t.cores = s.cores ∧
      (pts.2.1 ≤ x → ∀ n, n < 288 → i ∈ clusterSensors n → t.clusterStep n 0 = 8) ∧
      (if pts.2.2 ≤ x ∧ pts.2.2 ≤ s.sensorTemp i then
          t.thermal.tripped = some i ∧ t.get Key.thermtripSensor = i ∧ Output.pin 1 true ∈ t.out ∧ t.resets = []
        else t.thermal.tripped = none ∧ t.resets = s.resets))) ∧
    (∀ u, u < 312 →
      let v := s.thermalStep u
      let hot := ∃ i ∈ unitSensors u, (sensorPoints i).1 ≤ s.sensorTemp i
      let cool := ∀ i ∈ unitSensors u, ∃ since, look i s.thermal.coolAt = some since ∧ since + 1000000 ≤ s.ftime
      (hot → done (.thermalStepDown u) (fun t => t.thermalStep u = max 8 (v - 1) ∧ t.cores = s.cores)) ∧
      (¬ hot → exec (.thermalStepDown u) s = .next s) ∧
      (cool → done (.thermalStepUp u) (fun t => t.thermalStep u = min 16 (v + 1) ∧ t.cores = s.cores)) ∧
      (¬ cool → exec (.thermalStepUp u) s = .next s)) ∧
    (s.drivesProchot = false → s.pins.prochotIn = false → done .prochotInAssert (fun t => t.pins.prochotIn = true ∧
      Counted s t Key.prochotInAssertions 1 ∧ ∀ n, n < 288 → t.clusterStep n 2 = 8 ∧ t.clusterStep n 0 = s.clusterStep n 0)) ∧
    done .prochotInRelease (fun t => t.pins.prochotIn = false ∧ ∀ n, n < 288 → t.clusterStep n 2 = 16 ∧ t.clusterStep n 0 = s.clusterStep n 0) ∧
    (if s.pins.refclk100 then done .refclkLoss (fun t => t.pins.refclk100 = false ∧ Counted s t Key.refclkLoss 1 ∧ t.ftime = s.ftime)
      else exec .refclkLoss s = .next s) ∧
    exec .refclkReturn s = .next { s with pins := { s.pins with refclk100 := true } } ∧
    (∀ r : Rim, done (.refclk156Loss r) (fun t => Counted s t (Key.refclk156Loss r.val) 1 ∧ t.cores = s.cores ∧
      ∀ l, l < 32 → (t.link l).st = if l / 8 = r.val ∧ 2 ≤ (s.link l).st then 1 else (s.link l).st))

/-- The pins, boot, the quick check, training, readiness and the failures of a start act as R549 to R557 say (R329, R330, R333, R513, R524, R525, R549, R551, R553, R555, R557). -/
def Obligations.StartUpSequence : Prop :=
  ∀ s : State,
    let done := fun (c : Instr) (post : State → Prop) => ∃ t, exec c s = .next t ∧ post t
    let boots := s.packageHeld = false ∧ s.startup.running = true ∧ s.startup.verified = true
    let recovers := fun (fault : Nat) (t : State) => t.get Key.pkgState = 2 ∧ t.get Key.startFault = fault ∧ t.chain.answers = true ∧
      t.links = [] ∧ t.host.stopped = true ∧ Counted s t Key.bootRecoveryEntries 1
    (s.pins.pwrok = true → s.pins.prstN = true → s.thermal.tripped = none →
      exec .prstNAssert s = .next { s with pins := { s.pins with prstN := false, lowNs := 0 } }) ∧
    (s.pins.prstN = false → s.pins.asserted = false → s.thermal.tripped = none →
      (s.pins.lowNs < 9999 → s.tickPrst = { s with pins := { s.pins with lowNs := s.pins.lowNs + 1 } }) ∧
      (9999 ≤ s.pins.lowNs → let t := s.tickPrst
        t.pins = { s.pins with asserted := true } ∧ t.packageHeld = true ∧ t.resets = [] ∧ t.links = [] ∧ t.cores = s.cores)) ∧
    (s.pins.pwrok = false ∨ s.pins.prstN = false → exec .prstNAssert s = .next s) ∧
    (s.pins.pwrok = true → s.fw.committing = false → done .pwrokFall (fun t => t.pins = { s.pins with pwrok := false, asserted := false } ∧
      t.resets = [] ∧ t.flashDue = [] ∧ t.thermal.tripped = none ∧ t.cores = [] ∧ t.hbms = [] ∧ t.links = [] ∧ t.msgs = [] ∧ t.fuses = s.fuses)) ∧
    (s.pins.pwrok = false → exec .pwrokFall s = .next s) ∧
    (∀ (off : Bool) (low : Nat) (chain : BitVec 5),
      let c := Instr.packageStart off low chain 0
      let pins := { s.pins with pwrok := true, prstN := true, asserted := false, lowNs := 0, chainStrap := chain.toNat, bootStrap := 0 }
      (off = true ∨ s.pins.pwrok = false → s.fw.committing = false → done c (fun t => t.pins = pins ∧ t.cores = [] ∧ t.hbms = [] ∧ t.get Key.pkgState = 0 ∧
        t.startup = { Startup.fresh with ringMib := t.get Key.recordRingMib, marks := t.retireMarks } ∧ t.fuses = s.fuses)) ∧
      (off = false → s.pins.pwrok = true →
        (s.pins.prstN = true → exec c s = .next s) ∧
        (s.pins.prstN = false → s.pins.asserted = false → low < 10000 → exec c s = .next { s with pins := { s.pins with prstN := true, lowNs := 0 } }) ∧
        (s.pins.prstN = false → s.pins.asserted = true ∨ 10000 ≤ low → s.thermal.tripped = none → s.startup.everReady = true → s.resets = [] →
          done c (fun t => t.pins = pins ∧ t.cores = [] ∧ t.get Key.pkgState = 0 ∧ t.resets = [newJob 6 0 0 0 .running 0] ∧
            Counted s t (Key.resets 6) 1)))) ∧
    (∀ attempt : BootAttempt,
      let c := Instr.firmwareVerificationEnd attempt
      let vs := attempt.seen.map (fun x => x.map (fun whole => if whole then s.imageCheck s.attemptSlot else 1))
      (s.startup.running = false ∨ s.startup.verified = true → exec c s = .next s) ∧
      (s.packageHeld = false → s.startup.running = true → s.startup.verified = false → s.get Key.pkgState = 0 → s.resets = [] →
        let rejected := fun (silent : Bool) (e : Ent) => done c (fun t => Counted s t e 1 ∧
          (s.fw.tried = [] → t.fw.tried = [silent] ∧ t.startup.verified = false ∧ t.get Key.pkgState = 0) ∧
          (∀ b, s.fw.tried = [b] → recovers (if b && silent then 3 else 1) t))
        (vs = [some 0, some 0, some 0, some 0] → done c (fun t => t.startup.verified = true ∧ t.get Key.pkgState = 0 ∧ t.get Key.startFault = 0 ∧
          t.fw.running = s.attemptSlot ∧ t.chain.answers = true ∧ t.fuses = s.fuses ∧
          (s.startup.cold = true → ∀ n ∈ attempt.low, t.supplyHeld n.val = true ∧ ∃ j ∈ t.resets, j.dom = (4, 0, n.val)) ∧
          (s.startup.cold = false → Counted s t Key.bootFallbacks (if s.fw.tried = [] then 0 else 1)))) ∧
        (vs.length = 4 → none ∈ vs → rejected true Key.bootVerifyDisagree) ∧
        (∀ v, 1 ≤ v → v ≤ 4 → vs = [some v, some v, some v, some v] → rejected false (bootCounter v)) ∧
        (∀ a b d e : Nat, vs = [some a, some b, some d, some e] → ¬ (a = b ∧ b = d ∧ d = e) → rejected false Key.bootVerifyDisagree))) ∧
    (¬ boots → exec .refclk100LockTimeout s = .next s) ∧
    (boots → done .refclk100LockTimeout (fun t => recovers 2 t ∧ Counted s t Key.refclkLoss (if s.pins.refclk100 then 1 else 0))) ∧
    (∀ rails : List Cluster,
      let c := Instr.quickCheckEnd { rails := rails }
      (¬ boots ∨ s.startup.quickDone = true → exec c s = .next s) ∧
      (boots → s.startup.quickDone = false → Quiet s → done c (fun t => t.startup.quickDone = true ∧
        (∀ n ∈ rails, t.dieFenced (n.val / 4) = true) ∧
        (∀ p, p < 4896 → s.dieFenced (p / 68) = false → (∀ n ∈ rails, n.val / 4 ≠ p / 68) → s.badCore (p / 17) (p % 17) = false →
          s.supplyHeld (physSetting p) = false →
          let fails := s.hall.quickBad.contains p || s.hall.tests.any (fun x => x.quick && 17 * x.cluster + x.core == p)
          bit (t.get (Key.failedMask (p / 17))) (p % 17) = fails ∧ (fails = false → p ∈ t.hall.passed)) ∧
        (∀ d c, d < 72 → c < 4 → (t.goodCores (4 * d + c)).length < (if s.fuses.gradeB then 15 else 16) → t.dieFenced d = true) ∧
        (s.startup.cold = true → ∀ n, n < 288 → t.clusterMap n = (t.goodCores n).take 16)))) ∧
    (∀ (n : Setting) (ok : Bool) (failed : List (Fin 32)),
      let c := Instr.hbmTrainingEnd n ok failed
      let x := s.stack n.val
      Quiet s →
      (x.training = false → exec c s = .next s) ∧
      (s.packageHeld = false → x.training = true → x.off = false → s.supplyHeld n.val = false → s.get Key.pkgState ≠ 2 →
        (boots → s.startup.cold = true → n.val ∉ s.startup.hbmDone → done c (fun t =>
          let active := (List.finRange 32).filter (fun q => !bit ((look n.val s.startup.marks).getD 0) q.val && !failed.contains q)
          (∀ f ∈ failed, bit (t.get (Key.hbmRetireMark n.val)) f.val = true) ∧ t.cores = s.cores ∧
          t.stack n.val = (if ok = true ∧ 24 ≤ active.length then
              { Stack.fresh with active := active, ring := s.startup.ringMib, accepting := true, training := false }
            else { Stack.fresh with failed := true, training := false }))) ∧
        (s.startup.running = false → x.failed = false → (∀ f ∈ failed, f ∈ x.active) → done c (fun t =>
          (∀ f ∈ failed, bit (t.get (Key.hbmRetireMark n.val)) f.val = true ∧ f.val ∈ (t.stack n.val).down) ∧ t.cores = s.cores ∧
          (t.stack n.val).accepting = true ∧ (t.stack n.val).training = false ∧ (t.stack n.val).mem = x.mem)))) ∧
    (s.isReady = false → exec .pkgReady s = .next s) ∧
    (s.isReady = true → (∀ j ∈ s.resets, j.domain = 6 → j.next = none) → done .pkgReady (fun t => t.get Key.pkgState = 1 ∧
      t.get Key.readyTime = s.startup.lead / 1000000 % 2 ^ 32 ∧ t.startup.running = false ∧ t.startup.everReady = true ∧
      (∀ j, j ∈ t.resets ↔ j ∈ s.resets ∧ j.domain ≠ 6) ∧ t.cores = s.cores ∧ t.hbms = s.hbms ∧
      (s.startup.cold = true → t.get Key.coldInitCount = (s.get Key.coldInitCount + 1) % 2 ^ 32 ∧ t.get Key.coldInitCause = s.startup.cause))) ∧
    (s.startup.running = false ∨ s.startup.cold = false → exec .startupTimeout s = .next s) ∧
    (s.packageHeld = false → s.startup.running = true → s.startup.cold = true →
      (3 ≤ s.startup.repeats → done .startupTimeout (recovers 4)) ∧
      (s.startup.repeats < 3 → s.fw.committing = false → s.flashRestore = false → done .startupTimeout (fun t => t.cores = [] ∧ t.hbms = [] ∧
        t.get Key.coldInitCount = (s.get Key.coldInitCount + 1) % 2 ^ 32 ∧ t.get Key.coldInitCause = 4 ∧
        (t.pins.bootStrap ≠ 1 → t.startup =
          { Startup.fresh with cause := 4, repeats := s.startup.repeats + 1, ringMib := t.get Key.recordRingMib, marks := t.retireMarks }) ∧
        (t.pins.bootStrap = 1 → t.get Key.pkgState = 2) ∧ t.fuses = s.fuses)))

/-- After reset the package is INITIALISING in a cold start with cause power-up, with every unit in its reset state (R45, R63, R83, R224, R269, R333, R350, R355, R549, R553). -/
def Obligations.ResetState : Prop :=
  let s := State.reset
  s.pending = [] ∧ s.get Key.pkgState = 0 ∧ s.get Key.jobState = 0 ∧ s.ftime = 0 ∧ s.everLocked = false ∧ s.startup.running = true ∧
    s.startup.cold = true ∧ s.startup.cause = 0 ∧ s.seq.isOpen = false ∧ s.colls = [] ∧ s.msgs = [] ∧ s.resets = [] ∧ s.host.sessions = [] ∧
    s.chain.answers = false ∧ s.out = [] ∧ Fuses.made.Extends s.fuses ∧ MemsWf s ∧ (∀ n, (s.stack n).accepting = false) ∧
    (∀ l, (s.link l).st = 0) ∧
    (∀ p, let k := s.core p
      k.primary.st = .notLoaded ∧ k.companion.st = .notLoaded ∧ k.onComp = false ∧ (∀ e, k.engine e = Engine.fresh) ∧ k.ops = [] ∧
        (∀ q, (k.queue q).mode = 0) ∧ (∀ n, k.ctr n = 0) ∧ ∀ l, (k.lane l).isOpen = false)

/-- Every word the control unit decodes encodes back to a word of the same instruction, and every encoded instruction is decoded (R47, R48, R49, R52). -/
def Obligations.CtuWordsRoundTrip : Prop :=
  (∀ (core : CoreId) (w : BitVec 32) (i : Instr), decodeCtu core w = some i → ∃ v, encodeCtu i = some v ∧ decodeCtu core v = some i) ∧
  (∀ (i : Instr) (w : BitVec 32), encodeCtu i = some w → ∃ core, decodeCtu core w = some i)

/-- No step makes a revoked key valid again, lowers the rollback floor or changes what the chip was made with (R520, R526). -/
def Obligations.FusesOnlyGrow : Prop :=
  ∀ (F : Fuses) (s t : State), F.Extends s.fuses → step s = .next t → F.Extends t.fuses

/-- Every step keeps every memory of the package in its canonical form (10_memory_system.md, 02_core_programming.md, 95_what_each_step_holds.md). -/
def Obligations.MemoriesStayCanonical : Prop :=
  ∀ s t : State, MemsWf s → step s = .next t → MemsWf t
end

