-- ==== Sys2Proof/Laws/Memory.lean ====
section
/-!
SUPPORT. Laws of the keyed lists and of the memories: a read after a write to the same place, a write leaves every other place
alone, and every write keeps the canonical form.
-/
namespace Sys2Proof.Machine

/-! ## Keyed lists -/

theorem look_put_self {α : Type} (k : Nat) (v : α) (l : List (Nat × α)) : look k (put k v l) = some v := by
  induction l with
  | nil => simp [put, look]
  | cons h t ih =>
    obtain ⟨j, w⟩ := h
    unfold put
    split
    · simp [look]
    · split
      · simp [look]
      · simp [look, *]

theorem look_put_other {α : Type} {i k : Nat} (v : α) (l : List (Nat × α)) (h : i ≠ k) : look i (put k v l) = look i l := by
  have h' : k ≠ i := fun e => h e.symm
  induction l with
  | nil => simp [put, look, h']
  | cons x t ih =>
    obtain ⟨j, w⟩ := x
    unfold put
    split
    · simp [look, h']
    · split
      · next e => subst e; simp [look, h']
      · simp [look, ih]

theorem look_drop_other {α : Type} {i k : Nat} (l : List (Nat × α)) (h : i ≠ k) : look i (drop' k l) = look i l := by
  induction l with
  | nil => rfl
  | cons x t ih =>
    obtain ⟨j, w⟩ := x
    unfold drop'
    split
    · next e => subst e; simp [look, Ne.symm h]
    · simp [look, ih]

/-! ## One byte -/

theorem look_cellsSet_other {u : Nat → Byte} {a i : Nat} (b : Byte) (l : List Host.Cell) (h : i ≠ a) :
    look i (cellsSet u a b l) = look i l := by
  induction l with
  | nil => unfold cellsSet; split <;> simp [look, Ne.symm h]
  | cons x t ih =>
    obtain ⟨j, w⟩ := x
    unfold cellsSet
    split
    · split <;> simp [look, Ne.symm h]
    · split
      · next e => subst e; split <;> simp [look, Ne.symm h]
      · simp [look, ih]

/-- A cell list in canonical form from a floor on has no cell at or below the floor. -/
theorem look_below {u : Nat → Byte} {lo a : Nat} {l : List Host.Cell} (w : cellsWf u (some lo) l = true) (h : a ≤ lo) :
    look a l = none := by
  induction l generalizing lo with
  | nil => rfl
  | cons x t ih =>
    obtain ⟨j, b⟩ := x
    simp only [cellsWf, Bool.and_eq_true, decide_eq_true_eq] at w
    have hj : j ≠ a := by omega
    simp [look, hj, ih w.2 (by omega)]

theorem cellsWf_floor {u : Nat → Byte} {lo : Nat} {l : List Host.Cell} (w : cellsWf u (some lo) l = true) :
    cellsWf u none l = true := by
  cases l with
  | nil => rfl
  | cons x t =>
    obtain ⟨j, b⟩ := x
    simp only [cellsWf, Bool.and_eq_true] at w ⊢
    exact ⟨⟨trivial, w.1.2⟩, w.2⟩

theorem look_cellsSet_self {u : Nat → Byte} {a : Nat} (b : Byte) {l : List Host.Cell} (w : cellsWf u none l = true) :
    (look a (cellsSet u a b l)).getD (u a) = b := by
  suffices g : ∀ lo : Option Nat, cellsWf u lo l = true → (look a (cellsSet u a b l)).getD (u a) = b from g none w
  clear w
  induction l with
  | nil => intro lo _; unfold cellsSet; split <;> simp [look, *]
  | cons x t ih =>
    obtain ⟨j, c⟩ := x
    intro lo w
    have wt : cellsWf u (some j) t = true := by simp only [cellsWf, Bool.and_eq_true] at w; exact w.2
    unfold cellsSet
    split
    · next h =>
      split
      · next e => simp [look, show ¬ j = a by omega, look_below wt (by omega : a ≤ j), e]
      · simp [look]
    · split
      · next e =>
        subst e
        split
        · next e' => simp [look_below wt (Nat.le_refl _), e']
        · simp [look]
      · next h1 h2 => simp only [look, if_neg h2]; exact ih (some j) wt

theorem cellsSet_wf_from {u : Nat → Byte} {a : Nat} (b : Byte) {l : List Host.Cell} (lo : Option Nat) (h : ∀ x, lo = some x → x < a)
    (w : cellsWf u lo l = true) : cellsWf u lo (cellsSet u a b l) = true := by
  induction l generalizing lo with
  | nil =>
    unfold cellsSet
    split
    · exact w
    · next e => cases lo with
      | none => simp [cellsWf, e]
      | some x => simp [cellsWf, e, h x rfl]
  | cons x t ih =>
    obtain ⟨j, c⟩ := x
    simp only [cellsWf, Bool.and_eq_true, decide_eq_true_eq] at w
    unfold cellsSet
    split
    · next g =>
      split
      · simp only [cellsWf, Bool.and_eq_true, decide_eq_true_eq]; exact w
      · next e =>
        simp only [cellsWf, Bool.and_eq_true, decide_eq_true_eq]
        refine ⟨⟨?_, e⟩, ⟨⟨g, w.1.2⟩, w.2⟩⟩
        cases lo with
        | none => trivial
        | some y => simpa using h y rfl
    · split
      · next g e =>
        subst e
        split
        · cases lo with
          | none => exact cellsWf_floor w.2
          | some y =>
            cases t with
            | nil => rfl
            | cons z t' =>
              obtain ⟨k, d⟩ := z
              have hy := h y rfl
              have w2 := w.2
              simp only [cellsWf, Bool.and_eq_true, decide_eq_true_eq] at w2 ⊢
              exact ⟨⟨by omega, w2.1.2⟩, w2.2⟩
        · next e' =>
          simp only [cellsWf, Bool.and_eq_true, decide_eq_true_eq]
          exact ⟨⟨w.1.1, e'⟩, w.2⟩
      · next g e =>
        simp only [cellsWf, Bool.and_eq_true, decide_eq_true_eq]
        exact ⟨w.1, ih (some j) (fun y hy => by cases hy; omega) w.2⟩

/-! ## Memories -/

@[simp] theorem Mem.write_base (m : Mem) (a : Nat) (b : Byte) : (m.write a b).base = m.base := rfl

@[simp] theorem Mem.write_unlisted (m : Mem) (a : Nat) (b : Byte) : (m.write a b).unlisted = m.unlisted := rfl

theorem Mem.read_write_other (m : Mem) {a i : Nat} (b : Byte) (h : i ≠ a) : (m.write a b).read i = m.read i := by
  unfold Mem.read
  rw [show (m.write a b).cells = cellsSet m.unlisted a b m.cells from rfl, look_cellsSet_other b m.cells h]; rfl

theorem Mem.read_write_self (m : Mem) (a : Nat) (b : Byte) (w : m.wf = true) : (m.write a b).read a = b :=
  look_cellsSet_self b w

/-- A write of one byte keeps the canonical form. -/
theorem Mem.wf_write (m : Mem) (a : Nat) (b : Byte) (w : m.wf = true) : (m.write a b).wf = true :=
  cellsSet_wf_from b none (fun _ h => by cases h) w

@[simp] theorem Mem.writeN_base (m : Mem) (a : Nat) (bs : List Byte) : (m.writeN a bs).base = m.base := by
  induction bs generalizing m a with
  | nil => rfl
  | cons b t ih => simp [Mem.writeN, ih]

/-- A write of bytes keeps the canonical form. -/
theorem Mem.wf_writeN (m : Mem) (a : Nat) (bs : List Byte) (w : m.wf = true) : (m.writeN a bs).wf = true := by
  induction bs generalizing m a with
  | nil => exact w
  | cons b t ih => exact ih _ _ (m.wf_write a b w)

theorem Mem.read_writeN_other (m : Mem) {a i : Nat} (bs : List Byte) (h : i < a ∨ a + bs.length ≤ i) :
    (m.writeN a bs).read i = m.read i := by
  induction bs generalizing m a with
  | nil => rfl
  | cons b t ih =>
    simp only [List.length_cons] at h
    rw [Mem.writeN, ih _ (by omega), m.read_write_other b (by omega)]

theorem Mem.read_writeN_self (m : Mem) (a : Nat) (bs : List Byte) (w : m.wf = true) (i : Nat) (h : i < bs.length) :
    (m.writeN a bs).read (a + i) = bs[i] := by
  induction bs generalizing m a i with
  | nil => simp at h
  | cons b t ih =>
    rw [Mem.writeN]
    cases i with
    | zero => rw [Mem.read_writeN_other _ _ (by omega)]; simpa using m.read_write_self a b w
    | succ j =>
      have := ih (m.write a b) (a + 1) (m.wf_write a b w) j (by simpa using h)
      rw [show a + (j + 1) = a + 1 + j by omega, this]; rfl

@[simp] theorem Mem.length_readN (m : Mem) (a n : Nat) : (m.readN a n).length = n := by
  induction n generalizing a with
  | zero => rfl
  | succ n ih => simp [Mem.readN, ih]

/-- Writing bytes and reading them back. -/
theorem Mem.readN_writeN (m : Mem) (a : Nat) (bs : List Byte) (w : m.wf = true) : (m.writeN a bs).readN a bs.length = bs := by
  suffices g : ∀ (l : List Byte) (m' : Mem) (c : Nat), (∀ i (h : i < l.length), m'.read (c + i) = l[i]) → m'.readN c l.length = l from
    g bs _ a (fun i h => m.read_writeN_self a bs w i h)
  intro l
  induction l with
  | nil => intros; rfl
  | cons b t ih =>
    intro m' c h
    simp only [List.length_cons, Mem.readN]
    have h0 := h 0 (by simp)
    simp only [Nat.add_zero, List.getElem_cons_zero] at h0
    rw [h0, ih m' (c + 1) (fun i hi => by
      have := h (i + 1) (by simpa using hi)
      simpa [Nat.add_assoc, Nat.add_comm 1 i] using this)]

/-- The little-endian octets of a number that fits, read back as a number (R9). -/
theorem leNat_leBytes (n v : Nat) : leNat (leBytes n v) = v % 256 ^ n := by
  induction n generalizing v with
  | zero => simp [leBytes, leNat, Nat.mod_one]
  | succ n ih =>
    simp only [leBytes, leNat, ih, BitVec.toNat_ofNat]
    have h : v % 256 ^ (n + 1) = v % 256 + 256 * (v / 256 % 256 ^ n) := by
      rw [show (256 : Nat) ^ (n + 1) = 256 * 256 ^ n by rw [Nat.pow_succ, Nat.mul_comm], Nat.mod_mul]
    rw [h, show v % 256 % 2 ^ 8 = v % 256 from by omega]

@[simp] theorem length_leBytes (n v : Nat) : (leBytes n v).length = n := by
  induction n generalizing v with
  | zero => rfl
  | succ n ih => simp [leBytes, ih]

/-- A number stored and loaded again. -/
theorem Mem.num_writeN (m : Mem) (a n v : Nat) (w : m.wf = true) : (m.writeN a (leBytes n v)).num a n = v % 256 ^ n := by
  have h := m.readN_writeN a (leBytes n v) w
  simp only [length_leBytes] at h
  rw [Mem.num, h, leNat_leBytes]

end Sys2Proof.Machine
end

