-- ==== Sys2Proof/Laws/State.lean ====
section
/-!
SUPPORT. For each named update of the state and each field: what the field holds afterwards. So no proof unfolds a record update.
-/
namespace Sys2Proof.Machine

/-! ### State.set -/

@[simp] theorem State.set_pending (s : State) (e : Ent) (v : Nat) : (s.set e v).pending = s.pending := rfl
@[simp] theorem State.set_freeCtr (s : State) (e : Ent) (v : Nat) : (s.set e v).freeCtr = s.freeCtr := rfl
@[simp] theorem State.set_out (s : State) (e : Ent) (v : Nat) : (s.set e v).out = s.out := rfl
@[simp] theorem State.set_ftime (s : State) (e : Ent) (v : Nat) : (s.set e v).ftime = s.ftime := rfl
@[simp] theorem State.set_dict (s : State) (e : Ent) (v : Nat) : (s.set e v).dict = put e.key v s.dict := rfl
@[simp] theorem State.set_staging (s : State) (e : Ent) (v : Nat) : (s.set e v).staging = s.staging := rfl
@[simp] theorem State.set_flashDue (s : State) (e : Ent) (v : Nat) : (s.set e v).flashDue = s.flashDue := rfl
@[simp] theorem State.set_flashRestore (s : State) (e : Ent) (v : Nat) : (s.set e v).flashRestore = s.flashRestore := rfl
@[simp] theorem State.set_cmap (s : State) (e : Ent) (v : Nat) : (s.set e v).cmap = s.cmap := rfl
@[simp] theorem State.set_cores (s : State) (e : Ent) (v : Nat) : (s.set e v).cores = s.cores := rfl
@[simp] theorem State.set_spBase (s : State) (e : Ent) (v : Nat) : (s.set e v).spBase = s.spBase := rfl
@[simp] theorem State.set_meshOut (s : State) (e : Ent) (v : Nat) : (s.set e v).meshOut = s.meshOut := rfl
@[simp] theorem State.set_meshSeen (s : State) (e : Ent) (v : Nat) : (s.set e v).meshSeen = s.meshSeen := rfl
@[simp] theorem State.set_seq (s : State) (e : Ent) (v : Nat) : (s.set e v).seq = s.seq := rfl
@[simp] theorem State.set_commits (s : State) (e : Ent) (v : Nat) : (s.set e v).commits = s.commits := rfl
@[simp] theorem State.set_colls (s : State) (e : Ent) (v : Nat) : (s.set e v).colls = s.colls := rfl
@[simp] theorem State.set_streams (s : State) (e : Ent) (v : Nat) : (s.set e v).streams = s.streams := rfl
@[simp] theorem State.set_msgs (s : State) (e : Ent) (v : Nat) : (s.set e v).msgs = s.msgs := rfl
@[simp] theorem State.set_nextMsg (s : State) (e : Ent) (v : Nat) : (s.set e v).nextMsg = s.nextMsg := rfl
@[simp] theorem State.set_msgNo (s : State) (e : Ent) (v : Nat) : (s.set e v).msgNo = s.msgNo := rfl
@[simp] theorem State.set_retired (s : State) (e : Ent) (v : Nat) : (s.set e v).retired = s.retired := rfl
@[simp] theorem State.set_reorders (s : State) (e : Ent) (v : Nat) : (s.set e v).reorders = s.reorders := rfl
@[simp] theorem State.set_dups (s : State) (e : Ent) (v : Nat) : (s.set e v).dups = s.dups := rfl
@[simp] theorem State.set_waiting (s : State) (e : Ent) (v : Nat) : (s.set e v).waiting = s.waiting := rfl
@[simp] theorem State.set_inbound (s : State) (e : Ent) (v : Nat) : (s.set e v).inbound = s.inbound := rfl
@[simp] theorem State.set_hbms (s : State) (e : Ent) (v : Nat) : (s.set e v).hbms = s.hbms := rfl
@[simp] theorem State.set_troys (s : State) (e : Ent) (v : Nat) : (s.set e v).troys = s.troys := rfl
@[simp] theorem State.set_links (s : State) (e : Ent) (v : Nat) : (s.set e v).links = s.links := rfl
@[simp] theorem State.set_ports (s : State) (e : Ent) (v : Nat) : (s.set e v).ports = s.ports := rfl
@[simp] theorem State.set_everLocked (s : State) (e : Ent) (v : Nat) : (s.set e v).everLocked = s.everLocked := rfl
@[simp] theorem State.set_timeRoot (s : State) (e : Ent) (v : Nat) : (s.set e v).timeRoot = s.timeRoot := rfl
@[simp] theorem State.set_slew (s : State) (e : Ent) (v : Nat) : (s.set e v).slew = s.slew := rfl
@[simp] theorem State.set_rateLeft (s : State) (e : Ent) (v : Nat) : (s.set e v).rateLeft = s.rateLeft := rfl
@[simp] theorem State.set_rateAt (s : State) (e : Ent) (v : Nat) : (s.set e v).rateAt = s.rateAt := rfl
@[simp] theorem State.set_host (s : State) (e : Ent) (v : Nat) : (s.set e v).host = s.host := rfl
@[simp] theorem State.set_chain (s : State) (e : Ent) (v : Nat) : (s.set e v).chain = s.chain := rfl
@[simp] theorem State.set_resets (s : State) (e : Ent) (v : Nat) : (s.set e v).resets = s.resets := rfl
@[simp] theorem State.set_missed (s : State) (e : Ent) (v : Nat) : (s.set e v).missed = s.missed := rfl
@[simp] theorem State.set_hall (s : State) (e : Ent) (v : Nat) : (s.set e v).hall = s.hall := rfl
@[simp] theorem State.set_swaps (s : State) (e : Ent) (v : Nat) : (s.set e v).swaps = s.swaps := rfl
@[simp] theorem State.set_fuses (s : State) (e : Ent) (v : Nat) : (s.set e v).fuses = s.fuses := rfl
@[simp] theorem State.set_fw (s : State) (e : Ent) (v : Nat) : (s.set e v).fw = s.fw := rfl
@[simp] theorem State.set_dbg (s : State) (e : Ent) (v : Nat) : (s.set e v).dbg = s.dbg := rfl
@[simp] theorem State.set_supplies (s : State) (e : Ent) (v : Nat) : (s.set e v).supplies = s.supplies := rfl
@[simp] theorem State.set_thermal (s : State) (e : Ent) (v : Nat) : (s.set e v).thermal = s.thermal := rfl
@[simp] theorem State.set_hbmSteps (s : State) (e : Ent) (v : Nat) : (s.set e v).hbmSteps = s.hbmSteps := rfl
@[simp] theorem State.set_pins (s : State) (e : Ent) (v : Nat) : (s.set e v).pins = s.pins := rfl
@[simp] theorem State.set_startup (s : State) (e : Ent) (v : Nat) : (s.set e v).startup = s.startup := rfl

/-! ### State.tick -/

@[simp] theorem State.tick_pending (s : State) : (s.tick).pending = s.pending := rfl
@[simp] theorem State.tick_freeCtr (s : State) : (s.tick).freeCtr = s.freeCtr + 1 := rfl
@[simp] theorem State.tick_out (s : State) : (s.tick).out = s.out := rfl
@[simp] theorem State.tick_ftime (s : State) : (s.tick).ftime = s.ftime := rfl
@[simp] theorem State.tick_dict (s : State) : (s.tick).dict = s.dict := rfl
@[simp] theorem State.tick_staging (s : State) : (s.tick).staging = s.staging := rfl
@[simp] theorem State.tick_flashDue (s : State) : (s.tick).flashDue = s.flashDue := rfl
@[simp] theorem State.tick_flashRestore (s : State) : (s.tick).flashRestore = s.flashRestore := rfl
@[simp] theorem State.tick_cmap (s : State) : (s.tick).cmap = s.cmap := rfl
@[simp] theorem State.tick_cores (s : State) : (s.tick).cores = s.cores := rfl
@[simp] theorem State.tick_spBase (s : State) : (s.tick).spBase = s.spBase := rfl
@[simp] theorem State.tick_meshOut (s : State) : (s.tick).meshOut = s.meshOut := rfl
@[simp] theorem State.tick_meshSeen (s : State) : (s.tick).meshSeen = s.meshSeen := rfl
@[simp] theorem State.tick_seq (s : State) : (s.tick).seq = s.seq := rfl
@[simp] theorem State.tick_commits (s : State) : (s.tick).commits = s.commits := rfl
@[simp] theorem State.tick_colls (s : State) : (s.tick).colls = s.colls := rfl
@[simp] theorem State.tick_streams (s : State) : (s.tick).streams = s.streams := rfl
@[simp] theorem State.tick_msgs (s : State) : (s.tick).msgs = s.msgs := rfl
@[simp] theorem State.tick_nextMsg (s : State) : (s.tick).nextMsg = s.nextMsg := rfl
@[simp] theorem State.tick_msgNo (s : State) : (s.tick).msgNo = s.msgNo := rfl
@[simp] theorem State.tick_retired (s : State) : (s.tick).retired = s.retired := rfl
@[simp] theorem State.tick_reorders (s : State) : (s.tick).reorders = s.reorders := rfl
@[simp] theorem State.tick_dups (s : State) : (s.tick).dups = s.dups := rfl
@[simp] theorem State.tick_waiting (s : State) : (s.tick).waiting = s.waiting := rfl
@[simp] theorem State.tick_inbound (s : State) : (s.tick).inbound = s.inbound := rfl
@[simp] theorem State.tick_hbms (s : State) : (s.tick).hbms = s.hbms := rfl
@[simp] theorem State.tick_troys (s : State) : (s.tick).troys = s.troys := rfl
@[simp] theorem State.tick_links (s : State) : (s.tick).links = s.links := rfl
@[simp] theorem State.tick_ports (s : State) : (s.tick).ports = s.ports := rfl
@[simp] theorem State.tick_everLocked (s : State) : (s.tick).everLocked = s.everLocked := rfl
@[simp] theorem State.tick_timeRoot (s : State) : (s.tick).timeRoot = s.timeRoot := rfl
@[simp] theorem State.tick_slew (s : State) : (s.tick).slew = s.slew := rfl
@[simp] theorem State.tick_rateLeft (s : State) : (s.tick).rateLeft = s.rateLeft := rfl
@[simp] theorem State.tick_rateAt (s : State) : (s.tick).rateAt = s.rateAt := rfl
@[simp] theorem State.tick_host (s : State) : (s.tick).host = s.host := rfl
@[simp] theorem State.tick_chain (s : State) : (s.tick).chain = s.chain := rfl
@[simp] theorem State.tick_resets (s : State) : (s.tick).resets = s.resets := rfl
@[simp] theorem State.tick_missed (s : State) : (s.tick).missed = s.missed := rfl
@[simp] theorem State.tick_hall (s : State) : (s.tick).hall = s.hall := rfl
@[simp] theorem State.tick_swaps (s : State) : (s.tick).swaps = s.swaps := rfl
@[simp] theorem State.tick_fuses (s : State) : (s.tick).fuses = s.fuses := rfl
@[simp] theorem State.tick_fw (s : State) : (s.tick).fw = s.fw := rfl
@[simp] theorem State.tick_dbg (s : State) : (s.tick).dbg = s.dbg := rfl
@[simp] theorem State.tick_supplies (s : State) : (s.tick).supplies = s.supplies := rfl
@[simp] theorem State.tick_thermal (s : State) : (s.tick).thermal = s.thermal := rfl
@[simp] theorem State.tick_hbmSteps (s : State) : (s.tick).hbmSteps = s.hbmSteps := rfl
@[simp] theorem State.tick_pins (s : State) : (s.tick).pins = s.pins := rfl
@[simp] theorem State.tick_startup (s : State) : (s.tick).startup = s.startup := rfl

/-! ### State.emit -/

@[simp] theorem State.emit_pending (s : State) (o : Output) : (s.emit o).pending = s.pending := rfl
@[simp] theorem State.emit_freeCtr (s : State) (o : Output) : (s.emit o).freeCtr = s.freeCtr := rfl
@[simp] theorem State.emit_out (s : State) (o : Output) : (s.emit o).out = s.out ++ [o] := rfl
@[simp] theorem State.emit_ftime (s : State) (o : Output) : (s.emit o).ftime = s.ftime := rfl
@[simp] theorem State.emit_dict (s : State) (o : Output) : (s.emit o).dict = s.dict := rfl
@[simp] theorem State.emit_staging (s : State) (o : Output) : (s.emit o).staging = s.staging := rfl
@[simp] theorem State.emit_flashDue (s : State) (o : Output) : (s.emit o).flashDue = s.flashDue := rfl
@[simp] theorem State.emit_flashRestore (s : State) (o : Output) : (s.emit o).flashRestore = s.flashRestore := rfl
@[simp] theorem State.emit_cmap (s : State) (o : Output) : (s.emit o).cmap = s.cmap := rfl
@[simp] theorem State.emit_cores (s : State) (o : Output) : (s.emit o).cores = s.cores := rfl
@[simp] theorem State.emit_spBase (s : State) (o : Output) : (s.emit o).spBase = s.spBase := rfl
@[simp] theorem State.emit_meshOut (s : State) (o : Output) : (s.emit o).meshOut = s.meshOut := rfl
@[simp] theorem State.emit_meshSeen (s : State) (o : Output) : (s.emit o).meshSeen = s.meshSeen := rfl
@[simp] theorem State.emit_seq (s : State) (o : Output) : (s.emit o).seq = s.seq := rfl
@[simp] theorem State.emit_commits (s : State) (o : Output) : (s.emit o).commits = s.commits := rfl
@[simp] theorem State.emit_colls (s : State) (o : Output) : (s.emit o).colls = s.colls := rfl
@[simp] theorem State.emit_streams (s : State) (o : Output) : (s.emit o).streams = s.streams := rfl
@[simp] theorem State.emit_msgs (s : State) (o : Output) : (s.emit o).msgs = s.msgs := rfl
@[simp] theorem State.emit_nextMsg (s : State) (o : Output) : (s.emit o).nextMsg = s.nextMsg := rfl
@[simp] theorem State.emit_msgNo (s : State) (o : Output) : (s.emit o).msgNo = s.msgNo := rfl
@[simp] theorem State.emit_retired (s : State) (o : Output) : (s.emit o).retired = s.retired := rfl
@[simp] theorem State.emit_reorders (s : State) (o : Output) : (s.emit o).reorders = s.reorders := rfl
@[simp] theorem State.emit_dups (s : State) (o : Output) : (s.emit o).dups = s.dups := rfl
@[simp] theorem State.emit_waiting (s : State) (o : Output) : (s.emit o).waiting = s.waiting := rfl
@[simp] theorem State.emit_inbound (s : State) (o : Output) : (s.emit o).inbound = s.inbound := rfl
@[simp] theorem State.emit_hbms (s : State) (o : Output) : (s.emit o).hbms = s.hbms := rfl
@[simp] theorem State.emit_troys (s : State) (o : Output) : (s.emit o).troys = s.troys := rfl
@[simp] theorem State.emit_links (s : State) (o : Output) : (s.emit o).links = s.links := rfl
@[simp] theorem State.emit_ports (s : State) (o : Output) : (s.emit o).ports = s.ports := rfl
@[simp] theorem State.emit_everLocked (s : State) (o : Output) : (s.emit o).everLocked = s.everLocked := rfl
@[simp] theorem State.emit_timeRoot (s : State) (o : Output) : (s.emit o).timeRoot = s.timeRoot := rfl
@[simp] theorem State.emit_slew (s : State) (o : Output) : (s.emit o).slew = s.slew := rfl
@[simp] theorem State.emit_rateLeft (s : State) (o : Output) : (s.emit o).rateLeft = s.rateLeft := rfl
@[simp] theorem State.emit_rateAt (s : State) (o : Output) : (s.emit o).rateAt = s.rateAt := rfl
@[simp] theorem State.emit_host (s : State) (o : Output) : (s.emit o).host = s.host := rfl
@[simp] theorem State.emit_chain (s : State) (o : Output) : (s.emit o).chain = s.chain := rfl
@[simp] theorem State.emit_resets (s : State) (o : Output) : (s.emit o).resets = s.resets := rfl
@[simp] theorem State.emit_missed (s : State) (o : Output) : (s.emit o).missed = s.missed := rfl
@[simp] theorem State.emit_hall (s : State) (o : Output) : (s.emit o).hall = s.hall := rfl
@[simp] theorem State.emit_swaps (s : State) (o : Output) : (s.emit o).swaps = s.swaps := rfl
@[simp] theorem State.emit_fuses (s : State) (o : Output) : (s.emit o).fuses = s.fuses := rfl
@[simp] theorem State.emit_fw (s : State) (o : Output) : (s.emit o).fw = s.fw := rfl
@[simp] theorem State.emit_dbg (s : State) (o : Output) : (s.emit o).dbg = s.dbg := rfl
@[simp] theorem State.emit_supplies (s : State) (o : Output) : (s.emit o).supplies = s.supplies := rfl
@[simp] theorem State.emit_thermal (s : State) (o : Output) : (s.emit o).thermal = s.thermal := rfl
@[simp] theorem State.emit_hbmSteps (s : State) (o : Output) : (s.emit o).hbmSteps = s.hbmSteps := rfl
@[simp] theorem State.emit_pins (s : State) (o : Output) : (s.emit o).pins = s.pins := rfl
@[simp] theorem State.emit_startup (s : State) (o : Output) : (s.emit o).startup = s.startup := rfl

/-! ### State.setCore -/

@[simp] theorem State.setCore_pending (s : State) (p : Nat) (c : Core) : (s.setCore p c).pending = s.pending := rfl
@[simp] theorem State.setCore_freeCtr (s : State) (p : Nat) (c : Core) : (s.setCore p c).freeCtr = s.freeCtr := rfl
@[simp] theorem State.setCore_out (s : State) (p : Nat) (c : Core) : (s.setCore p c).out = s.out := rfl
@[simp] theorem State.setCore_ftime (s : State) (p : Nat) (c : Core) : (s.setCore p c).ftime = s.ftime := rfl
@[simp] theorem State.setCore_dict (s : State) (p : Nat) (c : Core) : (s.setCore p c).dict = s.dict := rfl
@[simp] theorem State.setCore_staging (s : State) (p : Nat) (c : Core) : (s.setCore p c).staging = s.staging := rfl
@[simp] theorem State.setCore_flashDue (s : State) (p : Nat) (c : Core) : (s.setCore p c).flashDue = s.flashDue := rfl
@[simp] theorem State.setCore_flashRestore (s : State) (p : Nat) (c : Core) : (s.setCore p c).flashRestore = s.flashRestore := rfl
@[simp] theorem State.setCore_cmap (s : State) (p : Nat) (c : Core) : (s.setCore p c).cmap = s.cmap := rfl
@[simp] theorem State.setCore_cores (s : State) (p : Nat) (c : Core) : (s.setCore p c).cores = put p c s.cores := rfl
@[simp] theorem State.setCore_spBase (s : State) (p : Nat) (c : Core) : (s.setCore p c).spBase = s.spBase := rfl
@[simp] theorem State.setCore_meshOut (s : State) (p : Nat) (c : Core) : (s.setCore p c).meshOut = s.meshOut := rfl
@[simp] theorem State.setCore_meshSeen (s : State) (p : Nat) (c : Core) : (s.setCore p c).meshSeen = s.meshSeen := rfl
@[simp] theorem State.setCore_seq (s : State) (p : Nat) (c : Core) : (s.setCore p c).seq = s.seq := rfl
@[simp] theorem State.setCore_commits (s : State) (p : Nat) (c : Core) : (s.setCore p c).commits = s.commits := rfl
@[simp] theorem State.setCore_colls (s : State) (p : Nat) (c : Core) : (s.setCore p c).colls = s.colls := rfl
@[simp] theorem State.setCore_streams (s : State) (p : Nat) (c : Core) : (s.setCore p c).streams = s.streams := rfl
@[simp] theorem State.setCore_msgs (s : State) (p : Nat) (c : Core) : (s.setCore p c).msgs = s.msgs := rfl
@[simp] theorem State.setCore_nextMsg (s : State) (p : Nat) (c : Core) : (s.setCore p c).nextMsg = s.nextMsg := rfl
@[simp] theorem State.setCore_msgNo (s : State) (p : Nat) (c : Core) : (s.setCore p c).msgNo = s.msgNo := rfl
@[simp] theorem State.setCore_retired (s : State) (p : Nat) (c : Core) : (s.setCore p c).retired = s.retired := rfl
@[simp] theorem State.setCore_reorders (s : State) (p : Nat) (c : Core) : (s.setCore p c).reorders = s.reorders := rfl
@[simp] theorem State.setCore_dups (s : State) (p : Nat) (c : Core) : (s.setCore p c).dups = s.dups := rfl
@[simp] theorem State.setCore_waiting (s : State) (p : Nat) (c : Core) : (s.setCore p c).waiting = s.waiting := rfl
@[simp] theorem State.setCore_inbound (s : State) (p : Nat) (c : Core) : (s.setCore p c).inbound = s.inbound := rfl
@[simp] theorem State.setCore_hbms (s : State) (p : Nat) (c : Core) : (s.setCore p c).hbms = s.hbms := rfl
@[simp] theorem State.setCore_troys (s : State) (p : Nat) (c : Core) : (s.setCore p c).troys = s.troys := rfl
@[simp] theorem State.setCore_links (s : State) (p : Nat) (c : Core) : (s.setCore p c).links = s.links := rfl
@[simp] theorem State.setCore_ports (s : State) (p : Nat) (c : Core) : (s.setCore p c).ports = s.ports := rfl
@[simp] theorem State.setCore_everLocked (s : State) (p : Nat) (c : Core) : (s.setCore p c).everLocked = s.everLocked := rfl
@[simp] theorem State.setCore_timeRoot (s : State) (p : Nat) (c : Core) : (s.setCore p c).timeRoot = s.timeRoot := rfl
@[simp] theorem State.setCore_slew (s : State) (p : Nat) (c : Core) : (s.setCore p c).slew = s.slew := rfl
@[simp] theorem State.setCore_rateLeft (s : State) (p : Nat) (c : Core) : (s.setCore p c).rateLeft = s.rateLeft := rfl
@[simp] theorem State.setCore_rateAt (s : State) (p : Nat) (c : Core) : (s.setCore p c).rateAt = s.rateAt := rfl
@[simp] theorem State.setCore_host (s : State) (p : Nat) (c : Core) : (s.setCore p c).host = s.host := rfl
@[simp] theorem State.setCore_chain (s : State) (p : Nat) (c : Core) : (s.setCore p c).chain = s.chain := rfl
@[simp] theorem State.setCore_resets (s : State) (p : Nat) (c : Core) : (s.setCore p c).resets = s.resets := rfl
@[simp] theorem State.setCore_missed (s : State) (p : Nat) (c : Core) : (s.setCore p c).missed = s.missed := rfl
@[simp] theorem State.setCore_hall (s : State) (p : Nat) (c : Core) : (s.setCore p c).hall = s.hall := rfl
@[simp] theorem State.setCore_swaps (s : State) (p : Nat) (c : Core) : (s.setCore p c).swaps = s.swaps := rfl
@[simp] theorem State.setCore_fuses (s : State) (p : Nat) (c : Core) : (s.setCore p c).fuses = s.fuses := rfl
@[simp] theorem State.setCore_fw (s : State) (p : Nat) (c : Core) : (s.setCore p c).fw = s.fw := rfl
@[simp] theorem State.setCore_dbg (s : State) (p : Nat) (c : Core) : (s.setCore p c).dbg = s.dbg := rfl
@[simp] theorem State.setCore_supplies (s : State) (p : Nat) (c : Core) : (s.setCore p c).supplies = s.supplies := rfl
@[simp] theorem State.setCore_thermal (s : State) (p : Nat) (c : Core) : (s.setCore p c).thermal = s.thermal := rfl
@[simp] theorem State.setCore_hbmSteps (s : State) (p : Nat) (c : Core) : (s.setCore p c).hbmSteps = s.hbmSteps := rfl
@[simp] theorem State.setCore_pins (s : State) (p : Nat) (c : Core) : (s.setCore p c).pins = s.pins := rfl
@[simp] theorem State.setCore_startup (s : State) (p : Nat) (c : Core) : (s.setCore p c).startup = s.startup := rfl

/-! ### State.updCore -/

@[simp] theorem State.updCore_pending (s : State) (p : Nat) (f : Core → Core) : (s.updCore p f).pending = s.pending := rfl
@[simp] theorem State.updCore_freeCtr (s : State) (p : Nat) (f : Core → Core) : (s.updCore p f).freeCtr = s.freeCtr := rfl
@[simp] theorem State.updCore_out (s : State) (p : Nat) (f : Core → Core) : (s.updCore p f).out = s.out := rfl
@[simp] theorem State.updCore_ftime (s : State) (p : Nat) (f : Core → Core) : (s.updCore p f).ftime = s.ftime := rfl
@[simp] theorem State.updCore_dict (s : State) (p : Nat) (f : Core → Core) : (s.updCore p f).dict = s.dict := rfl
@[simp] theorem State.updCore_staging (s : State) (p : Nat) (f : Core → Core) : (s.updCore p f).staging = s.staging := rfl
@[simp] theorem State.updCore_flashDue (s : State) (p : Nat) (f : Core → Core) : (s.updCore p f).flashDue = s.flashDue := rfl
@[simp] theorem State.updCore_flashRestore (s : State) (p : Nat) (f : Core → Core) : (s.updCore p f).flashRestore = s.flashRestore := rfl
@[simp] theorem State.updCore_cmap (s : State) (p : Nat) (f : Core → Core) : (s.updCore p f).cmap = s.cmap := rfl
@[simp] theorem State.updCore_cores (s : State) (p : Nat) (f : Core → Core) : (s.updCore p f).cores = put p (f (s.core p)) s.cores := rfl
@[simp] theorem State.updCore_spBase (s : State) (p : Nat) (f : Core → Core) : (s.updCore p f).spBase = s.spBase := rfl
@[simp] theorem State.updCore_meshOut (s : State) (p : Nat) (f : Core → Core) : (s.updCore p f).meshOut = s.meshOut := rfl
@[simp] theorem State.updCore_meshSeen (s : State) (p : Nat) (f : Core → Core) : (s.updCore p f).meshSeen = s.meshSeen := rfl
@[simp] theorem State.updCore_seq (s : State) (p : Nat) (f : Core → Core) : (s.updCore p f).seq = s.seq := rfl
@[simp] theorem State.updCore_commits (s : State) (p : Nat) (f : Core → Core) : (s.updCore p f).commits = s.commits := rfl
@[simp] theorem State.updCore_colls (s : State) (p : Nat) (f : Core → Core) : (s.updCore p f).colls = s.colls := rfl
@[simp] theorem State.updCore_streams (s : State) (p : Nat) (f : Core → Core) : (s.updCore p f).streams = s.streams := rfl
@[simp] theorem State.updCore_msgs (s : State) (p : Nat) (f : Core → Core) : (s.updCore p f).msgs = s.msgs := rfl
@[simp] theorem State.updCore_nextMsg (s : State) (p : Nat) (f : Core → Core) : (s.updCore p f).nextMsg = s.nextMsg := rfl
@[simp] theorem State.updCore_msgNo (s : State) (p : Nat) (f : Core → Core) : (s.updCore p f).msgNo = s.msgNo := rfl
@[simp] theorem State.updCore_retired (s : State) (p : Nat) (f : Core → Core) : (s.updCore p f).retired = s.retired := rfl
@[simp] theorem State.updCore_reorders (s : State) (p : Nat) (f : Core → Core) : (s.updCore p f).reorders = s.reorders := rfl
@[simp] theorem State.updCore_dups (s : State) (p : Nat) (f : Core → Core) : (s.updCore p f).dups = s.dups := rfl
@[simp] theorem State.updCore_waiting (s : State) (p : Nat) (f : Core → Core) : (s.updCore p f).waiting = s.waiting := rfl
@[simp] theorem State.updCore_inbound (s : State) (p : Nat) (f : Core → Core) : (s.updCore p f).inbound = s.inbound := rfl
@[simp] theorem State.updCore_hbms (s : State) (p : Nat) (f : Core → Core) : (s.updCore p f).hbms = s.hbms := rfl
@[simp] theorem State.updCore_troys (s : State) (p : Nat) (f : Core → Core) : (s.updCore p f).troys = s.troys := rfl
@[simp] theorem State.updCore_links (s : State) (p : Nat) (f : Core → Core) : (s.updCore p f).links = s.links := rfl
@[simp] theorem State.updCore_ports (s : State) (p : Nat) (f : Core → Core) : (s.updCore p f).ports = s.ports := rfl
@[simp] theorem State.updCore_everLocked (s : State) (p : Nat) (f : Core → Core) : (s.updCore p f).everLocked = s.everLocked := rfl
@[simp] theorem State.updCore_timeRoot (s : State) (p : Nat) (f : Core → Core) : (s.updCore p f).timeRoot = s.timeRoot := rfl
@[simp] theorem State.updCore_slew (s : State) (p : Nat) (f : Core → Core) : (s.updCore p f).slew = s.slew := rfl
@[simp] theorem State.updCore_rateLeft (s : State) (p : Nat) (f : Core → Core) : (s.updCore p f).rateLeft = s.rateLeft := rfl
@[simp] theorem State.updCore_rateAt (s : State) (p : Nat) (f : Core → Core) : (s.updCore p f).rateAt = s.rateAt := rfl
@[simp] theorem State.updCore_host (s : State) (p : Nat) (f : Core → Core) : (s.updCore p f).host = s.host := rfl
@[simp] theorem State.updCore_chain (s : State) (p : Nat) (f : Core → Core) : (s.updCore p f).chain = s.chain := rfl
@[simp] theorem State.updCore_resets (s : State) (p : Nat) (f : Core → Core) : (s.updCore p f).resets = s.resets := rfl
@[simp] theorem State.updCore_missed (s : State) (p : Nat) (f : Core → Core) : (s.updCore p f).missed = s.missed := rfl
@[simp] theorem State.updCore_hall (s : State) (p : Nat) (f : Core → Core) : (s.updCore p f).hall = s.hall := rfl
@[simp] theorem State.updCore_swaps (s : State) (p : Nat) (f : Core → Core) : (s.updCore p f).swaps = s.swaps := rfl
@[simp] theorem State.updCore_fuses (s : State) (p : Nat) (f : Core → Core) : (s.updCore p f).fuses = s.fuses := rfl
@[simp] theorem State.updCore_fw (s : State) (p : Nat) (f : Core → Core) : (s.updCore p f).fw = s.fw := rfl
@[simp] theorem State.updCore_dbg (s : State) (p : Nat) (f : Core → Core) : (s.updCore p f).dbg = s.dbg := rfl
@[simp] theorem State.updCore_supplies (s : State) (p : Nat) (f : Core → Core) : (s.updCore p f).supplies = s.supplies := rfl
@[simp] theorem State.updCore_thermal (s : State) (p : Nat) (f : Core → Core) : (s.updCore p f).thermal = s.thermal := rfl
@[simp] theorem State.updCore_hbmSteps (s : State) (p : Nat) (f : Core → Core) : (s.updCore p f).hbmSteps = s.hbmSteps := rfl
@[simp] theorem State.updCore_pins (s : State) (p : Nat) (f : Core → Core) : (s.updCore p f).pins = s.pins := rfl
@[simp] theorem State.updCore_startup (s : State) (p : Nat) (f : Core → Core) : (s.updCore p f).startup = s.startup := rfl

/-! ### State.putCtx -/

@[simp] theorem State.putCtx_pending (s : State) (p : Nat) (x : Ctx) : (s.putCtx p x).pending = s.pending := rfl
@[simp] theorem State.putCtx_freeCtr (s : State) (p : Nat) (x : Ctx) : (s.putCtx p x).freeCtr = s.freeCtr := rfl
@[simp] theorem State.putCtx_out (s : State) (p : Nat) (x : Ctx) : (s.putCtx p x).out = s.out := rfl
@[simp] theorem State.putCtx_ftime (s : State) (p : Nat) (x : Ctx) : (s.putCtx p x).ftime = s.ftime := rfl
@[simp] theorem State.putCtx_dict (s : State) (p : Nat) (x : Ctx) : (s.putCtx p x).dict = s.dict := rfl
@[simp] theorem State.putCtx_staging (s : State) (p : Nat) (x : Ctx) : (s.putCtx p x).staging = s.staging := rfl
@[simp] theorem State.putCtx_flashDue (s : State) (p : Nat) (x : Ctx) : (s.putCtx p x).flashDue = s.flashDue := rfl
@[simp] theorem State.putCtx_flashRestore (s : State) (p : Nat) (x : Ctx) : (s.putCtx p x).flashRestore = s.flashRestore := rfl
@[simp] theorem State.putCtx_cmap (s : State) (p : Nat) (x : Ctx) : (s.putCtx p x).cmap = s.cmap := rfl
@[simp] theorem State.putCtx_cores (s : State) (p : Nat) (x : Ctx) : (s.putCtx p x).cores = put p ((s.core p).setCtx x) s.cores := rfl
@[simp] theorem State.putCtx_spBase (s : State) (p : Nat) (x : Ctx) : (s.putCtx p x).spBase = s.spBase := rfl
@[simp] theorem State.putCtx_meshOut (s : State) (p : Nat) (x : Ctx) : (s.putCtx p x).meshOut = s.meshOut := rfl
@[simp] theorem State.putCtx_meshSeen (s : State) (p : Nat) (x : Ctx) : (s.putCtx p x).meshSeen = s.meshSeen := rfl
@[simp] theorem State.putCtx_seq (s : State) (p : Nat) (x : Ctx) : (s.putCtx p x).seq = s.seq := rfl
@[simp] theorem State.putCtx_commits (s : State) (p : Nat) (x : Ctx) : (s.putCtx p x).commits = s.commits := rfl
@[simp] theorem State.putCtx_colls (s : State) (p : Nat) (x : Ctx) : (s.putCtx p x).colls = s.colls := rfl
@[simp] theorem State.putCtx_streams (s : State) (p : Nat) (x : Ctx) : (s.putCtx p x).streams = s.streams := rfl
@[simp] theorem State.putCtx_msgs (s : State) (p : Nat) (x : Ctx) : (s.putCtx p x).msgs = s.msgs := rfl
@[simp] theorem State.putCtx_nextMsg (s : State) (p : Nat) (x : Ctx) : (s.putCtx p x).nextMsg = s.nextMsg := rfl
@[simp] theorem State.putCtx_msgNo (s : State) (p : Nat) (x : Ctx) : (s.putCtx p x).msgNo = s.msgNo := rfl
@[simp] theorem State.putCtx_retired (s : State) (p : Nat) (x : Ctx) : (s.putCtx p x).retired = s.retired := rfl
@[simp] theorem State.putCtx_reorders (s : State) (p : Nat) (x : Ctx) : (s.putCtx p x).reorders = s.reorders := rfl
@[simp] theorem State.putCtx_dups (s : State) (p : Nat) (x : Ctx) : (s.putCtx p x).dups = s.dups := rfl
@[simp] theorem State.putCtx_waiting (s : State) (p : Nat) (x : Ctx) : (s.putCtx p x).waiting = s.waiting := rfl
@[simp] theorem State.putCtx_inbound (s : State) (p : Nat) (x : Ctx) : (s.putCtx p x).inbound = s.inbound := rfl
@[simp] theorem State.putCtx_hbms (s : State) (p : Nat) (x : Ctx) : (s.putCtx p x).hbms = s.hbms := rfl
@[simp] theorem State.putCtx_troys (s : State) (p : Nat) (x : Ctx) : (s.putCtx p x).troys = s.troys := rfl
@[simp] theorem State.putCtx_links (s : State) (p : Nat) (x : Ctx) : (s.putCtx p x).links = s.links := rfl
@[simp] theorem State.putCtx_ports (s : State) (p : Nat) (x : Ctx) : (s.putCtx p x).ports = s.ports := rfl
@[simp] theorem State.putCtx_everLocked (s : State) (p : Nat) (x : Ctx) : (s.putCtx p x).everLocked = s.everLocked := rfl
@[simp] theorem State.putCtx_timeRoot (s : State) (p : Nat) (x : Ctx) : (s.putCtx p x).timeRoot = s.timeRoot := rfl
@[simp] theorem State.putCtx_slew (s : State) (p : Nat) (x : Ctx) : (s.putCtx p x).slew = s.slew := rfl
@[simp] theorem State.putCtx_rateLeft (s : State) (p : Nat) (x : Ctx) : (s.putCtx p x).rateLeft = s.rateLeft := rfl
@[simp] theorem State.putCtx_rateAt (s : State) (p : Nat) (x : Ctx) : (s.putCtx p x).rateAt = s.rateAt := rfl
@[simp] theorem State.putCtx_host (s : State) (p : Nat) (x : Ctx) : (s.putCtx p x).host = s.host := rfl
@[simp] theorem State.putCtx_chain (s : State) (p : Nat) (x : Ctx) : (s.putCtx p x).chain = s.chain := rfl
@[simp] theorem State.putCtx_resets (s : State) (p : Nat) (x : Ctx) : (s.putCtx p x).resets = s.resets := rfl
@[simp] theorem State.putCtx_missed (s : State) (p : Nat) (x : Ctx) : (s.putCtx p x).missed = s.missed := rfl
@[simp] theorem State.putCtx_hall (s : State) (p : Nat) (x : Ctx) : (s.putCtx p x).hall = s.hall := rfl
@[simp] theorem State.putCtx_swaps (s : State) (p : Nat) (x : Ctx) : (s.putCtx p x).swaps = s.swaps := rfl
@[simp] theorem State.putCtx_fuses (s : State) (p : Nat) (x : Ctx) : (s.putCtx p x).fuses = s.fuses := rfl
@[simp] theorem State.putCtx_fw (s : State) (p : Nat) (x : Ctx) : (s.putCtx p x).fw = s.fw := rfl
@[simp] theorem State.putCtx_dbg (s : State) (p : Nat) (x : Ctx) : (s.putCtx p x).dbg = s.dbg := rfl
@[simp] theorem State.putCtx_supplies (s : State) (p : Nat) (x : Ctx) : (s.putCtx p x).supplies = s.supplies := rfl
@[simp] theorem State.putCtx_thermal (s : State) (p : Nat) (x : Ctx) : (s.putCtx p x).thermal = s.thermal := rfl
@[simp] theorem State.putCtx_hbmSteps (s : State) (p : Nat) (x : Ctx) : (s.putCtx p x).hbmSteps = s.hbmSteps := rfl
@[simp] theorem State.putCtx_pins (s : State) (p : Nat) (x : Ctx) : (s.putCtx p x).pins = s.pins := rfl
@[simp] theorem State.putCtx_startup (s : State) (p : Nat) (x : Ctx) : (s.putCtx p x).startup = s.startup := rfl

/-! ### State.spWrite -/

@[simp] theorem State.spWrite_pending (s : State) (p a : Nat) (bs : List Byte) : (s.spWrite p a bs).pending = s.pending := rfl
@[simp] theorem State.spWrite_freeCtr (s : State) (p a : Nat) (bs : List Byte) : (s.spWrite p a bs).freeCtr = s.freeCtr := rfl
@[simp] theorem State.spWrite_out (s : State) (p a : Nat) (bs : List Byte) : (s.spWrite p a bs).out = s.out := rfl
@[simp] theorem State.spWrite_ftime (s : State) (p a : Nat) (bs : List Byte) : (s.spWrite p a bs).ftime = s.ftime := rfl
@[simp] theorem State.spWrite_dict (s : State) (p a : Nat) (bs : List Byte) : (s.spWrite p a bs).dict = s.dict := rfl
@[simp] theorem State.spWrite_staging (s : State) (p a : Nat) (bs : List Byte) : (s.spWrite p a bs).staging = s.staging := rfl
@[simp] theorem State.spWrite_flashDue (s : State) (p a : Nat) (bs : List Byte) : (s.spWrite p a bs).flashDue = s.flashDue := rfl
@[simp] theorem State.spWrite_flashRestore (s : State) (p a : Nat) (bs : List Byte) : (s.spWrite p a bs).flashRestore = s.flashRestore := rfl
@[simp] theorem State.spWrite_cmap (s : State) (p a : Nat) (bs : List Byte) : (s.spWrite p a bs).cmap = s.cmap := rfl
@[simp] theorem State.spWrite_cores (s : State) (p a : Nat) (bs : List Byte) : (s.spWrite p a bs).cores = put p { s.core p with sp := (s.core p).sp.writeN a bs, crc := s.lockCrc (s.core p).crc bs } s.cores := rfl
@[simp] theorem State.spWrite_spBase (s : State) (p a : Nat) (bs : List Byte) : (s.spWrite p a bs).spBase = s.spBase := rfl
@[simp] theorem State.spWrite_meshOut (s : State) (p a : Nat) (bs : List Byte) : (s.spWrite p a bs).meshOut = s.meshOut := rfl
@[simp] theorem State.spWrite_meshSeen (s : State) (p a : Nat) (bs : List Byte) : (s.spWrite p a bs).meshSeen = s.meshSeen := rfl
@[simp] theorem State.spWrite_seq (s : State) (p a : Nat) (bs : List Byte) : (s.spWrite p a bs).seq = s.seq := rfl
@[simp] theorem State.spWrite_commits (s : State) (p a : Nat) (bs : List Byte) : (s.spWrite p a bs).commits = s.commits := rfl
@[simp] theorem State.spWrite_colls (s : State) (p a : Nat) (bs : List Byte) : (s.spWrite p a bs).colls = s.colls := rfl
@[simp] theorem State.spWrite_streams (s : State) (p a : Nat) (bs : List Byte) : (s.spWrite p a bs).streams = s.streams := rfl
@[simp] theorem State.spWrite_msgs (s : State) (p a : Nat) (bs : List Byte) : (s.spWrite p a bs).msgs = s.msgs := rfl
@[simp] theorem State.spWrite_nextMsg (s : State) (p a : Nat) (bs : List Byte) : (s.spWrite p a bs).nextMsg = s.nextMsg := rfl
@[simp] theorem State.spWrite_msgNo (s : State) (p a : Nat) (bs : List Byte) : (s.spWrite p a bs).msgNo = s.msgNo := rfl
@[simp] theorem State.spWrite_retired (s : State) (p a : Nat) (bs : List Byte) : (s.spWrite p a bs).retired = s.retired := rfl
@[simp] theorem State.spWrite_reorders (s : State) (p a : Nat) (bs : List Byte) : (s.spWrite p a bs).reorders = s.reorders := rfl
@[simp] theorem State.spWrite_dups (s : State) (p a : Nat) (bs : List Byte) : (s.spWrite p a bs).dups = s.dups := rfl
@[simp] theorem State.spWrite_waiting (s : State) (p a : Nat) (bs : List Byte) : (s.spWrite p a bs).waiting = s.waiting := rfl
@[simp] theorem State.spWrite_inbound (s : State) (p a : Nat) (bs : List Byte) : (s.spWrite p a bs).inbound = s.inbound := rfl
@[simp] theorem State.spWrite_hbms (s : State) (p a : Nat) (bs : List Byte) : (s.spWrite p a bs).hbms = s.hbms := rfl
@[simp] theorem State.spWrite_troys (s : State) (p a : Nat) (bs : List Byte) : (s.spWrite p a bs).troys = s.troys := rfl
@[simp] theorem State.spWrite_links (s : State) (p a : Nat) (bs : List Byte) : (s.spWrite p a bs).links = s.links := rfl
@[simp] theorem State.spWrite_ports (s : State) (p a : Nat) (bs : List Byte) : (s.spWrite p a bs).ports = s.ports := rfl
@[simp] theorem State.spWrite_everLocked (s : State) (p a : Nat) (bs : List Byte) : (s.spWrite p a bs).everLocked = s.everLocked := rfl
@[simp] theorem State.spWrite_timeRoot (s : State) (p a : Nat) (bs : List Byte) : (s.spWrite p a bs).timeRoot = s.timeRoot := rfl
@[simp] theorem State.spWrite_slew (s : State) (p a : Nat) (bs : List Byte) : (s.spWrite p a bs).slew = s.slew := rfl
@[simp] theorem State.spWrite_rateLeft (s : State) (p a : Nat) (bs : List Byte) : (s.spWrite p a bs).rateLeft = s.rateLeft := rfl
@[simp] theorem State.spWrite_rateAt (s : State) (p a : Nat) (bs : List Byte) : (s.spWrite p a bs).rateAt = s.rateAt := rfl
@[simp] theorem State.spWrite_host (s : State) (p a : Nat) (bs : List Byte) : (s.spWrite p a bs).host = s.host := rfl
@[simp] theorem State.spWrite_chain (s : State) (p a : Nat) (bs : List Byte) : (s.spWrite p a bs).chain = s.chain := rfl
@[simp] theorem State.spWrite_resets (s : State) (p a : Nat) (bs : List Byte) : (s.spWrite p a bs).resets = s.resets := rfl
@[simp] theorem State.spWrite_missed (s : State) (p a : Nat) (bs : List Byte) : (s.spWrite p a bs).missed = s.missed := rfl
@[simp] theorem State.spWrite_hall (s : State) (p a : Nat) (bs : List Byte) : (s.spWrite p a bs).hall = s.hall := rfl
@[simp] theorem State.spWrite_swaps (s : State) (p a : Nat) (bs : List Byte) : (s.spWrite p a bs).swaps = s.swaps := rfl
@[simp] theorem State.spWrite_fuses (s : State) (p a : Nat) (bs : List Byte) : (s.spWrite p a bs).fuses = s.fuses := rfl
@[simp] theorem State.spWrite_fw (s : State) (p a : Nat) (bs : List Byte) : (s.spWrite p a bs).fw = s.fw := rfl
@[simp] theorem State.spWrite_dbg (s : State) (p a : Nat) (bs : List Byte) : (s.spWrite p a bs).dbg = s.dbg := rfl
@[simp] theorem State.spWrite_supplies (s : State) (p a : Nat) (bs : List Byte) : (s.spWrite p a bs).supplies = s.supplies := rfl
@[simp] theorem State.spWrite_thermal (s : State) (p a : Nat) (bs : List Byte) : (s.spWrite p a bs).thermal = s.thermal := rfl
@[simp] theorem State.spWrite_hbmSteps (s : State) (p a : Nat) (bs : List Byte) : (s.spWrite p a bs).hbmSteps = s.hbmSteps := rfl
@[simp] theorem State.spWrite_pins (s : State) (p a : Nat) (bs : List Byte) : (s.spWrite p a bs).pins = s.pins := rfl
@[simp] theorem State.spWrite_startup (s : State) (p a : Nat) (bs : List Byte) : (s.spWrite p a bs).startup = s.startup := rfl

/-! ### State.incCtr -/

@[simp] theorem State.incCtr_pending (s : State) (p n v : Nat) : (s.incCtr p n v).pending = s.pending := rfl
@[simp] theorem State.incCtr_freeCtr (s : State) (p n v : Nat) : (s.incCtr p n v).freeCtr = s.freeCtr := rfl
@[simp] theorem State.incCtr_out (s : State) (p n v : Nat) : (s.incCtr p n v).out = s.out := rfl
@[simp] theorem State.incCtr_ftime (s : State) (p n v : Nat) : (s.incCtr p n v).ftime = s.ftime := rfl
@[simp] theorem State.incCtr_dict (s : State) (p n v : Nat) : (s.incCtr p n v).dict = s.dict := rfl
@[simp] theorem State.incCtr_staging (s : State) (p n v : Nat) : (s.incCtr p n v).staging = s.staging := rfl
@[simp] theorem State.incCtr_flashDue (s : State) (p n v : Nat) : (s.incCtr p n v).flashDue = s.flashDue := rfl
@[simp] theorem State.incCtr_flashRestore (s : State) (p n v : Nat) : (s.incCtr p n v).flashRestore = s.flashRestore := rfl
@[simp] theorem State.incCtr_cmap (s : State) (p n v : Nat) : (s.incCtr p n v).cmap = s.cmap := rfl
@[simp] theorem State.incCtr_cores (s : State) (p n v : Nat) : (s.incCtr p n v).cores = put p ((s.core p).incCtr n v) s.cores := rfl
@[simp] theorem State.incCtr_spBase (s : State) (p n v : Nat) : (s.incCtr p n v).spBase = s.spBase := rfl
@[simp] theorem State.incCtr_meshOut (s : State) (p n v : Nat) : (s.incCtr p n v).meshOut = s.meshOut := rfl
@[simp] theorem State.incCtr_meshSeen (s : State) (p n v : Nat) : (s.incCtr p n v).meshSeen = s.meshSeen := rfl
@[simp] theorem State.incCtr_seq (s : State) (p n v : Nat) : (s.incCtr p n v).seq = s.seq := rfl
@[simp] theorem State.incCtr_commits (s : State) (p n v : Nat) : (s.incCtr p n v).commits = s.commits := rfl
@[simp] theorem State.incCtr_colls (s : State) (p n v : Nat) : (s.incCtr p n v).colls = s.colls := rfl
@[simp] theorem State.incCtr_streams (s : State) (p n v : Nat) : (s.incCtr p n v).streams = s.streams := rfl
@[simp] theorem State.incCtr_msgs (s : State) (p n v : Nat) : (s.incCtr p n v).msgs = s.msgs := rfl
@[simp] theorem State.incCtr_nextMsg (s : State) (p n v : Nat) : (s.incCtr p n v).nextMsg = s.nextMsg := rfl
@[simp] theorem State.incCtr_msgNo (s : State) (p n v : Nat) : (s.incCtr p n v).msgNo = s.msgNo := rfl
@[simp] theorem State.incCtr_retired (s : State) (p n v : Nat) : (s.incCtr p n v).retired = s.retired := rfl
@[simp] theorem State.incCtr_reorders (s : State) (p n v : Nat) : (s.incCtr p n v).reorders = s.reorders := rfl
@[simp] theorem State.incCtr_dups (s : State) (p n v : Nat) : (s.incCtr p n v).dups = s.dups := rfl
@[simp] theorem State.incCtr_waiting (s : State) (p n v : Nat) : (s.incCtr p n v).waiting = s.waiting := rfl
@[simp] theorem State.incCtr_inbound (s : State) (p n v : Nat) : (s.incCtr p n v).inbound = s.inbound := rfl
@[simp] theorem State.incCtr_hbms (s : State) (p n v : Nat) : (s.incCtr p n v).hbms = s.hbms := rfl
@[simp] theorem State.incCtr_troys (s : State) (p n v : Nat) : (s.incCtr p n v).troys = s.troys := rfl
@[simp] theorem State.incCtr_links (s : State) (p n v : Nat) : (s.incCtr p n v).links = s.links := rfl
@[simp] theorem State.incCtr_ports (s : State) (p n v : Nat) : (s.incCtr p n v).ports = s.ports := rfl
@[simp] theorem State.incCtr_everLocked (s : State) (p n v : Nat) : (s.incCtr p n v).everLocked = s.everLocked := rfl
@[simp] theorem State.incCtr_timeRoot (s : State) (p n v : Nat) : (s.incCtr p n v).timeRoot = s.timeRoot := rfl
@[simp] theorem State.incCtr_slew (s : State) (p n v : Nat) : (s.incCtr p n v).slew = s.slew := rfl
@[simp] theorem State.incCtr_rateLeft (s : State) (p n v : Nat) : (s.incCtr p n v).rateLeft = s.rateLeft := rfl
@[simp] theorem State.incCtr_rateAt (s : State) (p n v : Nat) : (s.incCtr p n v).rateAt = s.rateAt := rfl
@[simp] theorem State.incCtr_host (s : State) (p n v : Nat) : (s.incCtr p n v).host = s.host := rfl
@[simp] theorem State.incCtr_chain (s : State) (p n v : Nat) : (s.incCtr p n v).chain = s.chain := rfl
@[simp] theorem State.incCtr_resets (s : State) (p n v : Nat) : (s.incCtr p n v).resets = s.resets := rfl
@[simp] theorem State.incCtr_missed (s : State) (p n v : Nat) : (s.incCtr p n v).missed = s.missed := rfl
@[simp] theorem State.incCtr_hall (s : State) (p n v : Nat) : (s.incCtr p n v).hall = s.hall := rfl
@[simp] theorem State.incCtr_swaps (s : State) (p n v : Nat) : (s.incCtr p n v).swaps = s.swaps := rfl
@[simp] theorem State.incCtr_fuses (s : State) (p n v : Nat) : (s.incCtr p n v).fuses = s.fuses := rfl
@[simp] theorem State.incCtr_fw (s : State) (p n v : Nat) : (s.incCtr p n v).fw = s.fw := rfl
@[simp] theorem State.incCtr_dbg (s : State) (p n v : Nat) : (s.incCtr p n v).dbg = s.dbg := rfl
@[simp] theorem State.incCtr_supplies (s : State) (p n v : Nat) : (s.incCtr p n v).supplies = s.supplies := rfl
@[simp] theorem State.incCtr_thermal (s : State) (p n v : Nat) : (s.incCtr p n v).thermal = s.thermal := rfl
@[simp] theorem State.incCtr_hbmSteps (s : State) (p n v : Nat) : (s.incCtr p n v).hbmSteps = s.hbmSteps := rfl
@[simp] theorem State.incCtr_pins (s : State) (p n v : Nat) : (s.incCtr p n v).pins = s.pins := rfl
@[simp] theorem State.incCtr_startup (s : State) (p n v : Nat) : (s.incCtr p n v).startup = s.startup := rfl

/-! ### State.countClocks -/

@[simp] theorem State.countClocks_pending (s : State) (e : Ent) : (s.countClocks e).pending = s.pending := rfl
@[simp] theorem State.countClocks_freeCtr (s : State) (e : Ent) : (s.countClocks e).freeCtr = s.freeCtr + 1 := rfl
@[simp] theorem State.countClocks_out (s : State) (e : Ent) : (s.countClocks e).out = s.out := rfl
@[simp] theorem State.countClocks_ftime (s : State) (e : Ent) : (s.countClocks e).ftime = s.ftime := rfl
@[simp] theorem State.countClocks_dict (s : State) (e : Ent) : (s.countClocks e).dict = put e.key (satAdd64 (s.get e) s.free) s.dict := rfl
@[simp] theorem State.countClocks_staging (s : State) (e : Ent) : (s.countClocks e).staging = s.staging := rfl
@[simp] theorem State.countClocks_flashDue (s : State) (e : Ent) : (s.countClocks e).flashDue = s.flashDue := rfl
@[simp] theorem State.countClocks_flashRestore (s : State) (e : Ent) : (s.countClocks e).flashRestore = s.flashRestore := rfl
@[simp] theorem State.countClocks_cmap (s : State) (e : Ent) : (s.countClocks e).cmap = s.cmap := rfl
@[simp] theorem State.countClocks_cores (s : State) (e : Ent) : (s.countClocks e).cores = s.cores := rfl
@[simp] theorem State.countClocks_spBase (s : State) (e : Ent) : (s.countClocks e).spBase = s.spBase := rfl
@[simp] theorem State.countClocks_meshOut (s : State) (e : Ent) : (s.countClocks e).meshOut = s.meshOut := rfl
@[simp] theorem State.countClocks_meshSeen (s : State) (e : Ent) : (s.countClocks e).meshSeen = s.meshSeen := rfl
@[simp] theorem State.countClocks_seq (s : State) (e : Ent) : (s.countClocks e).seq = s.seq := rfl
@[simp] theorem State.countClocks_commits (s : State) (e : Ent) : (s.countClocks e).commits = s.commits := rfl
@[simp] theorem State.countClocks_colls (s : State) (e : Ent) : (s.countClocks e).colls = s.colls := rfl
@[simp] theorem State.countClocks_streams (s : State) (e : Ent) : (s.countClocks e).streams = s.streams := rfl
@[simp] theorem State.countClocks_msgs (s : State) (e : Ent) : (s.countClocks e).msgs = s.msgs := rfl
@[simp] theorem State.countClocks_nextMsg (s : State) (e : Ent) : (s.countClocks e).nextMsg = s.nextMsg := rfl
@[simp] theorem State.countClocks_msgNo (s : State) (e : Ent) : (s.countClocks e).msgNo = s.msgNo := rfl
@[simp] theorem State.countClocks_retired (s : State) (e : Ent) : (s.countClocks e).retired = s.retired := rfl
@[simp] theorem State.countClocks_reorders (s : State) (e : Ent) : (s.countClocks e).reorders = s.reorders := rfl
@[simp] theorem State.countClocks_dups (s : State) (e : Ent) : (s.countClocks e).dups = s.dups := rfl
@[simp] theorem State.countClocks_waiting (s : State) (e : Ent) : (s.countClocks e).waiting = s.waiting := rfl
@[simp] theorem State.countClocks_inbound (s : State) (e : Ent) : (s.countClocks e).inbound = s.inbound := rfl
@[simp] theorem State.countClocks_hbms (s : State) (e : Ent) : (s.countClocks e).hbms = s.hbms := rfl
@[simp] theorem State.countClocks_troys (s : State) (e : Ent) : (s.countClocks e).troys = s.troys := rfl
@[simp] theorem State.countClocks_links (s : State) (e : Ent) : (s.countClocks e).links = s.links := rfl
@[simp] theorem State.countClocks_ports (s : State) (e : Ent) : (s.countClocks e).ports = s.ports := rfl
@[simp] theorem State.countClocks_everLocked (s : State) (e : Ent) : (s.countClocks e).everLocked = s.everLocked := rfl
@[simp] theorem State.countClocks_timeRoot (s : State) (e : Ent) : (s.countClocks e).timeRoot = s.timeRoot := rfl
@[simp] theorem State.countClocks_slew (s : State) (e : Ent) : (s.countClocks e).slew = s.slew := rfl
@[simp] theorem State.countClocks_rateLeft (s : State) (e : Ent) : (s.countClocks e).rateLeft = s.rateLeft := rfl
@[simp] theorem State.countClocks_rateAt (s : State) (e : Ent) : (s.countClocks e).rateAt = s.rateAt := rfl
@[simp] theorem State.countClocks_host (s : State) (e : Ent) : (s.countClocks e).host = s.host := rfl
@[simp] theorem State.countClocks_chain (s : State) (e : Ent) : (s.countClocks e).chain = s.chain := rfl
@[simp] theorem State.countClocks_resets (s : State) (e : Ent) : (s.countClocks e).resets = s.resets := rfl
@[simp] theorem State.countClocks_missed (s : State) (e : Ent) : (s.countClocks e).missed = s.missed := rfl
@[simp] theorem State.countClocks_hall (s : State) (e : Ent) : (s.countClocks e).hall = s.hall := rfl
@[simp] theorem State.countClocks_swaps (s : State) (e : Ent) : (s.countClocks e).swaps = s.swaps := rfl
@[simp] theorem State.countClocks_fuses (s : State) (e : Ent) : (s.countClocks e).fuses = s.fuses := rfl
@[simp] theorem State.countClocks_fw (s : State) (e : Ent) : (s.countClocks e).fw = s.fw := rfl
@[simp] theorem State.countClocks_dbg (s : State) (e : Ent) : (s.countClocks e).dbg = s.dbg := rfl
@[simp] theorem State.countClocks_supplies (s : State) (e : Ent) : (s.countClocks e).supplies = s.supplies := rfl
@[simp] theorem State.countClocks_thermal (s : State) (e : Ent) : (s.countClocks e).thermal = s.thermal := rfl
@[simp] theorem State.countClocks_hbmSteps (s : State) (e : Ent) : (s.countClocks e).hbmSteps = s.hbmSteps := rfl
@[simp] theorem State.countClocks_pins (s : State) (e : Ent) : (s.countClocks e).pins = s.pins := rfl
@[simp] theorem State.countClocks_startup (s : State) (e : Ent) : (s.countClocks e).startup = s.startup := rfl

/-! ### State.setFlash -/

@[simp] theorem State.setFlash_pending (s : State) (e : Ent) (v : Nat) : (s.setFlash e v).pending = s.pending := rfl
@[simp] theorem State.setFlash_freeCtr (s : State) (e : Ent) (v : Nat) : (s.setFlash e v).freeCtr = s.freeCtr := rfl
@[simp] theorem State.setFlash_out (s : State) (e : Ent) (v : Nat) : (s.setFlash e v).out = s.out := rfl
@[simp] theorem State.setFlash_ftime (s : State) (e : Ent) (v : Nat) : (s.setFlash e v).ftime = s.ftime := rfl
@[simp] theorem State.setFlash_dict (s : State) (e : Ent) (v : Nat) : (s.setFlash e v).dict = put e.key v s.dict := rfl
@[simp] theorem State.setFlash_staging (s : State) (e : Ent) (v : Nat) : (s.setFlash e v).staging = s.staging := rfl
@[simp] theorem State.setFlash_flashDue (s : State) (e : Ent) (v : Nat) : (s.setFlash e v).flashDue = if (look e.key s.flashDue).isSome then s.flashDue else put e.key (look e.key s.dict) s.flashDue := rfl
@[simp] theorem State.setFlash_flashRestore (s : State) (e : Ent) (v : Nat) : (s.setFlash e v).flashRestore = s.flashRestore := rfl
@[simp] theorem State.setFlash_cmap (s : State) (e : Ent) (v : Nat) : (s.setFlash e v).cmap = s.cmap := rfl
@[simp] theorem State.setFlash_cores (s : State) (e : Ent) (v : Nat) : (s.setFlash e v).cores = s.cores := rfl
@[simp] theorem State.setFlash_spBase (s : State) (e : Ent) (v : Nat) : (s.setFlash e v).spBase = s.spBase := rfl
@[simp] theorem State.setFlash_meshOut (s : State) (e : Ent) (v : Nat) : (s.setFlash e v).meshOut = s.meshOut := rfl
@[simp] theorem State.setFlash_meshSeen (s : State) (e : Ent) (v : Nat) : (s.setFlash e v).meshSeen = s.meshSeen := rfl
@[simp] theorem State.setFlash_seq (s : State) (e : Ent) (v : Nat) : (s.setFlash e v).seq = s.seq := rfl
@[simp] theorem State.setFlash_commits (s : State) (e : Ent) (v : Nat) : (s.setFlash e v).commits = s.commits := rfl
@[simp] theorem State.setFlash_colls (s : State) (e : Ent) (v : Nat) : (s.setFlash e v).colls = s.colls := rfl
@[simp] theorem State.setFlash_streams (s : State) (e : Ent) (v : Nat) : (s.setFlash e v).streams = s.streams := rfl
@[simp] theorem State.setFlash_msgs (s : State) (e : Ent) (v : Nat) : (s.setFlash e v).msgs = s.msgs := rfl
@[simp] theorem State.setFlash_nextMsg (s : State) (e : Ent) (v : Nat) : (s.setFlash e v).nextMsg = s.nextMsg := rfl
@[simp] theorem State.setFlash_msgNo (s : State) (e : Ent) (v : Nat) : (s.setFlash e v).msgNo = s.msgNo := rfl
@[simp] theorem State.setFlash_retired (s : State) (e : Ent) (v : Nat) : (s.setFlash e v).retired = s.retired := rfl
@[simp] theorem State.setFlash_reorders (s : State) (e : Ent) (v : Nat) : (s.setFlash e v).reorders = s.reorders := rfl
@[simp] theorem State.setFlash_dups (s : State) (e : Ent) (v : Nat) : (s.setFlash e v).dups = s.dups := rfl
@[simp] theorem State.setFlash_waiting (s : State) (e : Ent) (v : Nat) : (s.setFlash e v).waiting = s.waiting := rfl
@[simp] theorem State.setFlash_inbound (s : State) (e : Ent) (v : Nat) : (s.setFlash e v).inbound = s.inbound := rfl
@[simp] theorem State.setFlash_hbms (s : State) (e : Ent) (v : Nat) : (s.setFlash e v).hbms = s.hbms := rfl
@[simp] theorem State.setFlash_troys (s : State) (e : Ent) (v : Nat) : (s.setFlash e v).troys = s.troys := rfl
@[simp] theorem State.setFlash_links (s : State) (e : Ent) (v : Nat) : (s.setFlash e v).links = s.links := rfl
@[simp] theorem State.setFlash_ports (s : State) (e : Ent) (v : Nat) : (s.setFlash e v).ports = s.ports := rfl
@[simp] theorem State.setFlash_everLocked (s : State) (e : Ent) (v : Nat) : (s.setFlash e v).everLocked = s.everLocked := rfl
@[simp] theorem State.setFlash_timeRoot (s : State) (e : Ent) (v : Nat) : (s.setFlash e v).timeRoot = s.timeRoot := rfl
@[simp] theorem State.setFlash_slew (s : State) (e : Ent) (v : Nat) : (s.setFlash e v).slew = s.slew := rfl
@[simp] theorem State.setFlash_rateLeft (s : State) (e : Ent) (v : Nat) : (s.setFlash e v).rateLeft = s.rateLeft := rfl
@[simp] theorem State.setFlash_rateAt (s : State) (e : Ent) (v : Nat) : (s.setFlash e v).rateAt = s.rateAt := rfl
@[simp] theorem State.setFlash_host (s : State) (e : Ent) (v : Nat) : (s.setFlash e v).host = s.host := rfl
@[simp] theorem State.setFlash_chain (s : State) (e : Ent) (v : Nat) : (s.setFlash e v).chain = s.chain := rfl
@[simp] theorem State.setFlash_resets (s : State) (e : Ent) (v : Nat) : (s.setFlash e v).resets = s.resets := rfl
@[simp] theorem State.setFlash_missed (s : State) (e : Ent) (v : Nat) : (s.setFlash e v).missed = s.missed := rfl
@[simp] theorem State.setFlash_hall (s : State) (e : Ent) (v : Nat) : (s.setFlash e v).hall = s.hall := rfl
@[simp] theorem State.setFlash_swaps (s : State) (e : Ent) (v : Nat) : (s.setFlash e v).swaps = s.swaps := rfl
@[simp] theorem State.setFlash_fuses (s : State) (e : Ent) (v : Nat) : (s.setFlash e v).fuses = s.fuses := rfl
@[simp] theorem State.setFlash_fw (s : State) (e : Ent) (v : Nat) : (s.setFlash e v).fw = s.fw := rfl
@[simp] theorem State.setFlash_dbg (s : State) (e : Ent) (v : Nat) : (s.setFlash e v).dbg = s.dbg := rfl
@[simp] theorem State.setFlash_supplies (s : State) (e : Ent) (v : Nat) : (s.setFlash e v).supplies = s.supplies := rfl
@[simp] theorem State.setFlash_thermal (s : State) (e : Ent) (v : Nat) : (s.setFlash e v).thermal = s.thermal := rfl
@[simp] theorem State.setFlash_hbmSteps (s : State) (e : Ent) (v : Nat) : (s.setFlash e v).hbmSteps = s.hbmSteps := rfl
@[simp] theorem State.setFlash_pins (s : State) (e : Ent) (v : Nat) : (s.setFlash e v).pins = s.pins := rfl
@[simp] theorem State.setFlash_startup (s : State) (e : Ent) (v : Nat) : (s.setFlash e v).startup = s.startup := rfl

/-! ### State.setStack -/

@[simp] theorem State.setStack_pending (s : State) (n : Nat) (x : Stack) : (s.setStack n x).pending = s.pending := rfl
@[simp] theorem State.setStack_freeCtr (s : State) (n : Nat) (x : Stack) : (s.setStack n x).freeCtr = s.freeCtr := rfl
@[simp] theorem State.setStack_out (s : State) (n : Nat) (x : Stack) : (s.setStack n x).out = s.out := rfl
@[simp] theorem State.setStack_ftime (s : State) (n : Nat) (x : Stack) : (s.setStack n x).ftime = s.ftime := rfl
@[simp] theorem State.setStack_dict (s : State) (n : Nat) (x : Stack) : (s.setStack n x).dict = s.dict := rfl
@[simp] theorem State.setStack_staging (s : State) (n : Nat) (x : Stack) : (s.setStack n x).staging = s.staging := rfl
@[simp] theorem State.setStack_flashDue (s : State) (n : Nat) (x : Stack) : (s.setStack n x).flashDue = s.flashDue := rfl
@[simp] theorem State.setStack_flashRestore (s : State) (n : Nat) (x : Stack) : (s.setStack n x).flashRestore = s.flashRestore := rfl
@[simp] theorem State.setStack_cmap (s : State) (n : Nat) (x : Stack) : (s.setStack n x).cmap = s.cmap := rfl
@[simp] theorem State.setStack_cores (s : State) (n : Nat) (x : Stack) : (s.setStack n x).cores = s.cores := rfl
@[simp] theorem State.setStack_spBase (s : State) (n : Nat) (x : Stack) : (s.setStack n x).spBase = s.spBase := rfl
@[simp] theorem State.setStack_meshOut (s : State) (n : Nat) (x : Stack) : (s.setStack n x).meshOut = s.meshOut := rfl
@[simp] theorem State.setStack_meshSeen (s : State) (n : Nat) (x : Stack) : (s.setStack n x).meshSeen = s.meshSeen := rfl
@[simp] theorem State.setStack_seq (s : State) (n : Nat) (x : Stack) : (s.setStack n x).seq = s.seq := rfl
@[simp] theorem State.setStack_commits (s : State) (n : Nat) (x : Stack) : (s.setStack n x).commits = s.commits := rfl
@[simp] theorem State.setStack_colls (s : State) (n : Nat) (x : Stack) : (s.setStack n x).colls = s.colls := rfl
@[simp] theorem State.setStack_streams (s : State) (n : Nat) (x : Stack) : (s.setStack n x).streams = s.streams := rfl
@[simp] theorem State.setStack_msgs (s : State) (n : Nat) (x : Stack) : (s.setStack n x).msgs = s.msgs := rfl
@[simp] theorem State.setStack_nextMsg (s : State) (n : Nat) (x : Stack) : (s.setStack n x).nextMsg = s.nextMsg := rfl
@[simp] theorem State.setStack_msgNo (s : State) (n : Nat) (x : Stack) : (s.setStack n x).msgNo = s.msgNo := rfl
@[simp] theorem State.setStack_retired (s : State) (n : Nat) (x : Stack) : (s.setStack n x).retired = s.retired := rfl
@[simp] theorem State.setStack_reorders (s : State) (n : Nat) (x : Stack) : (s.setStack n x).reorders = s.reorders := rfl
@[simp] theorem State.setStack_dups (s : State) (n : Nat) (x : Stack) : (s.setStack n x).dups = s.dups := rfl
@[simp] theorem State.setStack_waiting (s : State) (n : Nat) (x : Stack) : (s.setStack n x).waiting = s.waiting := rfl
@[simp] theorem State.setStack_inbound (s : State) (n : Nat) (x : Stack) : (s.setStack n x).inbound = s.inbound := rfl
@[simp] theorem State.setStack_hbms (s : State) (n : Nat) (x : Stack) : (s.setStack n x).hbms = put n x s.hbms := rfl
@[simp] theorem State.setStack_troys (s : State) (n : Nat) (x : Stack) : (s.setStack n x).troys = s.troys := rfl
@[simp] theorem State.setStack_links (s : State) (n : Nat) (x : Stack) : (s.setStack n x).links = s.links := rfl
@[simp] theorem State.setStack_ports (s : State) (n : Nat) (x : Stack) : (s.setStack n x).ports = s.ports := rfl
@[simp] theorem State.setStack_everLocked (s : State) (n : Nat) (x : Stack) : (s.setStack n x).everLocked = s.everLocked := rfl
@[simp] theorem State.setStack_timeRoot (s : State) (n : Nat) (x : Stack) : (s.setStack n x).timeRoot = s.timeRoot := rfl
@[simp] theorem State.setStack_slew (s : State) (n : Nat) (x : Stack) : (s.setStack n x).slew = s.slew := rfl
@[simp] theorem State.setStack_rateLeft (s : State) (n : Nat) (x : Stack) : (s.setStack n x).rateLeft = s.rateLeft := rfl
@[simp] theorem State.setStack_rateAt (s : State) (n : Nat) (x : Stack) : (s.setStack n x).rateAt = s.rateAt := rfl
@[simp] theorem State.setStack_host (s : State) (n : Nat) (x : Stack) : (s.setStack n x).host = s.host := rfl
@[simp] theorem State.setStack_chain (s : State) (n : Nat) (x : Stack) : (s.setStack n x).chain = s.chain := rfl
@[simp] theorem State.setStack_resets (s : State) (n : Nat) (x : Stack) : (s.setStack n x).resets = s.resets := rfl
@[simp] theorem State.setStack_missed (s : State) (n : Nat) (x : Stack) : (s.setStack n x).missed = s.missed := rfl
@[simp] theorem State.setStack_hall (s : State) (n : Nat) (x : Stack) : (s.setStack n x).hall = s.hall := rfl
@[simp] theorem State.setStack_swaps (s : State) (n : Nat) (x : Stack) : (s.setStack n x).swaps = s.swaps := rfl
@[simp] theorem State.setStack_fuses (s : State) (n : Nat) (x : Stack) : (s.setStack n x).fuses = s.fuses := rfl
@[simp] theorem State.setStack_fw (s : State) (n : Nat) (x : Stack) : (s.setStack n x).fw = s.fw := rfl
@[simp] theorem State.setStack_dbg (s : State) (n : Nat) (x : Stack) : (s.setStack n x).dbg = s.dbg := rfl
@[simp] theorem State.setStack_supplies (s : State) (n : Nat) (x : Stack) : (s.setStack n x).supplies = s.supplies := rfl
@[simp] theorem State.setStack_thermal (s : State) (n : Nat) (x : Stack) : (s.setStack n x).thermal = s.thermal := rfl
@[simp] theorem State.setStack_hbmSteps (s : State) (n : Nat) (x : Stack) : (s.setStack n x).hbmSteps = s.hbmSteps := rfl
@[simp] theorem State.setStack_pins (s : State) (n : Nat) (x : Stack) : (s.setStack n x).pins = s.pins := rfl
@[simp] theorem State.setStack_startup (s : State) (n : Nat) (x : Stack) : (s.setStack n x).startup = s.startup := rfl

/-! ### State.setLink -/

@[simp] theorem State.setLink_pending (s : State) (l : Nat) (x : LinkState) : (s.setLink l x).pending = s.pending := rfl
@[simp] theorem State.setLink_freeCtr (s : State) (l : Nat) (x : LinkState) : (s.setLink l x).freeCtr = s.freeCtr := rfl
@[simp] theorem State.setLink_out (s : State) (l : Nat) (x : LinkState) : (s.setLink l x).out = s.out := rfl
@[simp] theorem State.setLink_ftime (s : State) (l : Nat) (x : LinkState) : (s.setLink l x).ftime = s.ftime := rfl
@[simp] theorem State.setLink_dict (s : State) (l : Nat) (x : LinkState) : (s.setLink l x).dict = s.dict := rfl
@[simp] theorem State.setLink_staging (s : State) (l : Nat) (x : LinkState) : (s.setLink l x).staging = s.staging := rfl
@[simp] theorem State.setLink_flashDue (s : State) (l : Nat) (x : LinkState) : (s.setLink l x).flashDue = s.flashDue := rfl
@[simp] theorem State.setLink_flashRestore (s : State) (l : Nat) (x : LinkState) : (s.setLink l x).flashRestore = s.flashRestore := rfl
@[simp] theorem State.setLink_cmap (s : State) (l : Nat) (x : LinkState) : (s.setLink l x).cmap = s.cmap := rfl
@[simp] theorem State.setLink_cores (s : State) (l : Nat) (x : LinkState) : (s.setLink l x).cores = s.cores := rfl
@[simp] theorem State.setLink_spBase (s : State) (l : Nat) (x : LinkState) : (s.setLink l x).spBase = s.spBase := rfl
@[simp] theorem State.setLink_meshOut (s : State) (l : Nat) (x : LinkState) : (s.setLink l x).meshOut = s.meshOut := rfl
@[simp] theorem State.setLink_meshSeen (s : State) (l : Nat) (x : LinkState) : (s.setLink l x).meshSeen = s.meshSeen := rfl
@[simp] theorem State.setLink_seq (s : State) (l : Nat) (x : LinkState) : (s.setLink l x).seq = s.seq := rfl
@[simp] theorem State.setLink_commits (s : State) (l : Nat) (x : LinkState) : (s.setLink l x).commits = s.commits := rfl
@[simp] theorem State.setLink_colls (s : State) (l : Nat) (x : LinkState) : (s.setLink l x).colls = s.colls := rfl
@[simp] theorem State.setLink_streams (s : State) (l : Nat) (x : LinkState) : (s.setLink l x).streams = s.streams := rfl
@[simp] theorem State.setLink_msgs (s : State) (l : Nat) (x : LinkState) : (s.setLink l x).msgs = s.msgs := rfl
@[simp] theorem State.setLink_nextMsg (s : State) (l : Nat) (x : LinkState) : (s.setLink l x).nextMsg = s.nextMsg := rfl
@[simp] theorem State.setLink_msgNo (s : State) (l : Nat) (x : LinkState) : (s.setLink l x).msgNo = s.msgNo := rfl
@[simp] theorem State.setLink_retired (s : State) (l : Nat) (x : LinkState) : (s.setLink l x).retired = s.retired := rfl
@[simp] theorem State.setLink_reorders (s : State) (l : Nat) (x : LinkState) : (s.setLink l x).reorders = s.reorders := rfl
@[simp] theorem State.setLink_dups (s : State) (l : Nat) (x : LinkState) : (s.setLink l x).dups = s.dups := rfl
@[simp] theorem State.setLink_waiting (s : State) (l : Nat) (x : LinkState) : (s.setLink l x).waiting = s.waiting := rfl
@[simp] theorem State.setLink_inbound (s : State) (l : Nat) (x : LinkState) : (s.setLink l x).inbound = s.inbound := rfl
@[simp] theorem State.setLink_hbms (s : State) (l : Nat) (x : LinkState) : (s.setLink l x).hbms = s.hbms := rfl
@[simp] theorem State.setLink_troys (s : State) (l : Nat) (x : LinkState) : (s.setLink l x).troys = s.troys := rfl
@[simp] theorem State.setLink_links (s : State) (l : Nat) (x : LinkState) : (s.setLink l x).links = put l x s.links := rfl
@[simp] theorem State.setLink_ports (s : State) (l : Nat) (x : LinkState) : (s.setLink l x).ports = s.ports := rfl
@[simp] theorem State.setLink_everLocked (s : State) (l : Nat) (x : LinkState) : (s.setLink l x).everLocked = s.everLocked := rfl
@[simp] theorem State.setLink_timeRoot (s : State) (l : Nat) (x : LinkState) : (s.setLink l x).timeRoot = s.timeRoot := rfl
@[simp] theorem State.setLink_slew (s : State) (l : Nat) (x : LinkState) : (s.setLink l x).slew = s.slew := rfl
@[simp] theorem State.setLink_rateLeft (s : State) (l : Nat) (x : LinkState) : (s.setLink l x).rateLeft = s.rateLeft := rfl
@[simp] theorem State.setLink_rateAt (s : State) (l : Nat) (x : LinkState) : (s.setLink l x).rateAt = s.rateAt := rfl
@[simp] theorem State.setLink_host (s : State) (l : Nat) (x : LinkState) : (s.setLink l x).host = s.host := rfl
@[simp] theorem State.setLink_chain (s : State) (l : Nat) (x : LinkState) : (s.setLink l x).chain = s.chain := rfl
@[simp] theorem State.setLink_resets (s : State) (l : Nat) (x : LinkState) : (s.setLink l x).resets = s.resets := rfl
@[simp] theorem State.setLink_missed (s : State) (l : Nat) (x : LinkState) : (s.setLink l x).missed = s.missed := rfl
@[simp] theorem State.setLink_hall (s : State) (l : Nat) (x : LinkState) : (s.setLink l x).hall = s.hall := rfl
@[simp] theorem State.setLink_swaps (s : State) (l : Nat) (x : LinkState) : (s.setLink l x).swaps = s.swaps := rfl
@[simp] theorem State.setLink_fuses (s : State) (l : Nat) (x : LinkState) : (s.setLink l x).fuses = s.fuses := rfl
@[simp] theorem State.setLink_fw (s : State) (l : Nat) (x : LinkState) : (s.setLink l x).fw = s.fw := rfl
@[simp] theorem State.setLink_dbg (s : State) (l : Nat) (x : LinkState) : (s.setLink l x).dbg = s.dbg := rfl
@[simp] theorem State.setLink_supplies (s : State) (l : Nat) (x : LinkState) : (s.setLink l x).supplies = s.supplies := rfl
@[simp] theorem State.setLink_thermal (s : State) (l : Nat) (x : LinkState) : (s.setLink l x).thermal = s.thermal := rfl
@[simp] theorem State.setLink_hbmSteps (s : State) (l : Nat) (x : LinkState) : (s.setLink l x).hbmSteps = s.hbmSteps := rfl
@[simp] theorem State.setLink_pins (s : State) (l : Nat) (x : LinkState) : (s.setLink l x).pins = s.pins := rfl
@[simp] theorem State.setLink_startup (s : State) (l : Nat) (x : LinkState) : (s.setLink l x).startup = s.startup := rfl

/-! ### State.setPort -/

@[simp] theorem State.setPort_pending (s : State) (p : Nat) (x : PortState) : (s.setPort p x).pending = s.pending := rfl
@[simp] theorem State.setPort_freeCtr (s : State) (p : Nat) (x : PortState) : (s.setPort p x).freeCtr = s.freeCtr := rfl
@[simp] theorem State.setPort_out (s : State) (p : Nat) (x : PortState) : (s.setPort p x).out = s.out := rfl
@[simp] theorem State.setPort_ftime (s : State) (p : Nat) (x : PortState) : (s.setPort p x).ftime = s.ftime := rfl
@[simp] theorem State.setPort_dict (s : State) (p : Nat) (x : PortState) : (s.setPort p x).dict = s.dict := rfl
@[simp] theorem State.setPort_staging (s : State) (p : Nat) (x : PortState) : (s.setPort p x).staging = s.staging := rfl
@[simp] theorem State.setPort_flashDue (s : State) (p : Nat) (x : PortState) : (s.setPort p x).flashDue = s.flashDue := rfl
@[simp] theorem State.setPort_flashRestore (s : State) (p : Nat) (x : PortState) : (s.setPort p x).flashRestore = s.flashRestore := rfl
@[simp] theorem State.setPort_cmap (s : State) (p : Nat) (x : PortState) : (s.setPort p x).cmap = s.cmap := rfl
@[simp] theorem State.setPort_cores (s : State) (p : Nat) (x : PortState) : (s.setPort p x).cores = s.cores := rfl
@[simp] theorem State.setPort_spBase (s : State) (p : Nat) (x : PortState) : (s.setPort p x).spBase = s.spBase := rfl
@[simp] theorem State.setPort_meshOut (s : State) (p : Nat) (x : PortState) : (s.setPort p x).meshOut = s.meshOut := rfl
@[simp] theorem State.setPort_meshSeen (s : State) (p : Nat) (x : PortState) : (s.setPort p x).meshSeen = s.meshSeen := rfl
@[simp] theorem State.setPort_seq (s : State) (p : Nat) (x : PortState) : (s.setPort p x).seq = s.seq := rfl
@[simp] theorem State.setPort_commits (s : State) (p : Nat) (x : PortState) : (s.setPort p x).commits = s.commits := rfl
@[simp] theorem State.setPort_colls (s : State) (p : Nat) (x : PortState) : (s.setPort p x).colls = s.colls := rfl
@[simp] theorem State.setPort_streams (s : State) (p : Nat) (x : PortState) : (s.setPort p x).streams = s.streams := rfl
@[simp] theorem State.setPort_msgs (s : State) (p : Nat) (x : PortState) : (s.setPort p x).msgs = s.msgs := rfl
@[simp] theorem State.setPort_nextMsg (s : State) (p : Nat) (x : PortState) : (s.setPort p x).nextMsg = s.nextMsg := rfl
@[simp] theorem State.setPort_msgNo (s : State) (p : Nat) (x : PortState) : (s.setPort p x).msgNo = s.msgNo := rfl
@[simp] theorem State.setPort_retired (s : State) (p : Nat) (x : PortState) : (s.setPort p x).retired = s.retired := rfl
@[simp] theorem State.setPort_reorders (s : State) (p : Nat) (x : PortState) : (s.setPort p x).reorders = s.reorders := rfl
@[simp] theorem State.setPort_dups (s : State) (p : Nat) (x : PortState) : (s.setPort p x).dups = s.dups := rfl
@[simp] theorem State.setPort_waiting (s : State) (p : Nat) (x : PortState) : (s.setPort p x).waiting = s.waiting := rfl
@[simp] theorem State.setPort_inbound (s : State) (p : Nat) (x : PortState) : (s.setPort p x).inbound = s.inbound := rfl
@[simp] theorem State.setPort_hbms (s : State) (p : Nat) (x : PortState) : (s.setPort p x).hbms = s.hbms := rfl
@[simp] theorem State.setPort_troys (s : State) (p : Nat) (x : PortState) : (s.setPort p x).troys = s.troys := rfl
@[simp] theorem State.setPort_links (s : State) (p : Nat) (x : PortState) : (s.setPort p x).links = s.links := rfl
@[simp] theorem State.setPort_ports (s : State) (p : Nat) (x : PortState) : (s.setPort p x).ports = put p x s.ports := rfl
@[simp] theorem State.setPort_everLocked (s : State) (p : Nat) (x : PortState) : (s.setPort p x).everLocked = s.everLocked := rfl
@[simp] theorem State.setPort_timeRoot (s : State) (p : Nat) (x : PortState) : (s.setPort p x).timeRoot = s.timeRoot := rfl
@[simp] theorem State.setPort_slew (s : State) (p : Nat) (x : PortState) : (s.setPort p x).slew = s.slew := rfl
@[simp] theorem State.setPort_rateLeft (s : State) (p : Nat) (x : PortState) : (s.setPort p x).rateLeft = s.rateLeft := rfl
@[simp] theorem State.setPort_rateAt (s : State) (p : Nat) (x : PortState) : (s.setPort p x).rateAt = s.rateAt := rfl
@[simp] theorem State.setPort_host (s : State) (p : Nat) (x : PortState) : (s.setPort p x).host = s.host := rfl
@[simp] theorem State.setPort_chain (s : State) (p : Nat) (x : PortState) : (s.setPort p x).chain = s.chain := rfl
@[simp] theorem State.setPort_resets (s : State) (p : Nat) (x : PortState) : (s.setPort p x).resets = s.resets := rfl
@[simp] theorem State.setPort_missed (s : State) (p : Nat) (x : PortState) : (s.setPort p x).missed = s.missed := rfl
@[simp] theorem State.setPort_hall (s : State) (p : Nat) (x : PortState) : (s.setPort p x).hall = s.hall := rfl
@[simp] theorem State.setPort_swaps (s : State) (p : Nat) (x : PortState) : (s.setPort p x).swaps = s.swaps := rfl
@[simp] theorem State.setPort_fuses (s : State) (p : Nat) (x : PortState) : (s.setPort p x).fuses = s.fuses := rfl
@[simp] theorem State.setPort_fw (s : State) (p : Nat) (x : PortState) : (s.setPort p x).fw = s.fw := rfl
@[simp] theorem State.setPort_dbg (s : State) (p : Nat) (x : PortState) : (s.setPort p x).dbg = s.dbg := rfl
@[simp] theorem State.setPort_supplies (s : State) (p : Nat) (x : PortState) : (s.setPort p x).supplies = s.supplies := rfl
@[simp] theorem State.setPort_thermal (s : State) (p : Nat) (x : PortState) : (s.setPort p x).thermal = s.thermal := rfl
@[simp] theorem State.setPort_hbmSteps (s : State) (p : Nat) (x : PortState) : (s.setPort p x).hbmSteps = s.hbmSteps := rfl
@[simp] theorem State.setPort_pins (s : State) (p : Nat) (x : PortState) : (s.setPort p x).pins = s.pins := rfl
@[simp] theorem State.setPort_startup (s : State) (p : Nat) (x : PortState) : (s.setPort p x).startup = s.startup := rfl

/-! ### State.setColl -/

@[simp] theorem State.setColl_pending (s : State) (ctx : Nat) (c : Coll) : (s.setColl ctx c).pending = s.pending := rfl
@[simp] theorem State.setColl_freeCtr (s : State) (ctx : Nat) (c : Coll) : (s.setColl ctx c).freeCtr = s.freeCtr := rfl
@[simp] theorem State.setColl_out (s : State) (ctx : Nat) (c : Coll) : (s.setColl ctx c).out = s.out := rfl
@[simp] theorem State.setColl_ftime (s : State) (ctx : Nat) (c : Coll) : (s.setColl ctx c).ftime = s.ftime := rfl
@[simp] theorem State.setColl_dict (s : State) (ctx : Nat) (c : Coll) : (s.setColl ctx c).dict = s.dict := rfl
@[simp] theorem State.setColl_staging (s : State) (ctx : Nat) (c : Coll) : (s.setColl ctx c).staging = s.staging := rfl
@[simp] theorem State.setColl_flashDue (s : State) (ctx : Nat) (c : Coll) : (s.setColl ctx c).flashDue = s.flashDue := rfl
@[simp] theorem State.setColl_flashRestore (s : State) (ctx : Nat) (c : Coll) : (s.setColl ctx c).flashRestore = s.flashRestore := rfl
@[simp] theorem State.setColl_cmap (s : State) (ctx : Nat) (c : Coll) : (s.setColl ctx c).cmap = s.cmap := rfl
@[simp] theorem State.setColl_cores (s : State) (ctx : Nat) (c : Coll) : (s.setColl ctx c).cores = s.cores := rfl
@[simp] theorem State.setColl_spBase (s : State) (ctx : Nat) (c : Coll) : (s.setColl ctx c).spBase = s.spBase := rfl
@[simp] theorem State.setColl_meshOut (s : State) (ctx : Nat) (c : Coll) : (s.setColl ctx c).meshOut = s.meshOut := rfl
@[simp] theorem State.setColl_meshSeen (s : State) (ctx : Nat) (c : Coll) : (s.setColl ctx c).meshSeen = s.meshSeen := rfl
@[simp] theorem State.setColl_seq (s : State) (ctx : Nat) (c : Coll) : (s.setColl ctx c).seq = s.seq := rfl
@[simp] theorem State.setColl_commits (s : State) (ctx : Nat) (c : Coll) : (s.setColl ctx c).commits = s.commits := rfl
@[simp] theorem State.setColl_colls (s : State) (ctx : Nat) (c : Coll) : (s.setColl ctx c).colls = put ctx c s.colls := rfl
@[simp] theorem State.setColl_streams (s : State) (ctx : Nat) (c : Coll) : (s.setColl ctx c).streams = s.streams := rfl
@[simp] theorem State.setColl_msgs (s : State) (ctx : Nat) (c : Coll) : (s.setColl ctx c).msgs = s.msgs := rfl
@[simp] theorem State.setColl_nextMsg (s : State) (ctx : Nat) (c : Coll) : (s.setColl ctx c).nextMsg = s.nextMsg := rfl
@[simp] theorem State.setColl_msgNo (s : State) (ctx : Nat) (c : Coll) : (s.setColl ctx c).msgNo = s.msgNo := rfl
@[simp] theorem State.setColl_retired (s : State) (ctx : Nat) (c : Coll) : (s.setColl ctx c).retired = s.retired := rfl
@[simp] theorem State.setColl_reorders (s : State) (ctx : Nat) (c : Coll) : (s.setColl ctx c).reorders = s.reorders := rfl
@[simp] theorem State.setColl_dups (s : State) (ctx : Nat) (c : Coll) : (s.setColl ctx c).dups = s.dups := rfl
@[simp] theorem State.setColl_waiting (s : State) (ctx : Nat) (c : Coll) : (s.setColl ctx c).waiting = s.waiting := rfl
@[simp] theorem State.setColl_inbound (s : State) (ctx : Nat) (c : Coll) : (s.setColl ctx c).inbound = s.inbound := rfl
@[simp] theorem State.setColl_hbms (s : State) (ctx : Nat) (c : Coll) : (s.setColl ctx c).hbms = s.hbms := rfl
@[simp] theorem State.setColl_troys (s : State) (ctx : Nat) (c : Coll) : (s.setColl ctx c).troys = s.troys := rfl
@[simp] theorem State.setColl_links (s : State) (ctx : Nat) (c : Coll) : (s.setColl ctx c).links = s.links := rfl
@[simp] theorem State.setColl_ports (s : State) (ctx : Nat) (c : Coll) : (s.setColl ctx c).ports = s.ports := rfl
@[simp] theorem State.setColl_everLocked (s : State) (ctx : Nat) (c : Coll) : (s.setColl ctx c).everLocked = s.everLocked := rfl
@[simp] theorem State.setColl_timeRoot (s : State) (ctx : Nat) (c : Coll) : (s.setColl ctx c).timeRoot = s.timeRoot := rfl
@[simp] theorem State.setColl_slew (s : State) (ctx : Nat) (c : Coll) : (s.setColl ctx c).slew = s.slew := rfl
@[simp] theorem State.setColl_rateLeft (s : State) (ctx : Nat) (c : Coll) : (s.setColl ctx c).rateLeft = s.rateLeft := rfl
@[simp] theorem State.setColl_rateAt (s : State) (ctx : Nat) (c : Coll) : (s.setColl ctx c).rateAt = s.rateAt := rfl
@[simp] theorem State.setColl_host (s : State) (ctx : Nat) (c : Coll) : (s.setColl ctx c).host = s.host := rfl
@[simp] theorem State.setColl_chain (s : State) (ctx : Nat) (c : Coll) : (s.setColl ctx c).chain = s.chain := rfl
@[simp] theorem State.setColl_resets (s : State) (ctx : Nat) (c : Coll) : (s.setColl ctx c).resets = s.resets := rfl
@[simp] theorem State.setColl_missed (s : State) (ctx : Nat) (c : Coll) : (s.setColl ctx c).missed = s.missed := rfl
@[simp] theorem State.setColl_hall (s : State) (ctx : Nat) (c : Coll) : (s.setColl ctx c).hall = s.hall := rfl
@[simp] theorem State.setColl_swaps (s : State) (ctx : Nat) (c : Coll) : (s.setColl ctx c).swaps = s.swaps := rfl
@[simp] theorem State.setColl_fuses (s : State) (ctx : Nat) (c : Coll) : (s.setColl ctx c).fuses = s.fuses := rfl
@[simp] theorem State.setColl_fw (s : State) (ctx : Nat) (c : Coll) : (s.setColl ctx c).fw = s.fw := rfl
@[simp] theorem State.setColl_dbg (s : State) (ctx : Nat) (c : Coll) : (s.setColl ctx c).dbg = s.dbg := rfl
@[simp] theorem State.setColl_supplies (s : State) (ctx : Nat) (c : Coll) : (s.setColl ctx c).supplies = s.supplies := rfl
@[simp] theorem State.setColl_thermal (s : State) (ctx : Nat) (c : Coll) : (s.setColl ctx c).thermal = s.thermal := rfl
@[simp] theorem State.setColl_hbmSteps (s : State) (ctx : Nat) (c : Coll) : (s.setColl ctx c).hbmSteps = s.hbmSteps := rfl
@[simp] theorem State.setColl_pins (s : State) (ctx : Nat) (c : Coll) : (s.setColl ctx c).pins = s.pins := rfl
@[simp] theorem State.setColl_startup (s : State) (ctx : Nat) (c : Coll) : (s.setColl ctx c).startup = s.startup := rfl

/-! ### State.setSupply -/

@[simp] theorem State.setSupply_pending (s : State) (n : Nat) (x : Supply) : (s.setSupply n x).pending = s.pending := rfl
@[simp] theorem State.setSupply_freeCtr (s : State) (n : Nat) (x : Supply) : (s.setSupply n x).freeCtr = s.freeCtr := rfl
@[simp] theorem State.setSupply_out (s : State) (n : Nat) (x : Supply) : (s.setSupply n x).out = s.out := rfl
@[simp] theorem State.setSupply_ftime (s : State) (n : Nat) (x : Supply) : (s.setSupply n x).ftime = s.ftime := rfl
@[simp] theorem State.setSupply_dict (s : State) (n : Nat) (x : Supply) : (s.setSupply n x).dict = s.dict := rfl
@[simp] theorem State.setSupply_staging (s : State) (n : Nat) (x : Supply) : (s.setSupply n x).staging = s.staging := rfl
@[simp] theorem State.setSupply_flashDue (s : State) (n : Nat) (x : Supply) : (s.setSupply n x).flashDue = s.flashDue := rfl
@[simp] theorem State.setSupply_flashRestore (s : State) (n : Nat) (x : Supply) : (s.setSupply n x).flashRestore = s.flashRestore := rfl
@[simp] theorem State.setSupply_cmap (s : State) (n : Nat) (x : Supply) : (s.setSupply n x).cmap = s.cmap := rfl
@[simp] theorem State.setSupply_cores (s : State) (n : Nat) (x : Supply) : (s.setSupply n x).cores = s.cores := rfl
@[simp] theorem State.setSupply_spBase (s : State) (n : Nat) (x : Supply) : (s.setSupply n x).spBase = s.spBase := rfl
@[simp] theorem State.setSupply_meshOut (s : State) (n : Nat) (x : Supply) : (s.setSupply n x).meshOut = s.meshOut := rfl
@[simp] theorem State.setSupply_meshSeen (s : State) (n : Nat) (x : Supply) : (s.setSupply n x).meshSeen = s.meshSeen := rfl
@[simp] theorem State.setSupply_seq (s : State) (n : Nat) (x : Supply) : (s.setSupply n x).seq = s.seq := rfl
@[simp] theorem State.setSupply_commits (s : State) (n : Nat) (x : Supply) : (s.setSupply n x).commits = s.commits := rfl
@[simp] theorem State.setSupply_colls (s : State) (n : Nat) (x : Supply) : (s.setSupply n x).colls = s.colls := rfl
@[simp] theorem State.setSupply_streams (s : State) (n : Nat) (x : Supply) : (s.setSupply n x).streams = s.streams := rfl
@[simp] theorem State.setSupply_msgs (s : State) (n : Nat) (x : Supply) : (s.setSupply n x).msgs = s.msgs := rfl
@[simp] theorem State.setSupply_nextMsg (s : State) (n : Nat) (x : Supply) : (s.setSupply n x).nextMsg = s.nextMsg := rfl
@[simp] theorem State.setSupply_msgNo (s : State) (n : Nat) (x : Supply) : (s.setSupply n x).msgNo = s.msgNo := rfl
@[simp] theorem State.setSupply_retired (s : State) (n : Nat) (x : Supply) : (s.setSupply n x).retired = s.retired := rfl
@[simp] theorem State.setSupply_reorders (s : State) (n : Nat) (x : Supply) : (s.setSupply n x).reorders = s.reorders := rfl
@[simp] theorem State.setSupply_dups (s : State) (n : Nat) (x : Supply) : (s.setSupply n x).dups = s.dups := rfl
@[simp] theorem State.setSupply_waiting (s : State) (n : Nat) (x : Supply) : (s.setSupply n x).waiting = s.waiting := rfl
@[simp] theorem State.setSupply_inbound (s : State) (n : Nat) (x : Supply) : (s.setSupply n x).inbound = s.inbound := rfl
@[simp] theorem State.setSupply_hbms (s : State) (n : Nat) (x : Supply) : (s.setSupply n x).hbms = s.hbms := rfl
@[simp] theorem State.setSupply_troys (s : State) (n : Nat) (x : Supply) : (s.setSupply n x).troys = s.troys := rfl
@[simp] theorem State.setSupply_links (s : State) (n : Nat) (x : Supply) : (s.setSupply n x).links = s.links := rfl
@[simp] theorem State.setSupply_ports (s : State) (n : Nat) (x : Supply) : (s.setSupply n x).ports = s.ports := rfl
@[simp] theorem State.setSupply_everLocked (s : State) (n : Nat) (x : Supply) : (s.setSupply n x).everLocked = s.everLocked := rfl
@[simp] theorem State.setSupply_timeRoot (s : State) (n : Nat) (x : Supply) : (s.setSupply n x).timeRoot = s.timeRoot := rfl
@[simp] theorem State.setSupply_slew (s : State) (n : Nat) (x : Supply) : (s.setSupply n x).slew = s.slew := rfl
@[simp] theorem State.setSupply_rateLeft (s : State) (n : Nat) (x : Supply) : (s.setSupply n x).rateLeft = s.rateLeft := rfl
@[simp] theorem State.setSupply_rateAt (s : State) (n : Nat) (x : Supply) : (s.setSupply n x).rateAt = s.rateAt := rfl
@[simp] theorem State.setSupply_host (s : State) (n : Nat) (x : Supply) : (s.setSupply n x).host = s.host := rfl
@[simp] theorem State.setSupply_chain (s : State) (n : Nat) (x : Supply) : (s.setSupply n x).chain = s.chain := rfl
@[simp] theorem State.setSupply_resets (s : State) (n : Nat) (x : Supply) : (s.setSupply n x).resets = s.resets := rfl
@[simp] theorem State.setSupply_missed (s : State) (n : Nat) (x : Supply) : (s.setSupply n x).missed = s.missed := rfl
@[simp] theorem State.setSupply_hall (s : State) (n : Nat) (x : Supply) : (s.setSupply n x).hall = s.hall := rfl
@[simp] theorem State.setSupply_swaps (s : State) (n : Nat) (x : Supply) : (s.setSupply n x).swaps = s.swaps := rfl
@[simp] theorem State.setSupply_fuses (s : State) (n : Nat) (x : Supply) : (s.setSupply n x).fuses = s.fuses := rfl
@[simp] theorem State.setSupply_fw (s : State) (n : Nat) (x : Supply) : (s.setSupply n x).fw = s.fw := rfl
@[simp] theorem State.setSupply_dbg (s : State) (n : Nat) (x : Supply) : (s.setSupply n x).dbg = s.dbg := rfl
@[simp] theorem State.setSupply_supplies (s : State) (n : Nat) (x : Supply) : (s.setSupply n x).supplies = put n x s.supplies := rfl
@[simp] theorem State.setSupply_thermal (s : State) (n : Nat) (x : Supply) : (s.setSupply n x).thermal = s.thermal := rfl
@[simp] theorem State.setSupply_hbmSteps (s : State) (n : Nat) (x : Supply) : (s.setSupply n x).hbmSteps = s.hbmSteps := rfl
@[simp] theorem State.setSupply_pins (s : State) (n : Nat) (x : Supply) : (s.setSupply n x).pins = s.pins := rfl
@[simp] theorem State.setSupply_startup (s : State) (n : Nat) (x : Supply) : (s.setSupply n x).startup = s.startup := rfl

/-! ### State.updTroy -/

@[simp] theorem State.updTroy_pending (s : State) (n : Nat) (f : Troy → Troy) : (s.updTroy n f).pending = s.pending := rfl
@[simp] theorem State.updTroy_freeCtr (s : State) (n : Nat) (f : Troy → Troy) : (s.updTroy n f).freeCtr = s.freeCtr := rfl
@[simp] theorem State.updTroy_out (s : State) (n : Nat) (f : Troy → Troy) : (s.updTroy n f).out = s.out := rfl
@[simp] theorem State.updTroy_ftime (s : State) (n : Nat) (f : Troy → Troy) : (s.updTroy n f).ftime = s.ftime := rfl
@[simp] theorem State.updTroy_dict (s : State) (n : Nat) (f : Troy → Troy) : (s.updTroy n f).dict = s.dict := rfl
@[simp] theorem State.updTroy_staging (s : State) (n : Nat) (f : Troy → Troy) : (s.updTroy n f).staging = s.staging := rfl
@[simp] theorem State.updTroy_flashDue (s : State) (n : Nat) (f : Troy → Troy) : (s.updTroy n f).flashDue = s.flashDue := rfl
@[simp] theorem State.updTroy_flashRestore (s : State) (n : Nat) (f : Troy → Troy) : (s.updTroy n f).flashRestore = s.flashRestore := rfl
@[simp] theorem State.updTroy_cmap (s : State) (n : Nat) (f : Troy → Troy) : (s.updTroy n f).cmap = s.cmap := rfl
@[simp] theorem State.updTroy_cores (s : State) (n : Nat) (f : Troy → Troy) : (s.updTroy n f).cores = s.cores := rfl
@[simp] theorem State.updTroy_spBase (s : State) (n : Nat) (f : Troy → Troy) : (s.updTroy n f).spBase = s.spBase := rfl
@[simp] theorem State.updTroy_meshOut (s : State) (n : Nat) (f : Troy → Troy) : (s.updTroy n f).meshOut = s.meshOut := rfl
@[simp] theorem State.updTroy_meshSeen (s : State) (n : Nat) (f : Troy → Troy) : (s.updTroy n f).meshSeen = s.meshSeen := rfl
@[simp] theorem State.updTroy_seq (s : State) (n : Nat) (f : Troy → Troy) : (s.updTroy n f).seq = s.seq := rfl
@[simp] theorem State.updTroy_commits (s : State) (n : Nat) (f : Troy → Troy) : (s.updTroy n f).commits = s.commits := rfl
@[simp] theorem State.updTroy_colls (s : State) (n : Nat) (f : Troy → Troy) : (s.updTroy n f).colls = s.colls := rfl
@[simp] theorem State.updTroy_streams (s : State) (n : Nat) (f : Troy → Troy) : (s.updTroy n f).streams = s.streams := rfl
@[simp] theorem State.updTroy_msgs (s : State) (n : Nat) (f : Troy → Troy) : (s.updTroy n f).msgs = s.msgs := rfl
@[simp] theorem State.updTroy_nextMsg (s : State) (n : Nat) (f : Troy → Troy) : (s.updTroy n f).nextMsg = s.nextMsg := rfl
@[simp] theorem State.updTroy_msgNo (s : State) (n : Nat) (f : Troy → Troy) : (s.updTroy n f).msgNo = s.msgNo := rfl
@[simp] theorem State.updTroy_retired (s : State) (n : Nat) (f : Troy → Troy) : (s.updTroy n f).retired = s.retired := rfl
@[simp] theorem State.updTroy_reorders (s : State) (n : Nat) (f : Troy → Troy) : (s.updTroy n f).reorders = s.reorders := rfl
@[simp] theorem State.updTroy_dups (s : State) (n : Nat) (f : Troy → Troy) : (s.updTroy n f).dups = s.dups := rfl
@[simp] theorem State.updTroy_waiting (s : State) (n : Nat) (f : Troy → Troy) : (s.updTroy n f).waiting = s.waiting := rfl
@[simp] theorem State.updTroy_inbound (s : State) (n : Nat) (f : Troy → Troy) : (s.updTroy n f).inbound = s.inbound := rfl
@[simp] theorem State.updTroy_hbms (s : State) (n : Nat) (f : Troy → Troy) : (s.updTroy n f).hbms = s.hbms := rfl
@[simp] theorem State.updTroy_troys (s : State) (n : Nat) (f : Troy → Troy) : (s.updTroy n f).troys = put n (f (s.troy n)) s.troys := rfl
@[simp] theorem State.updTroy_links (s : State) (n : Nat) (f : Troy → Troy) : (s.updTroy n f).links = s.links := rfl
@[simp] theorem State.updTroy_ports (s : State) (n : Nat) (f : Troy → Troy) : (s.updTroy n f).ports = s.ports := rfl
@[simp] theorem State.updTroy_everLocked (s : State) (n : Nat) (f : Troy → Troy) : (s.updTroy n f).everLocked = s.everLocked := rfl
@[simp] theorem State.updTroy_timeRoot (s : State) (n : Nat) (f : Troy → Troy) : (s.updTroy n f).timeRoot = s.timeRoot := rfl
@[simp] theorem State.updTroy_slew (s : State) (n : Nat) (f : Troy → Troy) : (s.updTroy n f).slew = s.slew := rfl
@[simp] theorem State.updTroy_rateLeft (s : State) (n : Nat) (f : Troy → Troy) : (s.updTroy n f).rateLeft = s.rateLeft := rfl
@[simp] theorem State.updTroy_rateAt (s : State) (n : Nat) (f : Troy → Troy) : (s.updTroy n f).rateAt = s.rateAt := rfl
@[simp] theorem State.updTroy_host (s : State) (n : Nat) (f : Troy → Troy) : (s.updTroy n f).host = s.host := rfl
@[simp] theorem State.updTroy_chain (s : State) (n : Nat) (f : Troy → Troy) : (s.updTroy n f).chain = s.chain := rfl
@[simp] theorem State.updTroy_resets (s : State) (n : Nat) (f : Troy → Troy) : (s.updTroy n f).resets = s.resets := rfl
@[simp] theorem State.updTroy_missed (s : State) (n : Nat) (f : Troy → Troy) : (s.updTroy n f).missed = s.missed := rfl
@[simp] theorem State.updTroy_hall (s : State) (n : Nat) (f : Troy → Troy) : (s.updTroy n f).hall = s.hall := rfl
@[simp] theorem State.updTroy_swaps (s : State) (n : Nat) (f : Troy → Troy) : (s.updTroy n f).swaps = s.swaps := rfl
@[simp] theorem State.updTroy_fuses (s : State) (n : Nat) (f : Troy → Troy) : (s.updTroy n f).fuses = s.fuses := rfl
@[simp] theorem State.updTroy_fw (s : State) (n : Nat) (f : Troy → Troy) : (s.updTroy n f).fw = s.fw := rfl
@[simp] theorem State.updTroy_dbg (s : State) (n : Nat) (f : Troy → Troy) : (s.updTroy n f).dbg = s.dbg := rfl
@[simp] theorem State.updTroy_supplies (s : State) (n : Nat) (f : Troy → Troy) : (s.updTroy n f).supplies = s.supplies := rfl
@[simp] theorem State.updTroy_thermal (s : State) (n : Nat) (f : Troy → Troy) : (s.updTroy n f).thermal = s.thermal := rfl
@[simp] theorem State.updTroy_hbmSteps (s : State) (n : Nat) (f : Troy → Troy) : (s.updTroy n f).hbmSteps = s.hbmSteps := rfl
@[simp] theorem State.updTroy_pins (s : State) (n : Nat) (f : Troy → Troy) : (s.updTroy n f).pins = s.pins := rfl
@[simp] theorem State.updTroy_startup (s : State) (n : Nat) (f : Troy → Troy) : (s.updTroy n f).startup = s.startup := rfl

/-! ### State.updHost -/

@[simp] theorem State.updHost_pending (s : State) (f : HostUnit → HostUnit) : (s.updHost f).pending = s.pending := rfl
@[simp] theorem State.updHost_freeCtr (s : State) (f : HostUnit → HostUnit) : (s.updHost f).freeCtr = s.freeCtr := rfl
@[simp] theorem State.updHost_out (s : State) (f : HostUnit → HostUnit) : (s.updHost f).out = s.out := rfl
@[simp] theorem State.updHost_ftime (s : State) (f : HostUnit → HostUnit) : (s.updHost f).ftime = s.ftime := rfl
@[simp] theorem State.updHost_dict (s : State) (f : HostUnit → HostUnit) : (s.updHost f).dict = s.dict := rfl
@[simp] theorem State.updHost_staging (s : State) (f : HostUnit → HostUnit) : (s.updHost f).staging = s.staging := rfl
@[simp] theorem State.updHost_flashDue (s : State) (f : HostUnit → HostUnit) : (s.updHost f).flashDue = s.flashDue := rfl
@[simp] theorem State.updHost_flashRestore (s : State) (f : HostUnit → HostUnit) : (s.updHost f).flashRestore = s.flashRestore := rfl
@[simp] theorem State.updHost_cmap (s : State) (f : HostUnit → HostUnit) : (s.updHost f).cmap = s.cmap := rfl
@[simp] theorem State.updHost_cores (s : State) (f : HostUnit → HostUnit) : (s.updHost f).cores = s.cores := rfl
@[simp] theorem State.updHost_spBase (s : State) (f : HostUnit → HostUnit) : (s.updHost f).spBase = s.spBase := rfl
@[simp] theorem State.updHost_meshOut (s : State) (f : HostUnit → HostUnit) : (s.updHost f).meshOut = s.meshOut := rfl
@[simp] theorem State.updHost_meshSeen (s : State) (f : HostUnit → HostUnit) : (s.updHost f).meshSeen = s.meshSeen := rfl
@[simp] theorem State.updHost_seq (s : State) (f : HostUnit → HostUnit) : (s.updHost f).seq = s.seq := rfl
@[simp] theorem State.updHost_commits (s : State) (f : HostUnit → HostUnit) : (s.updHost f).commits = s.commits := rfl
@[simp] theorem State.updHost_colls (s : State) (f : HostUnit → HostUnit) : (s.updHost f).colls = s.colls := rfl
@[simp] theorem State.updHost_streams (s : State) (f : HostUnit → HostUnit) : (s.updHost f).streams = s.streams := rfl
@[simp] theorem State.updHost_msgs (s : State) (f : HostUnit → HostUnit) : (s.updHost f).msgs = s.msgs := rfl
@[simp] theorem State.updHost_nextMsg (s : State) (f : HostUnit → HostUnit) : (s.updHost f).nextMsg = s.nextMsg := rfl
@[simp] theorem State.updHost_msgNo (s : State) (f : HostUnit → HostUnit) : (s.updHost f).msgNo = s.msgNo := rfl
@[simp] theorem State.updHost_retired (s : State) (f : HostUnit → HostUnit) : (s.updHost f).retired = s.retired := rfl
@[simp] theorem State.updHost_reorders (s : State) (f : HostUnit → HostUnit) : (s.updHost f).reorders = s.reorders := rfl
@[simp] theorem State.updHost_dups (s : State) (f : HostUnit → HostUnit) : (s.updHost f).dups = s.dups := rfl
@[simp] theorem State.updHost_waiting (s : State) (f : HostUnit → HostUnit) : (s.updHost f).waiting = s.waiting := rfl
@[simp] theorem State.updHost_inbound (s : State) (f : HostUnit → HostUnit) : (s.updHost f).inbound = s.inbound := rfl
@[simp] theorem State.updHost_hbms (s : State) (f : HostUnit → HostUnit) : (s.updHost f).hbms = s.hbms := rfl
@[simp] theorem State.updHost_troys (s : State) (f : HostUnit → HostUnit) : (s.updHost f).troys = s.troys := rfl
@[simp] theorem State.updHost_links (s : State) (f : HostUnit → HostUnit) : (s.updHost f).links = s.links := rfl
@[simp] theorem State.updHost_ports (s : State) (f : HostUnit → HostUnit) : (s.updHost f).ports = s.ports := rfl
@[simp] theorem State.updHost_everLocked (s : State) (f : HostUnit → HostUnit) : (s.updHost f).everLocked = s.everLocked := rfl
@[simp] theorem State.updHost_timeRoot (s : State) (f : HostUnit → HostUnit) : (s.updHost f).timeRoot = s.timeRoot := rfl
@[simp] theorem State.updHost_slew (s : State) (f : HostUnit → HostUnit) : (s.updHost f).slew = s.slew := rfl
@[simp] theorem State.updHost_rateLeft (s : State) (f : HostUnit → HostUnit) : (s.updHost f).rateLeft = s.rateLeft := rfl
@[simp] theorem State.updHost_rateAt (s : State) (f : HostUnit → HostUnit) : (s.updHost f).rateAt = s.rateAt := rfl
@[simp] theorem State.updHost_host (s : State) (f : HostUnit → HostUnit) : (s.updHost f).host = f s.host := rfl
@[simp] theorem State.updHost_chain (s : State) (f : HostUnit → HostUnit) : (s.updHost f).chain = s.chain := rfl
@[simp] theorem State.updHost_resets (s : State) (f : HostUnit → HostUnit) : (s.updHost f).resets = s.resets := rfl
@[simp] theorem State.updHost_missed (s : State) (f : HostUnit → HostUnit) : (s.updHost f).missed = s.missed := rfl
@[simp] theorem State.updHost_hall (s : State) (f : HostUnit → HostUnit) : (s.updHost f).hall = s.hall := rfl
@[simp] theorem State.updHost_swaps (s : State) (f : HostUnit → HostUnit) : (s.updHost f).swaps = s.swaps := rfl
@[simp] theorem State.updHost_fuses (s : State) (f : HostUnit → HostUnit) : (s.updHost f).fuses = s.fuses := rfl
@[simp] theorem State.updHost_fw (s : State) (f : HostUnit → HostUnit) : (s.updHost f).fw = s.fw := rfl
@[simp] theorem State.updHost_dbg (s : State) (f : HostUnit → HostUnit) : (s.updHost f).dbg = s.dbg := rfl
@[simp] theorem State.updHost_supplies (s : State) (f : HostUnit → HostUnit) : (s.updHost f).supplies = s.supplies := rfl
@[simp] theorem State.updHost_thermal (s : State) (f : HostUnit → HostUnit) : (s.updHost f).thermal = s.thermal := rfl
@[simp] theorem State.updHost_hbmSteps (s : State) (f : HostUnit → HostUnit) : (s.updHost f).hbmSteps = s.hbmSteps := rfl
@[simp] theorem State.updHost_pins (s : State) (f : HostUnit → HostUnit) : (s.updHost f).pins = s.pins := rfl
@[simp] theorem State.updHost_startup (s : State) (f : HostUnit → HostUnit) : (s.updHost f).startup = s.startup := rfl

/-! ### State.updChain -/

@[simp] theorem State.updChain_pending (s : State) (f : Chain → Chain) : (s.updChain f).pending = s.pending := rfl
@[simp] theorem State.updChain_freeCtr (s : State) (f : Chain → Chain) : (s.updChain f).freeCtr = s.freeCtr := rfl
@[simp] theorem State.updChain_out (s : State) (f : Chain → Chain) : (s.updChain f).out = s.out := rfl
@[simp] theorem State.updChain_ftime (s : State) (f : Chain → Chain) : (s.updChain f).ftime = s.ftime := rfl
@[simp] theorem State.updChain_dict (s : State) (f : Chain → Chain) : (s.updChain f).dict = s.dict := rfl
@[simp] theorem State.updChain_staging (s : State) (f : Chain → Chain) : (s.updChain f).staging = s.staging := rfl
@[simp] theorem State.updChain_flashDue (s : State) (f : Chain → Chain) : (s.updChain f).flashDue = s.flashDue := rfl
@[simp] theorem State.updChain_flashRestore (s : State) (f : Chain → Chain) : (s.updChain f).flashRestore = s.flashRestore := rfl
@[simp] theorem State.updChain_cmap (s : State) (f : Chain → Chain) : (s.updChain f).cmap = s.cmap := rfl
@[simp] theorem State.updChain_cores (s : State) (f : Chain → Chain) : (s.updChain f).cores = s.cores := rfl
@[simp] theorem State.updChain_spBase (s : State) (f : Chain → Chain) : (s.updChain f).spBase = s.spBase := rfl
@[simp] theorem State.updChain_meshOut (s : State) (f : Chain → Chain) : (s.updChain f).meshOut = s.meshOut := rfl
@[simp] theorem State.updChain_meshSeen (s : State) (f : Chain → Chain) : (s.updChain f).meshSeen = s.meshSeen := rfl
@[simp] theorem State.updChain_seq (s : State) (f : Chain → Chain) : (s.updChain f).seq = s.seq := rfl
@[simp] theorem State.updChain_commits (s : State) (f : Chain → Chain) : (s.updChain f).commits = s.commits := rfl
@[simp] theorem State.updChain_colls (s : State) (f : Chain → Chain) : (s.updChain f).colls = s.colls := rfl
@[simp] theorem State.updChain_streams (s : State) (f : Chain → Chain) : (s.updChain f).streams = s.streams := rfl
@[simp] theorem State.updChain_msgs (s : State) (f : Chain → Chain) : (s.updChain f).msgs = s.msgs := rfl
@[simp] theorem State.updChain_nextMsg (s : State) (f : Chain → Chain) : (s.updChain f).nextMsg = s.nextMsg := rfl
@[simp] theorem State.updChain_msgNo (s : State) (f : Chain → Chain) : (s.updChain f).msgNo = s.msgNo := rfl
@[simp] theorem State.updChain_retired (s : State) (f : Chain → Chain) : (s.updChain f).retired = s.retired := rfl
@[simp] theorem State.updChain_reorders (s : State) (f : Chain → Chain) : (s.updChain f).reorders = s.reorders := rfl
@[simp] theorem State.updChain_dups (s : State) (f : Chain → Chain) : (s.updChain f).dups = s.dups := rfl
@[simp] theorem State.updChain_waiting (s : State) (f : Chain → Chain) : (s.updChain f).waiting = s.waiting := rfl
@[simp] theorem State.updChain_inbound (s : State) (f : Chain → Chain) : (s.updChain f).inbound = s.inbound := rfl
@[simp] theorem State.updChain_hbms (s : State) (f : Chain → Chain) : (s.updChain f).hbms = s.hbms := rfl
@[simp] theorem State.updChain_troys (s : State) (f : Chain → Chain) : (s.updChain f).troys = s.troys := rfl
@[simp] theorem State.updChain_links (s : State) (f : Chain → Chain) : (s.updChain f).links = s.links := rfl
@[simp] theorem State.updChain_ports (s : State) (f : Chain → Chain) : (s.updChain f).ports = s.ports := rfl
@[simp] theorem State.updChain_everLocked (s : State) (f : Chain → Chain) : (s.updChain f).everLocked = s.everLocked := rfl
@[simp] theorem State.updChain_timeRoot (s : State) (f : Chain → Chain) : (s.updChain f).timeRoot = s.timeRoot := rfl
@[simp] theorem State.updChain_slew (s : State) (f : Chain → Chain) : (s.updChain f).slew = s.slew := rfl
@[simp] theorem State.updChain_rateLeft (s : State) (f : Chain → Chain) : (s.updChain f).rateLeft = s.rateLeft := rfl
@[simp] theorem State.updChain_rateAt (s : State) (f : Chain → Chain) : (s.updChain f).rateAt = s.rateAt := rfl
@[simp] theorem State.updChain_host (s : State) (f : Chain → Chain) : (s.updChain f).host = s.host := rfl
@[simp] theorem State.updChain_chain (s : State) (f : Chain → Chain) : (s.updChain f).chain = f s.chain := rfl
@[simp] theorem State.updChain_resets (s : State) (f : Chain → Chain) : (s.updChain f).resets = s.resets := rfl
@[simp] theorem State.updChain_missed (s : State) (f : Chain → Chain) : (s.updChain f).missed = s.missed := rfl
@[simp] theorem State.updChain_hall (s : State) (f : Chain → Chain) : (s.updChain f).hall = s.hall := rfl
@[simp] theorem State.updChain_swaps (s : State) (f : Chain → Chain) : (s.updChain f).swaps = s.swaps := rfl
@[simp] theorem State.updChain_fuses (s : State) (f : Chain → Chain) : (s.updChain f).fuses = s.fuses := rfl
@[simp] theorem State.updChain_fw (s : State) (f : Chain → Chain) : (s.updChain f).fw = s.fw := rfl
@[simp] theorem State.updChain_dbg (s : State) (f : Chain → Chain) : (s.updChain f).dbg = s.dbg := rfl
@[simp] theorem State.updChain_supplies (s : State) (f : Chain → Chain) : (s.updChain f).supplies = s.supplies := rfl
@[simp] theorem State.updChain_thermal (s : State) (f : Chain → Chain) : (s.updChain f).thermal = s.thermal := rfl
@[simp] theorem State.updChain_hbmSteps (s : State) (f : Chain → Chain) : (s.updChain f).hbmSteps = s.hbmSteps := rfl
@[simp] theorem State.updChain_pins (s : State) (f : Chain → Chain) : (s.updChain f).pins = s.pins := rfl
@[simp] theorem State.updChain_startup (s : State) (f : Chain → Chain) : (s.updChain f).startup = s.startup := rfl

/-! ### State.count -/

@[simp] theorem State.count_pending (s : State) (e : Ent) (n : Nat) : (s.count e n).pending = s.pending := by unfold State.count; split <;> rfl
@[simp] theorem State.count_freeCtr (s : State) (e : Ent) (n : Nat) : (s.count e n).freeCtr = s.freeCtr := by unfold State.count; split <;> rfl
@[simp] theorem State.count_out (s : State) (e : Ent) (n : Nat) : (s.count e n).out = s.out := by unfold State.count; split <;> rfl
@[simp] theorem State.count_ftime (s : State) (e : Ent) (n : Nat) : (s.count e n).ftime = s.ftime := by unfold State.count; split <;> rfl
@[simp] theorem State.count_staging (s : State) (e : Ent) (n : Nat) : (s.count e n).staging = s.staging := by unfold State.count; split <;> rfl
@[simp] theorem State.count_flashDue (s : State) (e : Ent) (n : Nat) : (s.count e n).flashDue = s.flashDue := by unfold State.count; split <;> rfl
@[simp] theorem State.count_flashRestore (s : State) (e : Ent) (n : Nat) : (s.count e n).flashRestore = s.flashRestore := by unfold State.count; split <;> rfl
@[simp] theorem State.count_cmap (s : State) (e : Ent) (n : Nat) : (s.count e n).cmap = s.cmap := by unfold State.count; split <;> rfl
@[simp] theorem State.count_cores (s : State) (e : Ent) (n : Nat) : (s.count e n).cores = s.cores := by unfold State.count; split <;> rfl
@[simp] theorem State.count_spBase (s : State) (e : Ent) (n : Nat) : (s.count e n).spBase = s.spBase := by unfold State.count; split <;> rfl
@[simp] theorem State.count_meshOut (s : State) (e : Ent) (n : Nat) : (s.count e n).meshOut = s.meshOut := by unfold State.count; split <;> rfl
@[simp] theorem State.count_meshSeen (s : State) (e : Ent) (n : Nat) : (s.count e n).meshSeen = s.meshSeen := by unfold State.count; split <;> rfl
@[simp] theorem State.count_seq (s : State) (e : Ent) (n : Nat) : (s.count e n).seq = s.seq := by unfold State.count; split <;> rfl
@[simp] theorem State.count_commits (s : State) (e : Ent) (n : Nat) : (s.count e n).commits = s.commits := by unfold State.count; split <;> rfl
@[simp] theorem State.count_colls (s : State) (e : Ent) (n : Nat) : (s.count e n).colls = s.colls := by unfold State.count; split <;> rfl
@[simp] theorem State.count_streams (s : State) (e : Ent) (n : Nat) : (s.count e n).streams = s.streams := by unfold State.count; split <;> rfl
@[simp] theorem State.count_msgs (s : State) (e : Ent) (n : Nat) : (s.count e n).msgs = s.msgs := by unfold State.count; split <;> rfl
@[simp] theorem State.count_nextMsg (s : State) (e : Ent) (n : Nat) : (s.count e n).nextMsg = s.nextMsg := by unfold State.count; split <;> rfl
@[simp] theorem State.count_msgNo (s : State) (e : Ent) (n : Nat) : (s.count e n).msgNo = s.msgNo := by unfold State.count; split <;> rfl
@[simp] theorem State.count_retired (s : State) (e : Ent) (n : Nat) : (s.count e n).retired = s.retired := by unfold State.count; split <;> rfl
@[simp] theorem State.count_reorders (s : State) (e : Ent) (n : Nat) : (s.count e n).reorders = s.reorders := by unfold State.count; split <;> rfl
@[simp] theorem State.count_dups (s : State) (e : Ent) (n : Nat) : (s.count e n).dups = s.dups := by unfold State.count; split <;> rfl
@[simp] theorem State.count_waiting (s : State) (e : Ent) (n : Nat) : (s.count e n).waiting = s.waiting := by unfold State.count; split <;> rfl
@[simp] theorem State.count_inbound (s : State) (e : Ent) (n : Nat) : (s.count e n).inbound = s.inbound := by unfold State.count; split <;> rfl
@[simp] theorem State.count_hbms (s : State) (e : Ent) (n : Nat) : (s.count e n).hbms = s.hbms := by unfold State.count; split <;> rfl
@[simp] theorem State.count_troys (s : State) (e : Ent) (n : Nat) : (s.count e n).troys = s.troys := by unfold State.count; split <;> rfl
@[simp] theorem State.count_links (s : State) (e : Ent) (n : Nat) : (s.count e n).links = s.links := by unfold State.count; split <;> rfl
@[simp] theorem State.count_ports (s : State) (e : Ent) (n : Nat) : (s.count e n).ports = s.ports := by unfold State.count; split <;> rfl
@[simp] theorem State.count_everLocked (s : State) (e : Ent) (n : Nat) : (s.count e n).everLocked = s.everLocked := by unfold State.count; split <;> rfl
@[simp] theorem State.count_timeRoot (s : State) (e : Ent) (n : Nat) : (s.count e n).timeRoot = s.timeRoot := by unfold State.count; split <;> rfl
@[simp] theorem State.count_slew (s : State) (e : Ent) (n : Nat) : (s.count e n).slew = s.slew := by unfold State.count; split <;> rfl
@[simp] theorem State.count_rateLeft (s : State) (e : Ent) (n : Nat) : (s.count e n).rateLeft = s.rateLeft := by unfold State.count; split <;> rfl
@[simp] theorem State.count_rateAt (s : State) (e : Ent) (n : Nat) : (s.count e n).rateAt = s.rateAt := by unfold State.count; split <;> rfl
@[simp] theorem State.count_host (s : State) (e : Ent) (n : Nat) : (s.count e n).host = s.host := by unfold State.count; split <;> rfl
@[simp] theorem State.count_chain (s : State) (e : Ent) (n : Nat) : (s.count e n).chain = s.chain := by unfold State.count; split <;> rfl
@[simp] theorem State.count_resets (s : State) (e : Ent) (n : Nat) : (s.count e n).resets = s.resets := by unfold State.count; split <;> rfl
@[simp] theorem State.count_missed (s : State) (e : Ent) (n : Nat) : (s.count e n).missed = s.missed := by unfold State.count; split <;> rfl
@[simp] theorem State.count_hall (s : State) (e : Ent) (n : Nat) : (s.count e n).hall = s.hall := by unfold State.count; split <;> rfl
@[simp] theorem State.count_swaps (s : State) (e : Ent) (n : Nat) : (s.count e n).swaps = s.swaps := by unfold State.count; split <;> rfl
@[simp] theorem State.count_fuses (s : State) (e : Ent) (n : Nat) : (s.count e n).fuses = s.fuses := by unfold State.count; split <;> rfl
@[simp] theorem State.count_fw (s : State) (e : Ent) (n : Nat) : (s.count e n).fw = s.fw := by unfold State.count; split <;> rfl
@[simp] theorem State.count_dbg (s : State) (e : Ent) (n : Nat) : (s.count e n).dbg = s.dbg := by unfold State.count; split <;> rfl
@[simp] theorem State.count_supplies (s : State) (e : Ent) (n : Nat) : (s.count e n).supplies = s.supplies := by unfold State.count; split <;> rfl
@[simp] theorem State.count_thermal (s : State) (e : Ent) (n : Nat) : (s.count e n).thermal = s.thermal := by unfold State.count; split <;> rfl
@[simp] theorem State.count_hbmSteps (s : State) (e : Ent) (n : Nat) : (s.count e n).hbmSteps = s.hbmSteps := by unfold State.count; split <;> rfl
@[simp] theorem State.count_pins (s : State) (e : Ent) (n : Nat) : (s.count e n).pins = s.pins := by unfold State.count; split <;> rfl
@[simp] theorem State.count_startup (s : State) (e : Ent) (n : Nat) : (s.count e n).startup = s.startup := by unfold State.count; split <;> rfl

/-! ### Reading back -/

@[simp] theorem State.get_set_self (s : State) (e : Ent) (v : Nat) : (s.set e v).get e = v := by
  simp [State.get, look_put_self]

theorem State.get_set_other (s : State) {e f : Ent} (v : Nat) (h : f.key ≠ e.key) : (s.set e v).get f = s.get f := by
  simp [State.get, look_put_other v s.dict h]

theorem State.get_count_self (s : State) (e : Ent) (n : Nat) (b : s.get e < 2 ^ 64) : (s.count e n).get e = satAdd64 (s.get e) n := by
  unfold State.count
  split
  · next h => subst h; simp only [satAdd64]; omega
  · simp

theorem State.get_count_other (s : State) {e f : Ent} (n : Nat) (h : f.key ≠ e.key) : (s.count e n).get f = s.get f := by
  unfold State.count
  split
  · rfl
  · exact s.get_set_other _ h

theorem State.core_of_cores {s t : State} (p : Nat) (c : t.cores = s.cores) (b : t.spBase = s.spBase) : t.core p = s.core p := by
  unfold State.core State.blankCore
  rw [c, b]

theorem State.get_of_dict {s t : State} (e : Ent) (d : t.dict = s.dict) : t.get e = s.get e := by
  unfold State.get
  rw [d]

@[simp] theorem State.core_setCore_self (s : State) (p : Nat) (c : Core) : (s.setCore p c).core p = c := by
  simp [State.core, look_put_self]

theorem State.core_setCore_other (s : State) {p q : Nat} (c : Core) (h : q ≠ p) : (s.setCore p c).core q = s.core q := by
  unfold State.core
  rw [State.setCore_cores, look_put_other c s.cores h]
  rfl

@[simp] theorem State.core_updCore_self (s : State) (p : Nat) (f : Core → Core) : (s.updCore p f).core p = f (s.core p) :=
  s.core_setCore_self p _

theorem State.core_updCore_other (s : State) {p q : Nat} (f : Core → Core) (h : q ≠ p) : (s.updCore p f).core q = s.core q :=
  s.core_setCore_other _ h

@[simp] theorem State.core_putCtx_self (s : State) (p : Nat) (x : Ctx) : (s.putCtx p x).core p = (s.core p).setCtx x :=
  s.core_updCore_self p _

theorem State.core_putCtx_other (s : State) {p q : Nat} (x : Ctx) (h : q ≠ p) : (s.putCtx p x).core q = s.core q :=
  s.core_updCore_other _ h

@[simp] theorem State.core_spWrite_self (s : State) (p a : Nat) (bs : List Byte) :
    (s.spWrite p a bs).core p = { s.core p with sp := (s.core p).sp.writeN a bs, crc := s.lockCrc (s.core p).crc bs } :=
  s.core_updCore_self p _

theorem State.core_spWrite_other (s : State) {p q : Nat} (a : Nat) (bs : List Byte) (h : q ≠ p) :
    (s.spWrite p a bs).core q = s.core q := s.core_updCore_other _ h

@[simp] theorem State.core_set (s : State) (e : Ent) (v p : Nat) : (s.set e v).core p = s.core p := rfl

@[simp] theorem State.core_tick (s : State) (p : Nat) : s.tick.core p = s.core p := rfl

@[simp] theorem State.core_emit (s : State) (o : Output) (p : Nat) : (s.emit o).core p = s.core p := rfl

@[simp] theorem State.core_countClocks (s : State) (e : Ent) (p : Nat) : (s.countClocks e).core p = s.core p := rfl

@[simp] theorem State.core_count (s : State) (e : Ent) (n p : Nat) : (s.count e n).core p = s.core p := by
  unfold State.count; split <;> rfl

@[simp] theorem State.get_updCore (s : State) (p : Nat) (f : Core → Core) (e : Ent) : (s.updCore p f).get e = s.get e := rfl

@[simp] theorem State.get_putCtx (s : State) (p : Nat) (x : Ctx) (e : Ent) : (s.putCtx p x).get e = s.get e := rfl

@[simp] theorem State.get_emit (s : State) (o : Output) (e : Ent) : (s.emit o).get e = s.get e := rfl

@[simp] theorem State.get_tick (s : State) (e : Ent) : s.tick.get e = s.get e := rfl

end Sys2Proof.Machine
end

