-- ==== Sys2Proof/Laws/Ctu.lean ====
section
/-!
SUPPORT. Laws of the control unit: what its shared operations can do, said once.
-/
namespace Sys2Proof.Machine

/-! ## Contexts -/

@[simp] theorem Core.ctx_setCtx (c : Core) (x : Ctx) : (c.setCtx x).ctx = x := by
  unfold Core.setCtx Core.ctx; split <;> simp [*]

@[simp] theorem Core.onComp_setCtx (c : Core) (x : Ctx) : (c.setCtx x).onComp = c.onComp := by
  unfold Core.setCtx; split <;> rfl

@[simp] theorem Core.setCtx_setCtx (c : Core) (x y : Ctx) : (c.setCtx x).setCtx y = c.setCtx y := by
  unfold Core.setCtx; split <;> simp [*]

@[simp] theorem Core.setCtx_ctx (c : Core) : c.setCtx c.ctx = c := by
  unfold Core.setCtx Core.ctx; split <;> rfl

@[simp] theorem Core.setCtx_ibuf (c : Core) (x : Ctx) : (c.setCtx x).ibuf = c.ibuf := by unfold Core.setCtx; split <;> rfl

@[simp] theorem Core.setCtx_sp (c : Core) (x : Ctx) : (c.setCtx x).sp = c.sp := by unfold Core.setCtx; split <;> rfl

@[simp] theorem Core.setCtx_ctrs (c : Core) (x : Ctx) : (c.setCtx x).ctrs = c.ctrs := by unfold Core.setCtx; split <;> rfl

@[simp] theorem Core.setCtx_mxe (c : Core) (x : Ctx) : (c.setCtx x).mxe = c.mxe := by unfold Core.setCtx; split <;> rfl

@[simp] theorem Core.setCtx_fge (c : Core) (x : Ctx) : (c.setCtx x).fge = c.fge := by unfold Core.setCtx; split <;> rfl

@[simp] theorem Core.setCtx_mse (c : Core) (x : Ctx) : (c.setCtx x).mse = c.mse := by unfold Core.setCtx; split <;> rfl

@[simp] theorem Core.setCtx_ops (c : Core) (x : Ctx) : (c.setCtx x).ops = c.ops := by unfold Core.setCtx; split <;> rfl

@[simp] theorem Core.setCtx_nextOp (c : Core) (x : Ctx) : (c.setCtx x).nextOp = c.nextOp := by unfold Core.setCtx; split <;> rfl

@[simp] theorem Core.setCtx_queues (c : Core) (x : Ctx) : (c.setCtx x).queues = c.queues := by unfold Core.setCtx; split <;> rfl

@[simp] theorem Core.setCtx_credits (c : Core) (x : Ctx) : (c.setCtx x).credits = c.credits := by unfold Core.setCtx; split <;> rfl

@[simp] theorem Core.setCtx_banks (c : Core) (x : Ctx) : (c.setCtx x).banks = c.banks := by unfold Core.setCtx; split <;> rfl

@[simp] theorem Core.setCtx_stageA (c : Core) (x : Ctx) : (c.setCtx x).stageA = c.stageA := by unfold Core.setCtx; split <;> rfl

@[simp] theorem Core.setCtx_stageB (c : Core) (x : Ctx) : (c.setCtx x).stageB = c.stageB := by unfold Core.setCtx; split <;> rfl

@[simp] theorem Core.setCtx_scales (c : Core) (x : Ctx) : (c.setCtx x).scales = c.scales := by unfold Core.setCtx; split <;> rfl

@[simp] theorem Core.setCtx_rstep (c : Core) (x : Ctx) : (c.setCtx x).rstep = c.rstep := by unfold Core.setCtx; split <;> rfl

@[simp] theorem Core.setCtx_lanes (c : Core) (x : Ctx) : (c.setCtx x).lanes = c.lanes := by unfold Core.setCtx; split <;> rfl

@[simp] theorem Core.setCtx_cycles (c : Core) (x : Ctx) : (c.setCtx x).cycles = c.cycles := by unfold Core.setCtx; split <;> rfl

@[simp] theorem Core.setCtx_crc (c : Core) (x : Ctx) : (c.setCtx x).crc = c.crc := by unfold Core.setCtx; split <;> rfl

@[simp] theorem Core.ctr_setCtx (c : Core) (x : Ctx) (n : Nat) : (c.setCtx x).ctr n = c.ctr n := by simp [Core.ctr]

@[simp] theorem Core.queue_setCtx (c : Core) (x : Ctx) (n : Nat) : (c.setCtx x).queue n = c.queue n := by simp [Core.queue]

@[simp] theorem Core.engine_setCtx (c : Core) (x : Ctx) (e : Nat) : (c.setCtx x).engine e = c.engine e := by simp [Core.engine]

@[simp] theorem Ctx.set_st (x : Ctx) (r : Reg) (v : Word) : (x.set r v).st = x.st := by unfold Ctx.set; split <;> rfl

@[simp] theorem Ctx.set_stall (x : Ctx) (r : Reg) (v : Word) : (x.set r v).stall = x.stall := by unfold Ctx.set; split <;> rfl

@[simp] theorem Ctx.set_pc (x : Ctx) (r : Reg) (v : Word) : (x.set r v).pc = x.pc := by unfold Ctx.set; split <;> rfl

@[simp] theorem Ctx.advance_st (x : Ctx) : x.advance.st = x.st := rfl

@[simp] theorem Ctx.advance_stall (x : Ctx) : x.advance.stall = x.stall := rfl

@[simp] theorem Ctx.advance_pc (x : Ctx) : x.advance.pc = x.pc + 4 := rfl

@[simp] theorem Ctx.advance_get (x : Ctx) (r : Reg) : x.advance.get r = x.get r := rfl

/-- g0 reads as zero (R43). -/
@[simp] theorem Ctx.get_zero (x : Ctx) : x.get 0 = 0 := rfl

/-- A register after a write. -/
theorem Ctx.get_set (x : Ctx) (rd r : Reg) (v : Word) : (x.set rd v).get r = if r = rd ∧ r ≠ 0 then v else x.get r := by
  unfold Ctx.set Ctx.get
  by_cases h : rd = 0
  · subst h
    by_cases g : r = 0 <;> simp [g]
  · by_cases g : r = 0
    · simp [g]
    · by_cases k : r = rd
      · subst k; simp [g]
      · have : (rd : Nat) ≠ r := fun e => k (Fin.ext e.symm)
        simp [g, h, k, this]

/-! ## Running -/

/-- A core whose context can run is not woken to anything. -/
theorem State.wake_of_canIssue {s : State} {p : Nat} (h : s.canIssue p = true) : s.wake p = s := by
  simp only [State.canIssue, Bool.and_eq_true, beq_iff_eq, Bool.not_eq_true'] at h
  have w : s.wakeRunning p = s := by unfold State.wakeRunning; simp [h.1.2]
  have g : s.giveBack p = s := by
    unfold State.giveBack
    dsimp only
    split
    · next g =>
      simp only [Bool.and_eq_true, beq_iff_eq] at g
      have hs := h.1.1
      simp only [Core.ctx, g.1.1.1, if_true, g.1.1.2] at hs
      cases hs
    · rfl
  unfold State.wake
  rw [g, w]

/-- Everything an instruction of the control unit can do: nothing where there is no such core, or where its context cannot run once
stalls that can end have. -/
theorem ctuOp_cases {core : CoreId} {s s' : State} {body : Nat → Ctx → State → State} (h : ctuOp core s body = .next s') :
    (s.physOf core.toNat = none ∧ s' = s) ∨ ∃ p, s.physOf core.toNat = some p ∧
      s' = if (s.wake p).canIssue p then body p ((s.wake p).core p).ctx (s.wake p) else s.wake p := by
  unfold ctuOp at h
  split at h
  · next e => exact .inl ⟨e, by cases h; rfl⟩
  · next p e => exact .inr ⟨p, e, by cases h; rfl⟩

/-- An instruction whose core exists always answers a next state. -/
theorem ctuOp_total {core : CoreId} {s : State} {p : Nat} (h : s.physOf core.toNat = some p) (body : Nat → Ctx → State → State) :
    ctuOp core s body = .next (if (s.wake p).canIssue p then body p ((s.wake p).core p).ctx (s.wake p) else s.wake p) := by
  unfold ctuOp; rw [h]

/-- An instruction whose context can run is run. -/
theorem ctuOp_runs {core : CoreId} {s : State} {p : Nat} (h : Runs s core p) (body : Nat → Ctx → State → State) :
    ctuOp core s body = .next (body p (s.core p).ctx s) := by
  rw [ctuOp_total h.1, State.wake_of_canIssue h.2, if_pos h.2]

theorem Runs.ready {s : State} {core : CoreId} {p : Nat} (h : Runs s core p) :
    (s.core p).ctx.st = .ready ∧ (s.core p).ctx.stall = none := by
  have := h.2
  simp only [State.canIssue, Bool.and_eq_true, beq_iff_eq] at this
  exact this.1

/-! ## What has stayed -/

theorem onlyCore_updCore (s : State) (p : Nat) (f : Core → Core) : OnlyCore s (s.updCore p f) p :=
  ⟨rfl, fun _ h => s.core_updCore_other f h⟩

theorem onlyCtx_putCtx (s : State) (p : Nat) (x : Ctx) : OnlyCtx s (s.putCtx p x) p :=
  ⟨onlyCore_updCore s p _, by simp⟩

theorem wentTo_putCtx (s : State) (p : Nat) {x : Ctx} (a : x.st = .ready) (b : x.stall = none) : WentTo s (s.putCtx p x) p x.pc :=
  ⟨onlyCtx_putCtx s p x, by simp [a], by simp [b], by simp⟩

theorem regIs_putCtx (s : State) (p : Nat) (rd : Reg) (v : Word) : RegIs s (s.putCtx p (((s.core p).ctx.set rd v).advance)) p rd v := by
  intro r; simp [Ctx.get_set]

/-- An instruction that writes one register and goes on. -/
theorem writes_of_body {core : CoreId} {s : State} {p : Nat} (h : Runs s core p) {c : Instr} {rd : Reg} {v : Word}
    {body : Nat → Ctx → State → State} (e : exec c s = ctuOp core s body)
    (b : body p (s.core p).ctx s = s.putCtx p ((s.core p).ctx.set rd v).advance) : Writes c s p rd v := by
  refine ⟨_, by rw [e, ctuOp_runs h, b], ?_, regIs_putCtx s p rd v⟩
  have := wentTo_putCtx s p (x := ((s.core p).ctx.set rd v).advance) (by simp [h.ready]) (by simp [h.ready])
  simpa using this

/-- An ALU operation writes its value. -/
theorem aluOp_writes {core : CoreId} {s : State} {p : Nat} (h : Runs s core p) {c : Instr} {rd ra rb : Reg} {f : Word → Word → Word}
    (e : exec c s = aluOp f core rd ra rb s) : Writes c s p rd (f ((s.core p).ctx.get ra) ((s.core p).ctx.get rb)) :=
  writes_of_body h e rfl

/-- An operation on an immediate writes its value. -/
theorem immOp_writes {core : CoreId} {s : State} {p : Nat} (h : Runs s core p) {c : Instr} {rd ra : Reg} {f : Word → Word}
    (e : exec c s = immOp f core rd ra s) : Writes c s p rd (f ((s.core p).ctx.get ra)) :=
  writes_of_body h e rfl

/-- A load of a legal address writes what memory holds there. -/
theorem loadOp_writes {core : CoreId} {s : State} {p : Nat} (h : Runs s core p) {c : Instr} {rd ra : Reg} {imm : BitVec 16} {n : Nat}
    {sg : Bool} (e : exec c s = loadOp n sg core rd ra imm s) (a : addressOk ((s.core p).ctx.address ra imm) n = true) :
    Writes c s p rd (loadValue n sg ((s.core p).sp.num ((s.core p).ctx.address ra imm) n)) :=
  writes_of_body h e (if_pos a)

/-- A store to a legal address. -/
theorem storeOp_runs {core : CoreId} {s : State} {p : Nat} (h : Runs s core p) {rd ra : Reg} {imm : BitVec 16} {n : Nat}
    (a : addressOk ((s.core p).ctx.address ra imm) n = true) :
    storeOp n core rd ra imm s = .next ((s.spWrite p ((s.core p).ctx.address ra imm)
      (leBytes n ((s.core p).ctx.get rd).toNat)).putCtx p (s.core p).ctx.advance) := by
  unfold storeOp
  rw [ctuOp_runs h, if_pos a]

/-- A branch goes to its target or on. -/
theorem branchOp_goes {core : CoreId} {s : State} {p : Nat} (h : Runs s core p) {c : Instr} {ra rb : Reg} {off : BitVec 16}
    {test : Word → Word → Bool} (e : exec c s = branchOp test core ra rb off s) :
    GoesTo c s p (if test ((s.core p).ctx.get ra) ((s.core p).ctx.get rb) then branchTarget (s.core p).ctx.pc off
      else (s.core p).ctx.pc + 4) := by
  refine ⟨_, by rw [e]; unfold branchOp; rw [ctuOp_runs h], ?_, ?_⟩
  · split
    · exact wentTo_putCtx s p h.ready.1 h.ready.2
    · exact wentTo_putCtx s p h.ready.1 h.ready.2
  · intro r; split <;> simp [Ctx.get, Ctx.advance]

/-! ## Faults -/

/-- A core with one of its contexts running. -/
def Core.onto (c : Core) (b : Bool) : Core := { c with onComp := b }

@[simp] theorem Core.onto_onComp (c : Core) (b : Bool) : (c.onto b).onComp = b := rfl
@[simp] theorem Core.onto_primary (c : Core) (b : Bool) : (c.onto b).primary = c.primary := rfl
@[simp] theorem Core.onto_companion (c : Core) (b : Bool) : (c.onto b).companion = c.companion := rfl
@[simp] theorem Core.onto_ibuf (c : Core) (b : Bool) : (c.onto b).ibuf = c.ibuf := rfl
@[simp] theorem Core.onto_sp (c : Core) (b : Bool) : (c.onto b).sp = c.sp := rfl
@[simp] theorem Core.onto_ctrs (c : Core) (b : Bool) : (c.onto b).ctrs = c.ctrs := rfl
@[simp] theorem Core.onto_mxe (c : Core) (b : Bool) : (c.onto b).mxe = c.mxe := rfl
@[simp] theorem Core.onto_fge (c : Core) (b : Bool) : (c.onto b).fge = c.fge := rfl
@[simp] theorem Core.onto_mse (c : Core) (b : Bool) : (c.onto b).mse = c.mse := rfl
@[simp] theorem Core.onto_ops (c : Core) (b : Bool) : (c.onto b).ops = c.ops := rfl
@[simp] theorem Core.onto_nextOp (c : Core) (b : Bool) : (c.onto b).nextOp = c.nextOp := rfl
@[simp] theorem Core.onto_queues (c : Core) (b : Bool) : (c.onto b).queues = c.queues := rfl
@[simp] theorem Core.onto_credits (c : Core) (b : Bool) : (c.onto b).credits = c.credits := rfl
@[simp] theorem Core.onto_banks (c : Core) (b : Bool) : (c.onto b).banks = c.banks := rfl
@[simp] theorem Core.onto_stageA (c : Core) (b : Bool) : (c.onto b).stageA = c.stageA := rfl
@[simp] theorem Core.onto_stageB (c : Core) (b : Bool) : (c.onto b).stageB = c.stageB := rfl
@[simp] theorem Core.onto_scales (c : Core) (b : Bool) : (c.onto b).scales = c.scales := rfl
@[simp] theorem Core.onto_rstep (c : Core) (b : Bool) : (c.onto b).rstep = c.rstep := rfl
@[simp] theorem Core.onto_lanes (c : Core) (b : Bool) : (c.onto b).lanes = c.lanes := rfl
@[simp] theorem Core.onto_cycles (c : Core) (b : Bool) : (c.onto b).cycles = c.cycles := rfl
@[simp] theorem Core.onto_crc (c : Core) (b : Bool) : (c.onto b).crc = c.crc := rfl

/-- Giving the control unit back changes which context of the core runs and nothing else. -/
theorem State.giveBack_core (s : State) (p : Nat) : ∃ b : Bool, (s.giveBack p).core p = (s.core p).onto b ∧
    (b = (s.core p).onComp ∨ b = false ∧ (s.core p).companion.st = .waiting) := by
  unfold State.giveBack
  simp only
  split
  · next g =>
    simp only [Bool.and_eq_true, beq_iff_eq] at g
    exact ⟨false, s.core_updCore_self p _, Or.inr ⟨rfl, g.1.1.2⟩⟩
  · exact ⟨_, rfl, Or.inl rfl⟩

theorem State.giveBack_updCore (s : State) (p : Nat) (f : Core → Core) : ∃ b : Bool,
    ((s.updCore p f).giveBack p).core p = (f (s.core p)).onto b ∧
    (b = (f (s.core p)).onComp ∨ b = false ∧ (f (s.core p)).companion.st = .waiting) := by
  have h := (s.updCore p f).giveBack_core p
  rwa [State.core_updCore_self] at h

theorem State.giveBack_core_other (s : State) {p q : Nat} (h : q ≠ p) : (s.giveBack p).core q = s.core q := by
  unfold State.giveBack
  simp only
  split
  · exact s.core_updCore_other _ h
  · rfl

@[simp] theorem State.giveBack_get (s : State) (p : Nat) (e : Ent) : (s.giveBack p).get e = s.get e := by
  unfold State.giveBack
  simp only
  split <;> rfl

@[simp] theorem Core.posted_primary (c : Core) (i : Nat) (bs : List Byte) (l : Lockstep) : (c.posted i bs l).primary = c.primary := rfl
@[simp] theorem Core.posted_companion (c : Core) (i : Nat) (bs : List Byte) (l : Lockstep) : (c.posted i bs l).companion = c.companion := rfl
@[simp] theorem Core.posted_onComp (c : Core) (i : Nat) (bs : List Byte) (l : Lockstep) : (c.posted i bs l).onComp = c.onComp := rfl
@[simp] theorem Core.posted_ibuf (c : Core) (i : Nat) (bs : List Byte) (l : Lockstep) : (c.posted i bs l).ibuf = c.ibuf := rfl
@[simp] theorem Core.posted_ctrs (c : Core) (i : Nat) (bs : List Byte) (l : Lockstep) : (c.posted i bs l).ctrs = c.ctrs := rfl
@[simp] theorem Core.posted_mxe (c : Core) (i : Nat) (bs : List Byte) (l : Lockstep) : (c.posted i bs l).mxe = c.mxe := rfl
@[simp] theorem Core.posted_fge (c : Core) (i : Nat) (bs : List Byte) (l : Lockstep) : (c.posted i bs l).fge = c.fge := rfl
@[simp] theorem Core.posted_mse (c : Core) (i : Nat) (bs : List Byte) (l : Lockstep) : (c.posted i bs l).mse = c.mse := rfl
@[simp] theorem Core.posted_ops (c : Core) (i : Nat) (bs : List Byte) (l : Lockstep) : (c.posted i bs l).ops = c.ops := rfl
@[simp] theorem Core.posted_nextOp (c : Core) (i : Nat) (bs : List Byte) (l : Lockstep) : (c.posted i bs l).nextOp = c.nextOp := rfl
@[simp] theorem Core.posted_credits (c : Core) (i : Nat) (bs : List Byte) (l : Lockstep) : (c.posted i bs l).credits = c.credits := rfl
@[simp] theorem Core.posted_banks (c : Core) (i : Nat) (bs : List Byte) (l : Lockstep) : (c.posted i bs l).banks = c.banks := rfl
@[simp] theorem Core.posted_stageA (c : Core) (i : Nat) (bs : List Byte) (l : Lockstep) : (c.posted i bs l).stageA = c.stageA := rfl
@[simp] theorem Core.posted_stageB (c : Core) (i : Nat) (bs : List Byte) (l : Lockstep) : (c.posted i bs l).stageB = c.stageB := rfl
@[simp] theorem Core.posted_scales (c : Core) (i : Nat) (bs : List Byte) (l : Lockstep) : (c.posted i bs l).scales = c.scales := rfl
@[simp] theorem Core.posted_rstep (c : Core) (i : Nat) (bs : List Byte) (l : Lockstep) : (c.posted i bs l).rstep = c.rstep := rfl
@[simp] theorem Core.posted_lanes (c : Core) (i : Nat) (bs : List Byte) (l : Lockstep) : (c.posted i bs l).lanes = c.lanes := rfl
@[simp] theorem Core.posted_cycles (c : Core) (i : Nat) (bs : List Byte) (l : Lockstep) : (c.posted i bs l).cycles = c.cycles := rfl
@[simp] theorem Core.posted_sp (c : Core) (i : Nat) (bs : List Byte) (l : Lockstep) :
    (c.posted i bs l).sp = c.sp.writeN ((c.queue 16).slotAddr i) bs := rfl

/-- The record of an event as `State.post` forms it. -/
abbrev State.eventOf (s : State) (kind source cause tag d0 d1 : Nat) : List Byte := eventRecord kind source cause tag s.ftime d0 d1

/-- What posting an event can do to its core: the record goes into a free slot of its event queue, and a companion that waits may give the
control unit back; or nothing. -/
theorem State.post_cores (s : State) (p kind source cause tag d0 d1 : Nat) :
    (∃ i b, (s.post p kind source cause tag d0 d1).core p =
      ((s.core p).posted i (s.eventOf kind source cause tag d0 d1)
        (s.lockCrc (s.core p).crc (s.eventOf kind source cause tag d0 d1))).onto b ∧ (b = (s.core p).onComp ∨ b = false ∧ (s.core p).companion.st = .waiting)) ∨
      (s.post p kind source cause tag d0 d1).core p = s.core p := by
  unfold State.post
  simp only
  split
  · exact Or.inr (by simp)
  · next i _ =>
    obtain ⟨b, hb, hc⟩ := s.giveBack_updCore p (fun c => c.posted i (s.eventOf kind source cause tag d0 d1)
      (s.lockCrc c.crc (s.eventOf kind source cause tag d0 d1)))
    exact Or.inl ⟨i, b, hb, by simpa using hc⟩

@[simp] theorem Core.queue_onto (c : Core) (b : Bool) (n : Nat) : (c.onto b).queue n = c.queue n := rfl

theorem Core.posted_entries (c : Core) (i : Nat) (bs : List Byte) (l : Lockstep) :
    ((c.posted i bs l).queue 16).entries = (c.queue 16).entries ++ [(c.queue 16).slotAddr i] := by
  unfold Core.posted Core.queue Core.setQueue
  simp [look_put_self]

@[simp] theorem counted_zero (s : State) (e : Ent) : Counted s s e 0 := rfl

/-- What posting an event does (R85, R88, R90). -/
theorem State.post_posted (s : State) (p kind source cause tag d0 d1 : Nat) :
    EventPosted s (s.post p kind source cause tag d0 d1) p kind source cause tag d0 d1 := by
  unfold EventPosted State.post
  dsimp only
  generalize (if ((s.core p).queue 16).mode = 0 then none else ((s.core p).queue 16).freeSlot) = slot
  cases slot with
  | none => simp [Counted, State.count, State.get_set_self]
  | some i =>
    obtain ⟨b, hb, -⟩ := s.giveBack_updCore p (fun c => c.posted i (s.eventOf kind source cause tag d0 d1)
      (s.lockCrc c.crc (s.eventOf kind source cause tag d0 d1)))
    refine ⟨?_, ?_, ?_⟩
    · rw [hb]; simp
    · rw [hb]; simp [Core.posted_entries]
    · simp only [Counted, if_true, State.giveBack_get]; rfl

/-- A posting seen from a state with the same clock, event queue, scratchpad and count of drops, into one with the same core and count. -/
theorem EventPosted.of_same {s s' t t' : State} {p kind source cause tag d0 d1 : Nat} (h : EventPosted s t p kind source cause tag d0 d1)
    (hf : s'.ftime = s.ftime) (hq : (s'.core p).queue 16 = (s.core p).queue 16) (hs : (s'.core p).sp = (s.core p).sp)
    (hd : s'.get (Key.eventDrops (physCluster p)) = s.get (Key.eventDrops (physCluster p)))
    (ht : t'.core p = t.core p) (hg : t'.get (Key.eventDrops (physCluster p)) = t.get (Key.eventDrops (physCluster p))) :
    EventPosted s' t' p kind source cause tag d0 d1 := by
  unfold EventPosted Counted at *
  rw [hf, hq, hs, hd, ht, hg]
  exact h

/-- Posting an event leaves every counter but EVENT_DROPS as it was. -/
theorem State.post_get (s : State) (p kind source cause tag d0 d1 : Nat) {e : Ent} (h : e.key ≠ (Key.eventDrops (physCluster p)).key) :
    (s.post p kind source cause tag d0 d1).get e = s.get e := by
  unfold State.post
  simp only
  split
  · exact s.get_count_other 1 h
  · rw [State.giveBack_get]; rfl

theorem State.post_core_other (s : State) (p kind source cause tag d0 d1 : Nat) {q : Nat} (h : q ≠ p) :
    (s.post p kind source cause tag d0 d1).core q = s.core q := by
  unfold State.post
  simp only
  split
  · simp
  · rw [State.giveBack_core_other _ h]; exact s.core_updCore_other _ h

/-- Posting an event leaves the contexts of its core as they were; which of them runs too, unless a companion waits. -/
theorem State.post_ctx (s : State) (p kind source cause tag d0 d1 : Nat) :
    let t := (s.post p kind source cause tag d0 d1).core p
    t.primary = (s.core p).primary ∧ t.companion = (s.core p).companion ∧
      (t.onComp = (s.core p).onComp ∨ t.onComp = false ∧ (s.core p).companion.st = .waiting) := by
  rcases s.post_cores p kind source cause tag d0 d1 with ⟨i, b, h, hb⟩ | h
  · simpa [h] using hb
  · simp [h]

/-- A CTU fault (R55). -/
theorem State.ctuFault_faulted (s : State) (p cause detail : Nat) : CtuFaulted s (s.ctuFault p cause detail) p cause detail := by
  have k : (Key.ctuFaults (physCluster p)).key ≠ (Key.eventDrops (physCluster p)).key := by simp [Key.ctuFaults, Key.eventDrops]
  unfold State.ctuFault
  simp only
  refine ⟨?_, ?_, ?_⟩
  · have h := (s.haltCtx p).post_ctx p 3 (s.core p).ctxSource cause 0 (s.core p).ctx.pc.toNat detail
    simp only at h
    have o : ((s.haltCtx p).core p).onComp = false := by unfold State.haltCtx; simp
    simp only [State.core_count, h.1, h.2.1, h.2.2.elim (fun k => k.trans o) (·.1)]
    unfold State.haltCtx Core.setCtx
    cases e : (s.core p).onComp <;> simp [e]
  · simp only [Counted, State.count, Nat.one_ne_zero, if_false, State.get_set_self, State.post_get _ _ _ _ _ _ _ _ k]
    rfl
  · refine ((s.haltCtx p).post_posted p 3 (s.core p).ctxSource cause 0 (s.core p).ctx.pc.toNat detail).of_same rfl ?_ ?_ rfl
      (State.core_count _ _ _ _) (State.get_count_other _ _ k.symm)
    · unfold State.haltCtx; simp [Core.queue, Core.setCtx]; split <;> rfl
    · unfold State.haltCtx; simp

end Sys2Proof.Machine
end

