-- ==== Sys2Proof/Laws/Engine.lean ====
section
/-!
SUPPORT. Laws of the engines: what starting, stopping on and completing a descriptor can do, said once.
-/
namespace Sys2Proof.Machine

/-! ## Engines of a core -/

theorem Core.engine_setEngine (c : Core) {e f : Nat} (x : Engine) (he : e < 3) (hf : f < 3) :
    (c.setEngine e x).engine f = if f = e then x else c.engine f := by
  unfold Core.setEngine Core.engine
  rcases (by omega : e = 0 ∨ e = 1 ∨ e = 2) with rfl | rfl | rfl <;>
    rcases (by omega : f = 0 ∨ f = 1 ∨ f = 2) with rfl | rfl | rfl <;> simp

theorem Core.setEngine_eq (c : Core) (e : Nat) (x : Engine) :
    c.setEngine e x = { c with mxe := (c.setEngine e x).mxe, fge := (c.setEngine e x).fge, mse := (c.setEngine e x).mse } := by
  unfold Core.setEngine; split
  · rfl
  · split <;> rfl

@[simp] theorem Core.setEngine_sp (c : Core) (e : Nat) (x : Engine) : (c.setEngine e x).sp = c.sp := by rw [Core.setEngine_eq]

@[simp] theorem Core.setEngine_ctrs (c : Core) (e : Nat) (x : Engine) : (c.setEngine e x).ctrs = c.ctrs := by rw [Core.setEngine_eq]

@[simp] theorem Core.setEngine_ops (c : Core) (e : Nat) (x : Engine) : (c.setEngine e x).ops = c.ops := by rw [Core.setEngine_eq]

@[simp] theorem Core.setEngine_nextOp (c : Core) (e : Nat) (x : Engine) : (c.setEngine e x).nextOp = c.nextOp := by
  rw [Core.setEngine_eq]

@[simp] theorem Core.setEngine_primary (c : Core) (e : Nat) (x : Engine) : (c.setEngine e x).primary = c.primary := by
  rw [Core.setEngine_eq]

@[simp] theorem Core.setEngine_companion (c : Core) (e : Nat) (x : Engine) : (c.setEngine e x).companion = c.companion := by
  rw [Core.setEngine_eq]

@[simp] theorem Core.setEngine_queues (c : Core) (e : Nat) (x : Engine) : (c.setEngine e x).queues = c.queues := by
  rw [Core.setEngine_eq]

@[simp] theorem Core.setEngine_banks (c : Core) (e : Nat) (x : Engine) : (c.setEngine e x).banks = c.banks := by
  rw [Core.setEngine_eq]

@[simp] theorem Core.setEngine_scales (c : Core) (e : Nat) (x : Engine) : (c.setEngine e x).scales = c.scales := by
  rw [Core.setEngine_eq]

@[simp] theorem Core.setEngine_rstep (c : Core) (e : Nat) (x : Engine) : (c.setEngine e x).rstep = c.rstep := by
  rw [Core.setEngine_eq]

@[simp] theorem Core.ctr_setEngine (c : Core) (e : Nat) (x : Engine) (n : Nat) : (c.setEngine e x).ctr n = c.ctr n := by
  simp [Core.ctr]

/-- A sync counter after one is set. -/
theorem Core.ctr_setCtr (c : Core) (n v m : Nat) : (c.setCtr n v).ctr m = if m = n then v % 2 ^ 32 else c.ctr m := by
  unfold Core.setCtr Core.ctr
  by_cases h : m = n
  · subst h; simp [look_put_self]
  · simp [look_put_other _ _ h, h]

/-- A sync counter after an increment (R63). -/
theorem Core.ctr_incCtr (c : Core) (n v m : Nat) :
    (c.incCtr n v).ctr m = if m = n ∧ v ≠ 0 then (c.ctr m + v) % 2 ^ 32 else c.ctr m := by
  unfold Core.incCtr
  split
  · next h => simp [h]
  · next h =>
    rw [Core.ctr_setCtr]
    by_cases g : m = n
    · subst g; simp [h]
    · simp [g]

/-! ## Starting -/

/-- Everything an engine's start command can do: nothing (always so without the core), a stop on a reserved opcode, or its meaning on
the popped queue. -/
theorem startOp_cases {core : CoreId} {s s' : State} {e op : Nat} {body : Nat → Nat → State → State}
    (h : startOp core s e op body = .next s') :
    s' = s ∨ ∃ p, s.physOf core.toNat = some p ∧ (∃ d, s.startable p e = some d ∧
      ((opAssigned e (dOp d) = false ∧ s' = (s.popDesc p e).engineStop p e 1 d) ∨ (dOp d = op ∧ s' = body p d (s.popDesc p e)))) := by
  unfold startOp at h
  split at h
  · cases h; exact Or.inl rfl
  · next p hp =>
    split at h
    · cases h; exact Or.inl rfl
    · next d hd =>
      split at h
      · next g => cases h; exact Or.inr ⟨p, hp, d, hd, Or.inl ⟨by simpa using g, rfl⟩⟩
      · split at h
        · next g => cases h; exact Or.inr ⟨p, hp, d, hd, Or.inr ⟨g, rfl⟩⟩
        · cases h; exact Or.inl rfl

/-- A descriptor that may start is started. -/
theorem startOp_starts {core : CoreId} {s : State} {p e op d : Nat} (h : Starts s core p e op d) (a : opAssigned e op = true)
    (body : Nat → Nat → State → State) : startOp core s e op body = .next (body p d (s.popDesc p e)) := by
  unfold startOp
  rw [h.1]
  simp only [h.2.1]
  rw [h.2.2, a]
  simp

theorem State.core_popDesc (s : State) (p e : Nat) :
    (s.popDesc p e).core p = (s.core p).setEngine e { (s.core p).engine e with queue := ((s.core p).engine e).queue.drop 1 } :=
  s.core_updCore_self p _

theorem State.core_popDesc_other (s : State) {p q : Nat} (e : Nat) (h : q ≠ p) : (s.popDesc p e).core q = s.core q :=
  s.core_updCore_other _ h

@[simp] theorem State.get_popDesc (s : State) (p e : Nat) (k : Ent) : (s.popDesc p e).get k = s.get k := rfl

/-- The parts of a core that posting an event leaves as they were. -/
theorem State.post_core (s : State) (p kind source cause tag d0 d1 : Nat) :
    let t := (s.post p kind source cause tag d0 d1).core p
    t.mxe = (s.core p).mxe ∧ t.fge = (s.core p).fge ∧ t.mse = (s.core p).mse ∧ t.ops = (s.core p).ops ∧ t.ctrs = (s.core p).ctrs := by
  rcases s.post_cores p kind source cause tag d0 d1 with ⟨i, b, h, -⟩ | h
  · simp [h]
  · simp [h]

theorem State.post_engine (s : State) (p kind source cause tag d0 d1 f : Nat) :
    ((s.post p kind source cause tag d0 d1).core p).engine f = (s.core p).engine f := by
  have h := s.post_core p kind source cause tag d0 d1
  simp only at h
  simp only [Core.engine, h.1, h.2.1, h.2.2.1]

/-- What an engine's stop does to its core: the engine is stopped, and the event is posted (R62). -/
theorem State.stopEngine_core (s : State) (p e cause d : Nat) : (s.stopEngine p e cause d).core p =
    ((s.updCore p (fun c => c.setEngine e { c.engine e with stopped := true })).post p 2 (e + 2) cause (dTag d) (fld d 0 64) 0).core p := by
  unfold State.stopEngine; exact State.core_count _ _ _ _

/-- An engine stops on the descriptor at its head (R61, R62). -/
theorem engineStop_stops {s : State} {p e cause d : Nat} {c : Instr} (he : e < 3) (hc : 1 ≤ cause ∧ cause ≤ 4)
    (h : exec c s = .next ((s.popDesc p e).engineStop p e cause d)) : StopsEngine c s p e cause d := by
  have k1 : (Key.engineStops (physCluster p)).key ≠ (Key.eventDrops (physCluster p)).key := by simp [Key.engineStops, Key.eventDrops]
  have k2 : (Key.descInvalid (physCluster p)).key ≠ (Key.eventDrops (physCluster p)).key := by simp [Key.descInvalid, Key.eventDrops]
  have k3 : (Key.engineStops (physCluster p)).key ≠ (Key.descInvalid (physCluster p)).key := by simp [Key.engineStops, Key.descInvalid]
  refine ⟨_, h, ?_⟩
  unfold State.engineStop
  simp only [if_pos hc]
  have u : ∀ f, f < 3 → ((((s.popDesc p e).count (Key.descInvalid (physCluster p)) 1).stopEngine p e cause d).core p).engine f =
      if f = e then { ((s.popDesc p e).core p).engine e with stopped := true } else ((s.popDesc p e).core p).engine f := by
    intro f hf
    rw [State.stopEngine_core, State.post_engine, State.core_updCore_self, Core.engine_setEngine _ _ he hf]; simp
  refine ⟨?_, ?_, ?_, ?_, ?_, ?_, ?_, ?_⟩
  · rw [u e he]; simp
  · rw [u e he]; simp [State.core_popDesc, Core.engine_setEngine _ _ he he]
  · rw [u e he]; simp [State.core_popDesc, Core.engine_setEngine _ _ he he]
  · rw [State.stopEngine_core, (State.post_core _ p 2 (e + 2) cause (dTag d) (fld d 0 64) 0).2.2.2.1,
      State.core_updCore_self, State.core_count, State.core_popDesc]; simp
  · intro q hq
    unfold State.stopEngine
    rw [State.core_count, State.post_core_other _ _ _ _ _ _ _ _ hq, State.core_updCore_other _ _ hq, State.core_count,
      State.core_popDesc_other _ _ hq]
  · unfold State.stopEngine
    simp only [Counted, State.count, Nat.one_ne_zero, if_false, State.get_set_self]
    rw [State.post_get _ _ _ _ _ _ _ _ k1, State.get_updCore, State.get_set_other _ _ k3]; rfl
  · unfold State.stopEngine
    simp only [Counted, State.count, Nat.one_ne_zero, if_false]
    rw [State.get_set_other _ _ (Ne.symm k3), State.post_get _ _ _ _ _ _ _ _ k2, State.get_updCore, State.get_set_self]; rfl
  · unfold State.stopEngine
    refine (State.post_posted _ p 2 (e + 2) cause (dTag d) (fld d 0 64) 0).of_same ?_ ?_ ?_ ?_ (State.core_count _ _ _ _)
      (State.get_count_other _ _ k1.symm)
    · unfold State.count; rfl
    · rw [State.core_updCore_self, State.core_count, State.core_popDesc]; simp [Core.queue]
    · rw [State.core_updCore_self, State.core_count, State.core_popDesc]; simp
    · rw [State.get_updCore, State.get_count_other _ _ k2.symm]; rfl

/-- A descriptor that starts and waits for its completion. -/
theorem addStarted_starts {s u : State} {p e d : Nat} {x : Started} {c : Instr} (he : e < 3) (h : exec c s = .next (u.addStarted p e x))
    (hx : x.desc = d) (hq : ((u.core p).engine e).queue = ((s.core p).engine e).queue.drop 1)
    (hs : ((u.core p).engine e).started = ((s.core p).engine e).started) (h1 : (u.core p).sp = (s.core p).sp)
    (h2 : (u.core p).ctrs = (s.core p).ctrs) (h3 : (u.core p).primary = (s.core p).primary)
    (h4 : (u.core p).companion = (s.core p).companion) (h5 : ∀ q, q ≠ p → u.core q = s.core q) :
    StartsOn c s (u.addStarted p e x) p e d := by
  unfold State.addStarted at h ⊢
  refine ⟨h, ?_, ⟨x, ?_, hx⟩, ?_, ?_, ?_, ?_, ?_⟩
  · simp [Core.engine_setEngine _ _ he he, hq]
  · simp [Core.engine_setEngine _ _ he he, hs]
  · simp [h1]
  · simp [h2]
  · simp [h3]
  · simp [h4]
  · intro q hq'; rw [State.core_updCore_other _ _ hq', h5 q hq']

/-! ## Completing -/

/-- Everything the completion command of an engine can do. -/
theorem completeOp_cases {core : CoreId} {s s' : State} {e : Nat} (h : completeOp core s e = .next s') :
    s' = s ∨ ∃ p, s.physOf core.toNat = some p ∧ (∃ x rest, ((s.core p).engine e).started = x :: rest ∧ s.engineHeld p e = false ∧
      s' = ((s.updCore p (fun c => c.setEngine e { c.engine e with started := rest })).applyStarted p e x).descDone p e x.desc) := by
  unfold completeOp at h
  split at h
  · cases h; exact Or.inl rfl
  · next p hp =>
    split at h
    · cases h; exact Or.inl rfl
    · next x rest hx =>
      split at h
      · cases h; exact Or.inl rfl
      · next g => cases h; exact Or.inr ⟨p, hp, x, rest, hx, by simpa using g, rfl⟩

end Sys2Proof.Machine
end

