-- ==== Sys2Proof/Laws/Exec.lean ====
section
/-!
SUPPORT. What exec does with each command, by name: the equation of each arm, so that no proof unfolds the whole dispatch.
-/
namespace Sys2Proof.Machine

@[simp] theorem exec_add (core : CoreId) (rd : Reg) (ra : Reg) (rb : Reg) (s : State) : exec (.add core rd ra rb) s = execAdd core rd ra rb s := rfl
@[simp] theorem exec_sub (core : CoreId) (rd : Reg) (ra : Reg) (rb : Reg) (s : State) : exec (.sub core rd ra rb) s = execSub core rd ra rb s := rfl
@[simp] theorem exec_aluAnd (core : CoreId) (rd : Reg) (ra : Reg) (rb : Reg) (s : State) : exec (.aluAnd core rd ra rb) s = execAluAnd core rd ra rb s := rfl
@[simp] theorem exec_aluOr (core : CoreId) (rd : Reg) (ra : Reg) (rb : Reg) (s : State) : exec (.aluOr core rd ra rb) s = execAluOr core rd ra rb s := rfl
@[simp] theorem exec_aluXor (core : CoreId) (rd : Reg) (ra : Reg) (rb : Reg) (s : State) : exec (.aluXor core rd ra rb) s = execAluXor core rd ra rb s := rfl
@[simp] theorem exec_shl (core : CoreId) (rd : Reg) (ra : Reg) (rb : Reg) (s : State) : exec (.shl core rd ra rb) s = execShl core rd ra rb s := rfl
@[simp] theorem exec_shr (core : CoreId) (rd : Reg) (ra : Reg) (rb : Reg) (s : State) : exec (.shr core rd ra rb) s = execShr core rd ra rb s := rfl
@[simp] theorem exec_sra (core : CoreId) (rd : Reg) (ra : Reg) (rb : Reg) (s : State) : exec (.sra core rd ra rb) s = execSra core rd ra rb s := rfl
@[simp] theorem exec_rotl (core : CoreId) (rd : Reg) (ra : Reg) (rb : Reg) (s : State) : exec (.rotl core rd ra rb) s = execRotl core rd ra rb s := rfl
@[simp] theorem exec_slt (core : CoreId) (rd : Reg) (ra : Reg) (rb : Reg) (s : State) : exec (.slt core rd ra rb) s = execSlt core rd ra rb s := rfl
@[simp] theorem exec_sltu (core : CoreId) (rd : Reg) (ra : Reg) (rb : Reg) (s : State) : exec (.sltu core rd ra rb) s = execSltu core rd ra rb s := rfl
@[simp] theorem exec_aluMin (core : CoreId) (rd : Reg) (ra : Reg) (rb : Reg) (s : State) : exec (.aluMin core rd ra rb) s = execAluMin core rd ra rb s := rfl
@[simp] theorem exec_aluMax (core : CoreId) (rd : Reg) (ra : Reg) (rb : Reg) (s : State) : exec (.aluMax core rd ra rb) s = execAluMax core rd ra rb s := rfl
@[simp] theorem exec_minu (core : CoreId) (rd : Reg) (ra : Reg) (rb : Reg) (s : State) : exec (.minu core rd ra rb) s = execMinu core rd ra rb s := rfl
@[simp] theorem exec_maxu (core : CoreId) (rd : Reg) (ra : Reg) (rb : Reg) (s : State) : exec (.maxu core rd ra rb) s = execMaxu core rd ra rb s := rfl
@[simp] theorem exec_mul (core : CoreId) (rd : Reg) (ra : Reg) (rb : Reg) (s : State) : exec (.mul core rd ra rb) s = execMul core rd ra rb s := rfl
@[simp] theorem exec_mulh (core : CoreId) (rd : Reg) (ra : Reg) (rb : Reg) (s : State) : exec (.mulh core rd ra rb) s = execMulh core rd ra rb s := rfl
@[simp] theorem exec_mulhu (core : CoreId) (rd : Reg) (ra : Reg) (rb : Reg) (s : State) : exec (.mulhu core rd ra rb) s = execMulhu core rd ra rb s := rfl
@[simp] theorem exec_div (core : CoreId) (rd : Reg) (ra : Reg) (rb : Reg) (s : State) : exec (.div core rd ra rb) s = execDiv core rd ra rb s := rfl
@[simp] theorem exec_divu (core : CoreId) (rd : Reg) (ra : Reg) (rb : Reg) (s : State) : exec (.divu core rd ra rb) s = execDivu core rd ra rb s := rfl
@[simp] theorem exec_rem (core : CoreId) (rd : Reg) (ra : Reg) (rb : Reg) (s : State) : exec (.rem core rd ra rb) s = execRem core rd ra rb s := rfl
@[simp] theorem exec_remu (core : CoreId) (rd : Reg) (ra : Reg) (rb : Reg) (s : State) : exec (.remu core rd ra rb) s = execRemu core rd ra rb s := rfl
@[simp] theorem exec_clz (core : CoreId) (rd : Reg) (ra : Reg) (rb : Reg) (s : State) : exec (.clz core rd ra rb) s = execClz core rd ra rb s := rfl
@[simp] theorem exec_ctz (core : CoreId) (rd : Reg) (ra : Reg) (rb : Reg) (s : State) : exec (.ctz core rd ra rb) s = execCtz core rd ra rb s := rfl
@[simp] theorem exec_popc (core : CoreId) (rd : Reg) (ra : Reg) (rb : Reg) (s : State) : exec (.popc core rd ra rb) s = execPopc core rd ra rb s := rfl
@[simp] theorem exec_aluSel (core : CoreId) (rd : Reg) (ra : Reg) (rb : Reg) (s : State) : exec (.aluSel core rd ra rb) s = execAluSel core rd ra rb s := rfl
@[simp] theorem exec_addi (core : CoreId) (rd : Reg) (ra : Reg) (imm : BitVec 16) (s : State) : exec (.addi core rd ra imm) s = execAddi core rd ra imm s := rfl
@[simp] theorem exec_andi (core : CoreId) (rd : Reg) (ra : Reg) (imm : BitVec 16) (s : State) : exec (.andi core rd ra imm) s = execAndi core rd ra imm s := rfl
@[simp] theorem exec_ori (core : CoreId) (rd : Reg) (ra : Reg) (imm : BitVec 16) (s : State) : exec (.ori core rd ra imm) s = execOri core rd ra imm s := rfl
@[simp] theorem exec_xori (core : CoreId) (rd : Reg) (ra : Reg) (imm : BitVec 16) (s : State) : exec (.xori core rd ra imm) s = execXori core rd ra imm s := rfl
@[simp] theorem exec_slti (core : CoreId) (rd : Reg) (ra : Reg) (imm : BitVec 16) (s : State) : exec (.slti core rd ra imm) s = execSlti core rd ra imm s := rfl
@[simp] theorem exec_shiShl (core : CoreId) (rd : Reg) (ra : Reg) (amount : BitVec 6) (s : State) : exec (.shiShl core rd ra amount) s = execShiShl core rd ra amount s := rfl
@[simp] theorem exec_shiShr (core : CoreId) (rd : Reg) (ra : Reg) (amount : BitVec 6) (s : State) : exec (.shiShr core rd ra amount) s = execShiShr core rd ra amount s := rfl
@[simp] theorem exec_shiSra (core : CoreId) (rd : Reg) (ra : Reg) (amount : BitVec 6) (s : State) : exec (.shiSra core rd ra amount) s = execShiSra core rd ra amount s := rfl
@[simp] theorem exec_shiRotl (core : CoreId) (rd : Reg) (ra : Reg) (amount : BitVec 6) (s : State) : exec (.shiRotl core rd ra amount) s = execShiRotl core rd ra amount s := rfl
@[simp] theorem exec_lui (core : CoreId) (rd : Reg) (imm : BitVec 16) (s : State) : exec (.lui core rd imm) s = execLui core rd imm s := rfl
@[simp] theorem exec_insq (core : CoreId) (rd : Reg) (quarter : BitVec 2) (imm : BitVec 16) (s : State) : exec (.insq core rd quarter imm) s = execInsq core rd quarter imm s := rfl
@[simp] theorem exec_lb (core : CoreId) (rd : Reg) (ra : Reg) (imm : BitVec 16) (s : State) : exec (.lb core rd ra imm) s = execLb core rd ra imm s := rfl
@[simp] theorem exec_lbu (core : CoreId) (rd : Reg) (ra : Reg) (imm : BitVec 16) (s : State) : exec (.lbu core rd ra imm) s = execLbu core rd ra imm s := rfl
@[simp] theorem exec_lh (core : CoreId) (rd : Reg) (ra : Reg) (imm : BitVec 16) (s : State) : exec (.lh core rd ra imm) s = execLh core rd ra imm s := rfl
@[simp] theorem exec_lhu (core : CoreId) (rd : Reg) (ra : Reg) (imm : BitVec 16) (s : State) : exec (.lhu core rd ra imm) s = execLhu core rd ra imm s := rfl
@[simp] theorem exec_lw (core : CoreId) (rd : Reg) (ra : Reg) (imm : BitVec 16) (s : State) : exec (.lw core rd ra imm) s = execLw core rd ra imm s := rfl
@[simp] theorem exec_lwu (core : CoreId) (rd : Reg) (ra : Reg) (imm : BitVec 16) (s : State) : exec (.lwu core rd ra imm) s = execLwu core rd ra imm s := rfl
@[simp] theorem exec_ld (core : CoreId) (rd : Reg) (ra : Reg) (imm : BitVec 16) (s : State) : exec (.ld core rd ra imm) s = execLd core rd ra imm s := rfl
@[simp] theorem exec_sb (core : CoreId) (rd : Reg) (ra : Reg) (imm : BitVec 16) (s : State) : exec (.sb core rd ra imm) s = execSb core rd ra imm s := rfl
@[simp] theorem exec_sh (core : CoreId) (rd : Reg) (ra : Reg) (imm : BitVec 16) (s : State) : exec (.sh core rd ra imm) s = execSh core rd ra imm s := rfl
@[simp] theorem exec_sw (core : CoreId) (rd : Reg) (ra : Reg) (imm : BitVec 16) (s : State) : exec (.sw core rd ra imm) s = execSw core rd ra imm s := rfl
@[simp] theorem exec_sd (core : CoreId) (rd : Reg) (ra : Reg) (imm : BitVec 16) (s : State) : exec (.sd core rd ra imm) s = execSd core rd ra imm s := rfl
@[simp] theorem exec_beq (core : CoreId) (ra : Reg) (rb : Reg) (off : BitVec 16) (s : State) : exec (.beq core ra rb off) s = execBeq core ra rb off s := rfl
@[simp] theorem exec_bne (core : CoreId) (ra : Reg) (rb : Reg) (off : BitVec 16) (s : State) : exec (.bne core ra rb off) s = execBne core ra rb off s := rfl
@[simp] theorem exec_blt (core : CoreId) (ra : Reg) (rb : Reg) (off : BitVec 16) (s : State) : exec (.blt core ra rb off) s = execBlt core ra rb off s := rfl
@[simp] theorem exec_bge (core : CoreId) (ra : Reg) (rb : Reg) (off : BitVec 16) (s : State) : exec (.bge core ra rb off) s = execBge core ra rb off s := rfl
@[simp] theorem exec_bltu (core : CoreId) (ra : Reg) (rb : Reg) (off : BitVec 16) (s : State) : exec (.bltu core ra rb off) s = execBltu core ra rb off s := rfl
@[simp] theorem exec_bgeu (core : CoreId) (ra : Reg) (rb : Reg) (off : BitVec 16) (s : State) : exec (.bgeu core ra rb off) s = execBgeu core ra rb off s := rfl
@[simp] theorem exec_jal (core : CoreId) (rd : Reg) (off : BitVec 21) (s : State) : exec (.jal core rd off) s = execJal core rd off s := rfl
@[simp] theorem exec_jalr (core : CoreId) (rd : Reg) (ra : Reg) (imm : BitVec 16) (s : State) : exec (.jalr core rd ra imm) s = execJalr core rd ra imm s := rfl
@[simp] theorem exec_pushd (core : CoreId) (engine : BitVec 2) (ra : Reg) (s : State) : exec (.pushd core engine ra) s = execPushd core engine ra s := rfl
@[simp] theorem exec_pushdn (core : CoreId) (engine : BitVec 2) (rd : Reg) (ra : Reg) (s : State) : exec (.pushdn core engine rd ra) s = execPushdn core engine rd ra s := rfl
@[simp] theorem exec_scwait (core : CoreId) (ra : Reg) (rb : Reg) (s : State) : exec (.scwait core ra rb) s = execScwait core ra rb s := rfl
@[simp] theorem exec_sctest (core : CoreId) (rd : Reg) (ra : Reg) (rb : Reg) (s : State) : exec (.sctest core rd ra rb) s = execSctest core rd ra rb s := rfl
@[simp] theorem exec_scread (core : CoreId) (rd : Reg) (ra : Reg) (s : State) : exec (.scread core rd ra) s = execScread core rd ra s := rfl
@[simp] theorem exec_scset (core : CoreId) (ra : Reg) (rb : Reg) (s : State) : exec (.scset core ra rb) s = execScset core ra rb s := rfl
@[simp] theorem exec_scadd (core : CoreId) (ra : Reg) (rb : Reg) (s : State) : exec (.scadd core ra rb) s = execScadd core ra rb s := rfl
@[simp] theorem exec_qcfg (core : CoreId) (ra : Reg) (rb : Reg) (s : State) : exec (.qcfg core ra rb) s = execQcfg core ra rb s := rfl
@[simp] theorem exec_qwait (core : CoreId) (rd : Reg) (ra : Reg) (s : State) : exec (.qwait core rd ra) s = execQwait core rd ra s := rfl
@[simp] theorem exec_qpeek (core : CoreId) (rd : Reg) (ra : Reg) (s : State) : exec (.qpeek core rd ra) s = execQpeek core rd ra s := rfl
@[simp] theorem exec_qrel (core : CoreId) (ra : Reg) (rb : Reg) (s : State) : exec (.qrel core ra rb) s = execQrel core ra rb s := rfl
@[simp] theorem exec_qstat (core : CoreId) (rd : Reg) (ra : Reg) (s : State) : exec (.qstat core rd ra) s = execQstat core rd ra s := rfl
@[simp] theorem exec_halt (core : CoreId) (s : State) : exec (.halt core) s = execHalt core s := rfl
@[simp] theorem exec_ctuYield (core : CoreId) (s : State) : exec (.ctuYield core) s = execCtuYield core s := rfl
@[simp] theorem exec_ifill (core : CoreId) (rd : Reg) (ra : Reg) (rb : Reg) (s : State) : exec (.ifill core rd ra rb) s = execIfill core rd ra rb s := rfl
@[simp] theorem exec_ifillComplete (core : CoreId) (s : State) : exec (.ifillComplete core) s = execIfillComplete core s := rfl
@[simp] theorem exec_drd (core : CoreId) (rd : Reg) (ra : Reg) (s : State) : exec (.drd core rd ra) s = execDrd core rd ra s := rfl
@[simp] theorem exec_drdResult (core : CoreId) (s : State) : exec (.drdResult core) s = execDrdResult core s := rfl
@[simp] theorem exec_ftime (core : CoreId) (rd : Reg) (s : State) : exec (.ftime core rd) s = execFtime core rd s := rfl
@[simp] theorem exec_ctxid (core : CoreId) (rd : Reg) (s : State) : exec (.ctxid core rd) s = execCtxid core rd s := rfl
@[simp] theorem exec_coreid (core : CoreId) (rd : Reg) (s : State) : exec (.coreid core rd) s = execCoreid core rd s := rfl
@[simp] theorem exec_swappt (core : CoreId) (rd : Reg) (ra : Reg) (s : State) : exec (.swappt core rd ra) s = execSwappt core rd ra s := rfl
@[simp] theorem exec_cycles (core : CoreId) (rd : Reg) (s : State) : exec (.cycles core rd) s = execCycles core rd s := rfl
@[simp] theorem exec_backfillSwitch (core : CoreId) (s : State) : exec (.backfillSwitch core) s = execBackfillSwitch core s := rfl
@[simp] theorem exec_mxeNop (core : CoreId) (s : State) : exec (.mxeNop core) s = execMxeNop core s := rfl
@[simp] theorem exec_mma (core : CoreId) (s : State) : exec (.mma core) s = execMma core s := rfl
@[simp] theorem exec_mxeCombine (core : CoreId) (s : State) : exec (.mxeCombine core) s = execMxeCombine core s := rfl
@[simp] theorem exec_mxeDrain (core : CoreId) (s : State) : exec (.mxeDrain core) s = execMxeDrain core s := rfl
@[simp] theorem exec_mxeClear (core : CoreId) (s : State) : exec (.mxeClear core) s = execMxeClear core s := rfl
@[simp] theorem exec_mxeDescComplete (core : CoreId) (s : State) : exec (.mxeDescComplete core) s = execMxeDescComplete core s := rfl
@[simp] theorem exec_deferTake (core : CoreId) (s : State) : exec (.deferTake core) s = execDeferTake core s := rfl
@[simp] theorem exec_fgeNop (core : CoreId) (s : State) : exec (.fgeNop core) s = execFgeNop core s := rfl
@[simp] theorem exec_fgeStream (core : CoreId) (s : State) : exec (.fgeStream core) s = execFgeStream core s := rfl
@[simp] theorem exec_fgeCompress (core : CoreId) (s : State) : exec (.fgeCompress core) s = execFgeCompress core s := rfl
@[simp] theorem exec_fgeExpand (core : CoreId) (s : State) : exec (.fgeExpand core) s = execFgeExpand core s := rfl
@[simp] theorem exec_ctxLoad (core : CoreId) (s : State) : exec (.ctxLoad core) s = execCtxLoad core s := rfl
@[simp] theorem exec_ctxStore (core : CoreId) (s : State) : exec (.ctxStore core) s = execCtxStore core s := rfl
@[simp] theorem exec_ctxRoll (core : CoreId) (s : State) : exec (.ctxRoll core) s = execCtxRoll core s := rfl
@[simp] theorem exec_setStep (core : CoreId) (s : State) : exec (.setStep core) s = execSetStep core s := rfl
@[simp] theorem exec_fgeDescComplete (core : CoreId) (s : State) : exec (.fgeDescComplete core) s = execFgeDescComplete core s := rfl
@[simp] theorem exec_mseNop (core : CoreId) (s : State) : exec (.mseNop core) s = execMseNop core s := rfl
@[simp] theorem exec_msePut (core : CoreId) (s : State) : exec (.msePut core) s = execMsePut core s := rfl
@[simp] theorem exec_mseGet (core : CoreId) (s : State) : exec (.mseGet core) s = execMseGet core s := rfl
@[simp] theorem exec_mseSend (core : CoreId) (s : State) : exec (.mseSend core) s = execMseSend core s := rfl
@[simp] theorem exec_mseCopy (core : CoreId) (s : State) : exec (.mseCopy core) s = execMseCopy core s := rfl
@[simp] theorem exec_mseSignal (core : CoreId) (s : State) : exec (.mseSignal core) s = execMseSignal core s := rfl
@[simp] theorem exec_mseFence (core : CoreId) (s : State) : exec (.mseFence core) s = execMseFence core s := rfl
@[simp] theorem exec_mseDescComplete (core : CoreId) (no : Nat) (s : State) : exec (.mseDescComplete core no) s = execMseDescComplete core no s := rfl
@[simp] theorem exec_bushelOpen (core : CoreId) (s : State) : exec (.bushelOpen core) s = execBushelOpen core s := rfl
@[simp] theorem exec_bushelPush (core : CoreId) (s : State) : exec (.bushelPush core) s = execBushelPush core s := rfl
@[simp] theorem exec_bushelDrain (core : CoreId) (s : State) : exec (.bushelDrain core) s = execBushelDrain core s := rfl
@[simp] theorem exec_bushelFrameRead (core : CoreId) (no : Nat) (s : State) : exec (.bushelFrameRead core no) s = execBushelFrameRead core no s := rfl
@[simp] theorem exec_bushelQuery (core : CoreId) (s : State) : exec (.bushelQuery core) s = execBushelQuery core s := rfl
@[simp] theorem exec_mseGather (core : CoreId) (s : State) : exec (.mseGather core) s = execMseGather core s := rfl
@[simp] theorem exec_bucketAdd (core : CoreId) (s : State) : exec (.bucketAdd core) s = execBucketAdd core s := rfl
@[simp] theorem exec_bucketStep (core : CoreId) (s : State) : exec (.bucketStep core) s = execBucketStep core s := rfl
@[simp] theorem exec_bucketStepRelease (core : CoreId) (no : Nat) (s : State) : exec (.bucketStepRelease core no) s = execBucketStepRelease core no s := rfl
@[simp] theorem exec_bucketExchange (core : CoreId) (s : State) : exec (.bucketExchange core) s = execBucketExchange core s := rfl
@[simp] theorem exec_bucketWindowAdmit (core : CoreId) (no : Nat) (s : State) : exec (.bucketWindowAdmit core no) s = execBucketWindowAdmit core no s := rfl
@[simp] theorem exec_bucketAgree (core : CoreId) (s : State) : exec (.bucketAgree core) s = execBucketAgree core s := rfl
@[simp] theorem exec_groupForm (core : CoreId) (s : State) : exec (.groupForm core) s = execGroupForm core s := rfl
@[simp] theorem exec_collAllReduce (core : CoreId) (s : State) : exec (.collAllReduce core) s = execCollAllReduce core s := rfl
@[simp] theorem exec_collReduceScatter (core : CoreId) (s : State) : exec (.collReduceScatter core) s = execCollReduceScatter core s := rfl
@[simp] theorem exec_collAllGather (core : CoreId) (s : State) : exec (.collAllGather core) s = execCollAllGather core s := rfl
@[simp] theorem exec_collBroadcast (core : CoreId) (s : State) : exec (.collBroadcast core) s = execCollBroadcast core s := rfl
@[simp] theorem exec_collBarrier (core : CoreId) (s : State) : exec (.collBarrier core) s = execCollBarrier core s := rfl
@[simp] theorem exec_collectiveLaunch (context : Nat) (s : State) : exec (.collectiveLaunch context) s = execCollectiveLaunch context s := rfl
@[simp] theorem exec_expertDispatch (core : CoreId) (s : State) : exec (.expertDispatch core) s = execExpertDispatch core s := rfl
@[simp] theorem exec_expertReturn (core : CoreId) (s : State) : exec (.expertReturn core) s = execExpertReturn core s := rfl
@[simp] theorem exec_expertCombine (core : CoreId) (s : State) : exec (.expertCombine core) s = execExpertCombine core s := rfl
@[simp] theorem exec_putArrival (via : Option Port) (packet : Packet) (s : State) : exec (.putArrival via packet) s = execPutArrival via packet s := rfl
@[simp] theorem exec_getArrival (via : Option Port) (packet : Packet) (s : State) : exec (.getArrival via packet) s = execGetArrival via packet s := rfl
@[simp] theorem exec_sendArrival (via : Option Port) (packet : Packet) (s : State) : exec (.sendArrival via packet) s = execSendArrival via packet s := rfl
@[simp] theorem exec_copyArrival (via : Option Port) (packet : Packet) (s : State) : exec (.copyArrival via packet) s = execCopyArrival via packet s := rfl
@[simp] theorem exec_signalArrival (via : Option Port) (packet : Packet) (s : State) : exec (.signalArrival via packet) s = execSignalArrival via packet s := rfl
@[simp] theorem exec_gatherArrival (via : Option Port) (packet : Packet) (s : State) : exec (.gatherArrival via packet) s = execGatherArrival via packet s := rfl
@[simp] theorem exec_readDataArrival (via : Option Port) (packet : Packet) (s : State) : exec (.readDataArrival via packet) s = execReadDataArrival via packet s := rfl
@[simp] theorem exec_completionArrival (via : Option Port) (packet : Packet) (s : State) : exec (.completionArrival via packet) s = execCompletionArrival via packet s := rfl
@[simp] theorem exec_busyArrival (via : Option Port) (packet : Packet) (s : State) : exec (.busyArrival via packet) s = execBusyArrival via packet s := rfl
@[simp] theorem exec_retryArrival (via : Option Port) (packet : Packet) (s : State) : exec (.retryArrival via packet) s = execRetryArrival via packet s := rfl
@[simp] theorem exec_creditGrantArrival (core : CoreId) (channel : BitVec 4) (node : BitVec 32) (ep : BitVec 16) (credits : Nat) (payload : Nat) (s : State) : exec (.creditGrantArrival core channel node ep credits payload) s = execCreditGrantArrival core channel node ep credits payload s := rfl
@[simp] theorem exec_creditReturnArrival (core : CoreId) (channel : BitVec 4) (node : BitVec 32) (ep : BitVec 16) (credits : Nat) (s : State) : exec (.creditReturnArrival core channel node ep credits) s = execCreditReturnArrival core channel node ep credits s := rfl
@[simp] theorem exec_packetForward (via : Option Port) (packet : Packet) (s : State) : exec (.packetForward via packet) s = execPacketForward via packet s := rfl
@[simp] theorem exec_reorderBackoffExpiry (msgId : BitVec 24) (s : State) : exec (.reorderBackoffExpiry msgId) s = execReorderBackoffExpiry msgId s := rfl
@[simp] theorem exec_reorderContextExpiry (node : BitVec 32) (msgId : BitVec 24) (s : State) : exec (.reorderContextExpiry node msgId) s = execReorderContextExpiry node msgId s := rfl
@[simp] theorem exec_dupRecordExpiry (node : BitVec 32) (msgId : BitVec 24) (s : State) : exec (.dupRecordExpiry node msgId) s = execDupRecordExpiry node msgId s := rfl
@[simp] theorem exec_msgTimeoutResend (msgId : BitVec 24) (s : State) : exec (.msgTimeoutResend msgId) s = execMsgTimeoutResend msgId s := rfl
@[simp] theorem exec_msgTimeoutFinal (msgId : BitVec 24) (s : State) : exec (.msgTimeoutFinal msgId) s = execMsgTimeoutFinal msgId s := rfl
@[simp] theorem exec_detourStallExpiry (index : Nat) (s : State) : exec (.detourStallExpiry index) s = execDetourStallExpiry index s := rfl
@[simp] theorem exec_meshLinkOut (setting : Setting) (neighbour : Nat) (s : State) : exec (.meshLinkOut setting neighbour) s = execMeshLinkOut setting neighbour s := rfl
@[simp] theorem exec_openerArrival (via : Option Port) (packet : Packet) (s : State) : exec (.openerArrival via packet) s = execOpenerArrival via packet s := rfl
@[simp] theorem exec_collectiveDataArrival (via : Option Port) (packet : Packet) (s : State) : exec (.collectiveDataArrival via packet) s = execCollectiveDataArrival via packet s := rfl
@[simp] theorem exec_abortArrival (via : Option Port) (packet : Packet) (s : State) : exec (.abortArrival via packet) s = execAbortArrival via packet s := rfl
@[simp] theorem exec_collParkExpiry (node : BitVec 32) (context : Nat) (key : BitVec 16) (s : State) : exec (.collParkExpiry node context key) s = execCollParkExpiry node context key s := rfl
@[simp] theorem exec_collProgressTimeout (context : Nat) (s : State) : exec (.collProgressTimeout context) s = execCollProgressTimeout context s := rfl
@[simp] theorem exec_troyUpdate (packet : Packet) (s : State) : exec (.troyUpdate packet) s = execTroyUpdate packet s := rfl
@[simp] theorem exec_troyCommit (packet : Packet) (s : State) : exec (.troyCommit packet) s = execTroyCommit packet s := rfl
@[simp] theorem exec_ledgerSet (packet : Packet) (s : State) : exec (.ledgerSet packet) s = execLedgerSet packet s := rfl
@[simp] theorem exec_troyProgramPut (packet : Packet) (s : State) : exec (.troyProgramPut packet) s = execTroyProgramPut packet s := rfl
@[simp] theorem exec_troyConstPut (packet : Packet) (s : State) : exec (.troyConstPut packet) s = execTroyConstPut packet s := rfl
@[simp] theorem exec_troyCommandStart (setting : Setting) (s : State) : exec (.troyCommandStart setting) s = execTroyCommandStart setting s := rfl
@[simp] theorem exec_troyCommandComplete (setting : Setting) (s : State) : exec (.troyCommandComplete setting) s = execTroyCommandComplete setting s := rfl
@[simp] theorem exec_commitBarrierRelease (s : State) : exec (.commitBarrierRelease) s = execCommitBarrierRelease s := rfl
@[simp] theorem exec_wcbTimeoutExpiry (setting : Setting) (line : Nat) (s : State) : exec (.wcbTimeoutExpiry setting line) s = execWcbTimeoutExpiry setting line s := rfl
@[simp] theorem exec_scrubRead (setting : Setting) (line : Nat) (s : State) : exec (.scrubRead setting line) s = execScrubRead setting line s := rfl
@[simp] theorem exec_xflDataFrame (link : Link) (frame : Frame) (s : State) : exec (.xflDataFrame link frame) s = execXflDataFrame link frame s := rfl
@[simp] theorem exec_xflIdleFrame (link : Link) (frame : Frame) (s : State) : exec (.xflIdleFrame link frame) s = execXflIdleFrame link frame s := rfl
@[simp] theorem exec_neighbourFrame (link : Link) (frame : Frame) (record : NbRecord) (s : State) : exec (.neighbourFrame link frame record) s = execNeighbourFrame link frame record s := rfl
@[simp] theorem exec_stateFrame (link : Link) (frame : Frame) (state : BitVec 8) (port : BitVec 4) (s : State) : exec (.stateFrame link frame state port) s = execStateFrame link frame state port s := rfl
@[simp] theorem exec_timeFrame (link : Link) (frame : Frame) (time : TimeBody) (s : State) : exec (.timeFrame link frame time) s = execTimeFrame link frame time s := rfl
@[simp] theorem exec_xflAckTimeout (link : Link) (s : State) : exec (.xflAckTimeout link) s = execXflAckTimeout link s := rfl
@[simp] theorem exec_linkDown (link : Link) (s : State) : exec (.linkDown link) s = execLinkDown link s := rfl
@[simp] theorem exec_linkRetrainHoldoffExpiry (link : Link) (s : State) : exec (.linkRetrainHoldoffExpiry link) s = execLinkRetrainHoldoffExpiry link s := rfl
@[simp] theorem exec_phyTrainDone (link : Link) (s : State) : exec (.phyTrainDone link) s = execPhyTrainDone link s := rfl
@[simp] theorem exec_xflSyncDone (link : Link) (skew : Nat) (s : State) : exec (.xflSyncDone link skew) s = execXflSyncDone link skew s := rfl
@[simp] theorem exec_linkTrainTimeLimit (link : Link) (s : State) : exec (.linkTrainTimeLimit link) s = execLinkTrainTimeLimit link s := rfl
@[simp] theorem exec_stateFrameTimer (link : Link) (s : State) : exec (.stateFrameTimer link) s = execStateFrameTimer link s := rfl
@[simp] theorem exec_neighbourFrameTimer (link : Link) (s : State) : exec (.neighbourFrameTimer link) s = execNeighbourFrameTimer link s := rfl
@[simp] theorem exec_timeSyncTimer (s : State) : exec (.timeSyncTimer) s = execTimeSyncTimer s := rfl
@[simp] theorem exec_fecSecond (link : Link) (worst : BitVec 8) (corrected : Nat) (uncorrectable : Nat) (s : State) : exec (.fecSecond link worst corrected uncorrectable) s = execFecSecond link worst corrected uncorrectable s := rfl
@[simp] theorem exec_tableSeal (s : State) : exec (.tableSeal) s = execTableSeal s := rfl
@[simp] theorem exec_tableFlip (s : State) : exec (.tableFlip) s = execTableFlip s := rfl
@[simp] theorem exec_tableRetire (s : State) : exec (.tableRetire) s = execTableRetire s := rfl
@[simp] theorem exec_tableUnseal (s : State) : exec (.tableUnseal) s = execTableUnseal s := rfl
@[simp] theorem exec_chpHello (head : ChpHead) (payload : List Byte) (s : State) : exec (.chpHello head payload) s = execChpHello head payload s := rfl
@[simp] theorem exec_chpFinish (head : ChpHead) (payload : List Byte) (s : State) : exec (.chpFinish head payload) s = execChpFinish head payload s := rfl
@[simp] theorem exec_chpFinishTimeout (session : Nat) (s : State) : exec (.chpFinishTimeout session) s = execChpFinishTimeout session s := rfl
@[simp] theorem exec_chpClose (head : ChpHead) (s : State) : exec (.chpClose head) s = execChpClose head s := rfl
@[simp] theorem exec_ackOnly (head : ChpHead) (s : State) : exec (.ackOnly head) s = execAckOnly head s := rfl
@[simp] theorem exec_chpData (head : ChpHead) (payload : List Byte) (s : State) : exec (.chpData head payload) s = execChpData head payload s := rfl
@[simp] theorem exec_chpWrite (head : ChpHead) (record : BitVec 512) (s : State) : exec (.chpWrite head record) s = execChpWrite head record s := rfl
@[simp] theorem exec_chpRead (head : ChpHead) (record : BitVec 512) (s : State) : exec (.chpRead head record) s = execChpRead head record s := rfl
@[simp] theorem exec_dictRead (head : ChpHead) (record : BitVec 512) (s : State) : exec (.dictRead head record) s = execDictRead head record s := rfl
@[simp] theorem exec_dictWrite (head : ChpHead) (record : BitVec 512) (s : State) : exec (.dictWrite head record) s = execDictWrite head record s := rfl
@[simp] theorem exec_loadPrimary (head : ChpHead) (record : BitVec 512) (s : State) : exec (.loadPrimary head record) s = execLoadPrimary head record s := rfl
@[simp] theorem exec_loadCompanion (head : ChpHead) (record : BitVec 512) (s : State) : exec (.loadCompanion head record) s = execLoadCompanion head record s := rfl
@[simp] theorem exec_cmdqBind (head : ChpHead) (record : BitVec 512) (s : State) : exec (.cmdqBind head record) s = execCmdqBind head record s := rfl
@[simp] theorem exec_cmdqUnbind (head : ChpHead) (record : BitVec 512) (s : State) : exec (.cmdqUnbind head record) s = execCmdqUnbind head record s := rfl
@[simp] theorem exec_cmdPush (head : ChpHead) (record : BitVec 512) (payload : List Byte) (s : State) : exec (.cmdPush head record payload) s = execCmdPush head record payload s := rfl
@[simp] theorem exec_ringConfigEnable (head : ChpHead) (record : BitVec 512) (s : State) : exec (.ringConfigEnable head record) s = execRingConfigEnable head record s := rfl
@[simp] theorem exec_ringConfigDisable (head : ChpHead) (record : BitVec 512) (s : State) : exec (.ringConfigDisable head record) s = execRingConfigDisable head record s := rfl
@[simp] theorem exec_ringPut (head : ChpHead) (record : BitVec 512) (s : State) : exec (.ringPut head record) s = execRingPut head record s := rfl
@[simp] theorem exec_chpResetWarm (head : ChpHead) (record : BitVec 512) (s : State) : exec (.chpResetWarm head record) s = execChpResetWarm head record s := rfl
@[simp] theorem exec_chpResetCold (head : ChpHead) (record : BitVec 512) (s : State) : exec (.chpResetCold head record) s = execChpResetCold head record s := rfl
@[simp] theorem exec_recordStop (head : ChpHead) (record : BitVec 512) (s : State) : exec (.recordStop head record) s = execRecordStop head record s := rfl
@[simp] theorem exec_recordStartWrapping (head : ChpHead) (record : BitVec 512) (s : State) : exec (.recordStartWrapping head record) s = execRecordStartWrapping head record s := rfl
@[simp] theorem exec_recordStartStopFull (head : ChpHead) (record : BitVec 512) (s : State) : exec (.recordStartStopFull head record) s = execRecordStartStopFull head record s := rfl
@[simp] theorem exec_recordClear (head : ChpHead) (record : BitVec 512) (s : State) : exec (.recordClear head record) s = execRecordClear head record s := rfl
@[simp] theorem exec_chpReplay (head : ChpHead) (record : BitVec 512) (s : State) : exec (.chpReplay head record) s = execChpReplay head record s := rfl
@[simp] theorem exec_replayStop (head : ChpHead) (record : BitVec 512) (s : State) : exec (.replayStop head record) s = execReplayStop head record s := rfl
@[simp] theorem exec_replayRecord (s : State) : exec (.replayRecord) s = execReplayRecord s := rfl
@[simp] theorem exec_chpAckDelayExpiry (session : Nat) (s : State) : exec (.chpAckDelayExpiry session) s = execChpAckDelayExpiry session s := rfl
@[simp] theorem exec_chpRtoExpiry (session : Nat) (s : State) : exec (.chpRtoExpiry session) s = execChpRtoExpiry session s := rfl
@[simp] theorem exec_chpRetxLimit (session : Nat) (s : State) : exec (.chpRetxLimit session) s = execChpRetxLimit session s := rfl
@[simp] theorem exec_chpIdleTimeout (session : Nat) (s : State) : exec (.chpIdleTimeout session) s = execChpIdleTimeout session s := rfl
@[simp] theorem exec_chpRateRaise (session : Nat) (s : State) : exec (.chpRateRaise session) s = execChpRateRaise session s := rfl
@[simp] theorem exec_arpRequest (target : BitVec 32) (sender : BitVec 32) (asker : Asker) (s : State) : exec (.arpRequest target sender asker) s = execArpRequest target sender asker s := rfl
@[simp] theorem exec_neighbourSolicitation (target : BitVec 128) (sender : BitVec 128) (asker : Asker) (s : State) : exec (.neighbourSolicitation target sender asker) s = execNeighbourSolicitation target sender asker s := rfl
@[simp] theorem exec_icmpEcho (v6 : Bool) (target : BitVec 128) (sender : BitVec 128) (frame : EchoFrame) (s : State) : exec (.icmpEcho v6 target sender frame) s = execIcmpEcho v6 target sender frame s := rfl
@[simp] theorem exec_ptpMessage (domain : BitVec 8) (frame : PtpFrame) (s : State) : exec (.ptpMessage domain frame) s = execPtpMessage domain frame s := rfl
@[simp] theorem exec_ptpHoldover (s : State) : exec (.ptpHoldover) s = execPtpHoldover s := rfl
@[simp] theorem exec_plcaBeacon (claimCollision : Bool) (assignedHeard : Bool) (s : State) : exec (.plcaBeacon claimCollision assignedHeard) s = execPlcaBeacon claimCollision assignedHeard s := rfl
@[simp] theorem exec_chainTxHoldTimeout (s : State) : exec (.chainTxHoldTimeout) s = execChainTxHoldTimeout s := rfl
@[simp] theorem exec_claimBackoffExpiry (collision : Bool) (s : State) : exec (.claimBackoffExpiry collision) s = execClaimBackoffExpiry collision s := rfl
@[simp] theorem exec_claimTimeout (s : State) : exec (.claimTimeout) s = execClaimTimeout s := rfl
@[simp] theorem exec_chainAssign (head : AhmHead) (id : BitVec 8) (s : State) : exec (.chainAssign head id) s = execChainAssign head id s := rfl
@[simp] theorem exec_assignWatchEnd (s : State) : exec (.assignWatchEnd) s = execAssignWatchEnd s := rfl
@[simp] theorem exec_strappedIdConflict (s : State) : exec (.strappedIdConflict) s = execStrappedIdConflict s := rfl
@[simp] theorem exec_ahmRead (head : AhmHead) (items : List Byte) (s : State) : exec (.ahmRead head items) s = execAhmRead head items s := rfl
@[simp] theorem exec_ahmWrite (head : AhmHead) (items : List Byte) (s : State) : exec (.ahmWrite head items) s = execAhmWrite head items s := rfl
@[simp] theorem exec_enumerate (head : AhmHead) (items : List Byte) (s : State) : exec (.enumerate head items) s = execEnumerate head items s := rfl
@[simp] theorem exec_entryWrite (index : BitVec 16) (sub : BitVec 8) (value : List Byte) (s : State) : exec (.entryWrite index sub value) s = execEntryWrite index sub value s := rfl
@[simp] theorem exec_dictStagingTimeout (index : BitVec 16) (sub : BitVec 8) (s : State) : exec (.dictStagingTimeout index sub) s = execDictStagingTimeout index sub s := rfl
@[simp] theorem exec_dictFlashStore (index : BitVec 16) (sub : BitVec 8) (s : State) : exec (.dictFlashStore index sub) s = execDictFlashStore index sub s := rfl
@[simp] theorem exec_jobStart (s : State) : exec (.jobStart) s = execJobStart s := rfl
@[simp] theorem exec_jobStop (s : State) : exec (.jobStop) s = execJobStop s := rfl
@[simp] theorem exec_dictFlashRestore (value : BitVec 8) (s : State) : exec (.dictFlashRestore value) s = execDictFlashRestore value s := rfl
@[simp] theorem exec_portEnable (port : Port) (value : BitVec 8) (s : State) : exec (.portEnable port value) s = execPortEnable port value s := rfl
@[simp] theorem exec_portLinkMask (port : Port) (value : BitVec 32) (s : State) : exec (.portLinkMask port value) s = execPortLinkMask port value s := rfl
@[simp] theorem exec_portAxis (port : Port) (value : BitVec 8) (s : State) : exec (.portAxis port value) s = execPortAxis port value s := rfl
@[simp] theorem exec_portExpectSerial (port : Port) (value : BitVec 64) (s : State) : exec (.portExpectSerial port value) s = execPortExpectSerial port value s := rfl
@[simp] theorem exec_portExpectPort (port : Port) (value : BitVec 8) (s : State) : exec (.portExpectPort port value) s = execPortExpectPort port value s := rfl
@[simp] theorem exec_topoMode (value : BitVec 8) (s : State) : exec (.topoMode value) s = execTopoMode value s := rfl
@[simp] theorem exec_macsecSak (value : BitVec 360) (s : State) : exec (.macsecSak value) s = execMacsecSak value s := rfl
@[simp] theorem exec_failedMask (cluster : Cluster) (value : BitVec 32) (s : State) : exec (.failedMask cluster value) s = execFailedMask cluster value s := rfl
@[simp] theorem exec_locketWindowData (s : State) : exec (.locketWindowData) s = execLocketWindowData s := rfl
@[simp] theorem exec_hallmarkInstall (value : BitVec 64) (s : State) : exec (.hallmarkInstall value) s = execHallmarkInstall value s := rfl
@[simp] theorem exec_hallmarkInstallDone (s : State) : exec (.hallmarkInstallDone) s = execHallmarkInstallDone s := rfl
@[simp] theorem exec_hallmarkRemove (value : BitVec 32) (s : State) : exec (.hallmarkRemove value) s = execHallmarkRemove value s := rfl
@[simp] theorem exec_hallmarkPieceTimeout (cluster : Cluster) (s : State) : exec (.hallmarkPieceTimeout cluster) s = execHallmarkPieceTimeout cluster s := rfl
@[simp] theorem exec_signetNonce (value : BitVec 256) (s : State) : exec (.signetNonce value) s = execSignetNonce value s := rfl
@[simp] theorem exec_rollbackCommit (value : BitVec 8) (s : State) : exec (.rollbackCommit value) s = execRollbackCommit value s := rfl
@[simp] theorem exec_fwUpdate (value : BitVec 64) (s : State) : exec (.fwUpdate value) s = execFwUpdate value s := rfl
@[simp] theorem exec_fwUpdateDone (result : UpdateEnd) (s : State) : exec (.fwUpdateDone result) s = execFwUpdateDone result s := rfl
@[simp] theorem exec_fwStageData (value : BitVec 256) (s : State) : exec (.fwStageData value) s = execFwStageData value s := rfl
@[simp] theorem exec_debugAuth (part : Fin 4) (value : BitVec 512) (s : State) : exec (.debugAuth part value) s = execDebugAuth part value s := rfl
@[simp] theorem exec_debugLock (value : BitVec 8) (s : State) : exec (.debugLock value) s = execDebugLock value s := rfl
@[simp] theorem exec_engineWdtExpiry (core : CoreId) (engine : Fin 3) (s : State) : exec (.engineWdtExpiry core engine) s = execEngineWdtExpiry core engine s := rfl
@[simp] theorem exec_coreWdtExpiry (core : CoreId) (s : State) : exec (.coreWdtExpiry core) s = execCoreWdtExpiry core s := rfl
@[simp] theorem exec_heartbeatCheck (missed : List Nat) (s : State) : exec (.heartbeatCheck missed) s = execHeartbeatCheck missed s := rfl
@[simp] theorem exec_engineReset (core : CoreId) (engine : Fin 3) (capture : Bool) (s : State) : exec (.engineReset core engine capture) s = execEngineReset core engine capture s := rfl
@[simp] theorem exec_coreReset (core : CoreId) (capture : Bool) (s : State) : exec (.coreReset core capture) s = execCoreReset core capture s := rfl
@[simp] theorem exec_clusterReset (cluster : Cluster) (capture : Bool) (s : State) : exec (.clusterReset cluster capture) s = execClusterReset cluster capture s := rfl
@[simp] theorem exec_computeDieReset (die : Die) (capture : Bool) (s : State) : exec (.computeDieReset die capture) s = execComputeDieReset die capture s := rfl
@[simp] theorem exec_settingReset (setting : Setting) (capture : Bool) (s : State) : exec (.settingReset setting capture) s = execSettingReset setting capture s := rfl
@[simp] theorem exec_rimDieReset (rim : Rim) (s : State) : exec (.rimDieReset rim) s = execRimDieReset rim s := rfl
@[simp] theorem exec_packageWarmReset (capture : Bool) (s : State) : exec (.packageWarmReset capture) s = execPackageWarmReset capture s := rfl
@[simp] theorem exec_coldInitialisation (s : State) : exec (.coldInitialisation) s = execColdInitialisation s := rfl
@[simp] theorem exec_locketCaptureEnd (index : Nat) (s : State) : exec (.locketCaptureEnd index) s = execLocketCaptureEnd index s := rfl
@[simp] theorem exec_locketAccessTimeout (index : Nat) (core : CoreId) (line : Nat) (s : State) : exec (.locketAccessTimeout index core line) s = execLocketAccessTimeout index core line s := rfl
@[simp] theorem exec_resetComplete (index : Nat) (s : State) : exec (.resetComplete index) s = execResetComplete index s := rfl
@[simp] theorem exec_escalation (index : Nat) (s : State) : exec (.escalation index) s = execEscalation index s := rfl
@[simp] theorem exec_prstNAssert (s : State) : exec (.prstNAssert) s = execPrstNAssert s := rfl
@[simp] theorem exec_packageStart (railsOff : Bool) (lowFor : Nat) (chainStrap : BitVec 5) (bootStrap : BitVec 2) (s : State) : exec (.packageStart railsOff lowFor chainStrap bootStrap) s = execPackageStart railsOff lowFor chainStrap bootStrap s := rfl
@[simp] theorem exec_pwrokFall (s : State) : exec (.pwrokFall) s = execPwrokFall s := rfl
@[simp] theorem exec_pkgReady (s : State) : exec (.pkgReady) s = execPkgReady s := rfl
@[simp] theorem exec_startupTimeout (s : State) : exec (.startupTimeout) s = execStartupTimeout s := rfl
@[simp] theorem exec_vinWarning (setting : Setting) (s : State) : exec (.vinWarning setting) s = execVinWarning setting s := rfl
@[simp] theorem exec_vinRecovery (setting : Setting) (s : State) : exec (.vinRecovery setting) s = execVinRecovery setting s := rfl
@[simp] theorem exec_vinPowerfail (setting : Setting) (chargeHeld : Bool) (s : State) : exec (.vinPowerfail setting chargeHeld) s = execVinPowerfail setting chargeHeld s := rfl
@[simp] theorem exec_setpointUpdate (cluster : Cluster) (mv : Nat) (s : State) : exec (.setpointUpdate cluster mv) s = execSetpointUpdate cluster mv s := rfl
@[simp] theorem exec_pmbusPoll (rail : Fin 50) (reading : Option RailReading) (s : State) : exec (.pmbusPoll rail reading) s = execPmbusPoll rail reading s := rfl
@[simp] theorem exec_pmbusAlert (bus : Rim) (readings : List (Nat × Option RailReading)) (s : State) : exec (.pmbusAlert bus readings) s = execPmbusAlert bus readings s := rfl
@[simp] theorem exec_avsRead (setting : Setting) (mv : Nat) (ma : Nat) (s : State) : exec (.avsRead setting mv ma) s = execAvsRead setting mv ma s := rfl
@[simp] theorem exec_powerWindowEnd (s : State) : exec (.powerWindowEnd) s = execPowerWindowEnd s := rfl
@[simp] theorem exec_sensorSample (readings : List (Nat × Int)) (s : State) : exec (.sensorSample readings) s = execSensorSample readings s := rfl
@[simp] theorem exec_thermalStepDown (unit : Nat) (s : State) : exec (.thermalStepDown unit) s = execThermalStepDown unit s := rfl
@[simp] theorem exec_thermalStepUp (unit : Nat) (s : State) : exec (.thermalStepUp unit) s = execThermalStepUp unit s := rfl
@[simp] theorem exec_prochotInAssert (s : State) : exec (.prochotInAssert) s = execProchotInAssert s := rfl
@[simp] theorem exec_prochotInRelease (s : State) : exec (.prochotInRelease) s = execProchotInRelease s := rfl
@[simp] theorem exec_refclkLoss (s : State) : exec (.refclkLoss) s = execRefclkLoss s := rfl
@[simp] theorem exec_refclkReturn (s : State) : exec (.refclkReturn) s = execRefclkReturn s := rfl
@[simp] theorem exec_refclk156Loss (rim : Rim) (s : State) : exec (.refclk156Loss rim) s = execRefclk156Loss rim s := rfl
@[simp] theorem exec_xflCrcError (link : Link) (frame : Frame) (s : State) : exec (.xflCrcError link frame) s = execXflCrcError link frame s := rfl
@[simp] theorem exec_firmwareVerificationEnd (attempt : BootAttempt) (s : State) :
    exec (.firmwareVerificationEnd attempt) s = execFirmwareVerificationEnd attempt s := rfl
@[simp] theorem exec_refclk100LockTimeout (s : State) : exec (.refclk100LockTimeout) s = execRefclk100LockTimeout s := rfl
@[simp] theorem exec_quickCheckEnd (outcome : QuickOutcome) (s : State) : exec (.quickCheckEnd outcome) s = execQuickCheckEnd outcome s := rfl
@[simp] theorem exec_hbmTrainingEnd (setting : Setting) (identityOk : Bool) (failed : List (Fin 32)) (s : State) : exec (.hbmTrainingEnd setting identityOk failed) s = execHbmTrainingEnd setting identityOk failed s := rfl
@[simp] theorem exec_swapptComplete (core : CoreId) (s : State) : exec (.swapptComplete core) s = execSwapptComplete core s := rfl

end Sys2Proof.Machine
end

