-- ==== Sys2Proof/Laws/Ops.lean ====
section
/-!
SUPPORT. Laws of the shared operations of packets, frames, host requests, management and resets: what each can do, said once, and what it
does where its checks pass.
-/
namespace Sys2Proof.Machine

/-! ## Nothing in progress -/

theorem State.runColls_quiet {s : State} (h : s.colls = []) (w : s.ctxWaiters = []) : s.runColls = s := by
  simp [State.runColls, State.collPass, h, w]

theorem State.pumpCore_quiet {s : State} {p : Nat} (h : (s.core p).ops = []) : s.pumpCore p = s := by
  simp [State.pumpCore, h]

theorem State.pumpMsgs_quiet {s : State} (h : ∀ q, (s.core q).ops = []) : s.pumpMsgs = s := by
  have g : ∀ l : List Nat, l.foldl State.pumpCore s = s := by
    intro l
    induction l with
    | nil => rfl
    | cons a t ih => rw [List.foldl_cons, State.pumpCore_quiet (h a), ih]
  exact g _

theorem State.hostRetry_quiet {s : State} (h : s.host.reqs = []) : s.hostRetry = s := by
  simp [State.hostRetry, h]

/-- Where nothing is in progress, nothing waits for a unit that serves again. -/
theorem State.resumeAll_quiet {s : State} (h : Quiet s) : s.resumeAll = s := by
  obtain ⟨a, _, c, d, e⟩ := h
  rw [State.resumeAll, State.hostRetry_quiet d, State.runColls_quiet a c, State.pumpMsgs_quiet e]

/-- With nothing buffered on a link and no packet waiting, offering them again does nothing. -/
theorem State.pump_quiet {s : State} (h : ∀ l, (s.link l).txq = []) (w : s.waiting = []) : s.pump = s := by
  have g : ∀ l : List Nat, l.foldl (fun (s : State) l => if (s.link l).txq.isEmpty then s else s.pumpLink l) s = s := by
    intro l
    induction l with
    | nil => rfl
    | cons a t ih => rw [List.foldl_cons, if_pos (by simp [h a]), ih]
  unfold State.pump
  rw [g]
  simp [w]
  rw [← w]

/-! ## A package that is held (R551, R556) -/

@[simp] theorem State.whileUp_runs {s : State} (h : s.packageHeld = false) (t : State → State) : s.whileUp t = t s := by
  simp [State.whileUp, h]

@[simp] theorem State.whileUp_held {s : State} (h : s.packageHeld = true) (t : State → State) : s.whileUp t = s := by
  simp [State.whileUp, h]

/-! ## Arriving packets (R369, R389, R394, R399) -/

/-- A packet that is turned away is counted, goes on from the adjacent plane of its detour, or is answered with BAD_ENDPOINT. -/
theorem turnedAway_cases {via : Option Port} {p : Packet} {s t : State} (h : s.turnedAway via p = some t) :
    (∃ e, t = s.count e 1) ∨ (∃ q, via = some q ∧ t = s.transit q p) ∨ (t = (s.count Key.tagMismatchArrivals 1).sendPacket
      ((s.count Key.tagMismatchArrivals 1).completionFor p 1 ((s.count Key.tagMismatchArrivals 1).leafOf p) false)) := by
  unfold State.turnedAway at h
  dsimp only at h
  split at h
  · cases h; exact .inl ⟨_, rfl⟩
  · split at h
    · cases h; exact .inl ⟨_, rfl⟩
    · split at h
      · next g =>
        cases via with
        | none => exact absurd g.1 (by simp)
        | some q => cases h; exact .inr (.inl ⟨q, rfl, rfl⟩)
      · split at h
        · cases h; exact .inl ⟨_, rfl⟩
        · split at h
          · cases h; exact .inl ⟨_, rfl⟩
          · split at h
            · cases h
              split
              · exact .inr (.inr rfl)
              · exact .inl ⟨_, rfl⟩
            · cases h

/-- Everything a packet at its destination can do: nothing, what befalls one that is turned away, or its meaning. -/
theorem arrivalIf_cases {mine : Bool} {via : Option Port} {p : Packet} {s t : State} {body : State → State}
    (h : arrivalIf mine via p s body = .next t) :
    t = s ∨ (∃ e, t = (s.takeIn via p).count e 1) ∨ (∃ q, via = some q ∧ t = (s.takeIn via p).transit q p) ∨
      (let u := (s.takeIn via p).count Key.tagMismatchArrivals 1; t = u.sendPacket (u.completionFor p 1 (u.leafOf p) false)) ∨
      (s.packageHeld = false ∧ mine = true ∧ s.isOwn p.destNode.toNat = true ∧ t = body (s.takeIn via p)) := by
  unfold arrivalIf at h
  split at h
  · cases h; exact .inl rfl
  · next g =>
    rw [not_or, not_or] at g
    split at h
    · next x => cases h; exact .inr ((turnedAway_cases x).elim .inl (fun y => .inr (y.elim .inl (fun z => .inr (.inl z)))))
    · cases h; exact .inr (.inr (.inr (.inr ⟨by simpa using g.1, by simpa using g.2.1, by simpa using g.2.2, rfl⟩)))

/-- A packet at its destination always has an outcome. -/
theorem arrivalIf_total (mine : Bool) (via : Option Port) (p : Packet) (s : State) (body : State → State) :
    ∃ t, arrivalIf mine via p s body = .next t := by
  unfold arrivalIf
  repeat' split
  all_goals exact ⟨_, rfl⟩

/-- A packet that arrives intact is not turned away. -/
theorem turnedAway_arrives {op : Nat} {via : Option Port} {p : Packet} {s : State} (h : Arrives s op via p) : s.turnedAway via p = none := by
  obtain ⟨_, _, own, port, ab, res, crc, len, tag⟩ := h
  unfold State.turnedAway
  cases via with
  | none => simp [ab, res, crc, len, tag]
  | some q =>
    obtain ⟨f, t, d1, d2⟩ := port q rfl
    have d : ¬ (p.detour = 1#2 ∨ p.detour = 2#2) := fun h => h.elim d1 d2
    simp [ab, res, crc, len, tag, f, t, d]

/-- Taking a packet from among those received changes nothing else. -/
theorem Arrives.takeIn {op : Nat} {via : Option Port} {p : Packet} {s : State} (h : Arrives s op via p) :
    Arrives (s.takeIn via p) op via p := by
  cases via with
  | none => exact h
  | some q => exact h

/-- A packet that arrives intact is handled. -/
theorem arrivalIf_arrives {mine : Bool} {op : Nat} {via : Option Port} {p : Packet} {s : State} (h : Arrives s op via p) (m : mine = true)
    (body : State → State) : arrivalIf mine via p s body = .next (body (s.takeIn via p)) := by
  unfold arrivalIf
  simp [m, h.1, h.2.2.1, turnedAway_arrives h.takeIn]

theorem arrival_arrives {op : Nat} {via : Option Port} {p : Packet} {s : State} (h : Arrives s op via p) (body : State → State) :
    arrival op via p s body = .next (body (s.takeIn via p)) :=
  arrivalIf_arrives h (by simp [h.2.1]) body

/-! ## Frames (R339, R343) -/

/-- Everything a received frame can do: nothing, the count of a bad frame, or its meaning between ACK and NAK. -/
theorem frameOp_cases {ftype : Nat} {link : Link} {f : Frame} {s t : State} {body : State → State} (h : frameOp ftype link f s body = .next t) :
    t = s ∨ t = s.badFrame link.val ∨ (s.packageHeld = false ∧ 3 ≤ (s.link link.val).st ∧ f.ftype.toNat = ftype ∧ frameOk f = true
      ∧ t = ((body (s.takeAck link.val f)).takeNak link.val f).pump) := by
  unfold frameOp at h
  split at h
  · cases h; exact .inl rfl
  · next g =>
    rw [not_or, not_or, Decidable.not_not] at g
    split at h
    · cases h; exact .inr (.inl rfl)
    · next k =>
      injection h with h
      exact .inr (.inr ⟨Bool.eq_false_iff.mpr g.1, Nat.le_of_not_lt g.2.1, g.2.2, by simpa using k, h.symm⟩)

/-- A good frame of its type on a trained link is handled. -/
theorem frameOp_good {ftype : Nat} {link : Link} {f : Frame} {s : State} (a : s.packageHeld = false) (b : 3 ≤ (s.link link.val).st)
    (c : f.ftype.toNat = ftype) (d : frameOk f = true) (body : State → State) :
    frameOp ftype link f s body = .next (((body (s.takeAck link.val f)).takeNak link.val f).pump) := by
  unfold frameOp
  rw [if_neg (by simp [a, c]; omega), if_neg (by simp [d])]

/-! ## CHP packets and requests (R430, R433, R435, R436) -/

@[simp] theorem took_get (s : State) (w : Wire) (e : Ent) : (s.took w).get e = s.get e := by
  unfold State.took
  split <;> rfl

/-- Without a SecTAG a frame changes nothing by being taken. -/
theorem took_plain {s : State} {w : Wire} (h : w.sec = none) : s.took w = s := by
  unfold State.took
  rw [h]

/-- Everything a frame at the host port can do. -/
theorem wireOp_cases {heard : Bool} {w : Wire} {bytes : List Byte} {s t : State} {body : State → State}
    (h : wireOp heard w bytes s body = .next t) : t = s ∨ t = s.rxDiscard ∨ t = s.count Key.macsecDrops 1 ∨
      (heard = true ∧ wireGood w = true ∧ s.secGood w bytes = true ∧ t = body (s.took w)) := by
  unfold wireOp at h
  split at h
  · cases h; exact .inl rfl
  · next a =>
    split at h
    · cases h; exact .inr (.inr (.inl rfl))
    · split at h
      · cases h; exact .inr (.inl rfl)
      · next b =>
        rw [not_or] at b
        cases h
        exact .inr (.inr (.inr ⟨by simpa using a, by simpa using b.1, by simpa using b.2, rfl⟩))

/-- A frame that is taken is handled. -/
theorem wireOp_taken {heard : Bool} {w : Wire} {bytes : List Byte} {s : State} (k : heard = true) (h : FrameTaken s w bytes)
    (body : State → State) : wireOp heard w bytes s body = .next (body (s.took w)) := by
  obtain ⟨a, b, c⟩ := h
  unfold wireOp
  rw [if_neg (by simp [k]), if_neg (by simp [c]), if_neg (by simp [b, c])]

/-- A CHP packet that is taken is handled. -/
theorem chpIn_taken {head : ChpHead} {type : Nat} {payload : List Byte} {s : State} (h : ChpTaken s head type payload)
    (body : State → State) : chpIn head type payload s body = .next (body (s.took head.wire)) := by
  obtain ⟨a, b, c⟩ := h
  unfold chpIn
  rw [if_neg (by simp [b]), wireOp_taken (by simp [State.portHears, a.1]) a]
  have g : (s.took head.wire).framed head payload = true := by
    unfold State.framed at c ⊢
    simpa using c
  simp [b, g]

/-- Everything a CHP packet of a session can do. -/
theorem chpOp_cases {head : ChpHead} {type : Nat} {payload : List Byte} {s t : State} {fits : Session → Bool} {body : Nat → State → State}
    (h : chpOp head type payload s fits body = .next t) :
    t = s ∨ t = s.rxDiscard ∨ t = s.count Key.macsecDrops 1 ∨ t = (s.took head.wire).rxDiscard
      ∨ t = (s.took head.wire).count Key.chpTagFailures 1 ∨ ∃ x, (s.took head.wire).tagged head payload = some x
        ∧ t = body head.session.toNat ((s.took head.wire).takeHeader head.session.toNat x head) := by
  unfold chpOp chpIn at h
  split at h
  · cases h; exact .inl rfl
  · rcases wireOp_cases h with h | h | h | ⟨_, _, _, h⟩
    · exact .inl h
    · exact .inr (.inl h)
    · exact .inr (.inr (.inl h))
    · split at h
      · exact .inr (.inr (.inr (.inl h)))
      · dsimp only at h
        split at h
        · exact .inr (.inr (.inr (.inr (.inl h))))
        · next x hx =>
          split at h
          · exact .inr (.inr (.inr (.inr (.inr ⟨x, hx, h⟩))))
          · exact .inr (.inr (.inr (.inl h)))

/-- A sequenced packet that is taken in has its effect on the state with its SEQ received. -/
theorem chpOp_taken {head : ChpHead} {type : Nat} {payload : List Byte} {s u : State} {fits : Session → Bool}
    (h : Taken s head type payload u) (f : ∀ x, (s.took head.wire).tagged head payload = some x → fits x = true)
    (body : Nat → State → State) :
    chpOp head type payload s fits (fun n s => s.sequenced n head.seq.toNat true (body n)) = .next (body head.session.toNat u) := by
  obtain ⟨a, x, y, tg, ss, d1, d2, rfl⟩ := h
  unfold chpOp
  rw [chpIn_taken a]
  simp only [tg, f x tg, if_true]
  unfold State.sequenced
  simp only [ss]
  rw [if_neg, if_neg]
  · rintro (g | g)
    · omega
    · cases g
  · rintro (g | g)
    · omega
    · rcases d2 with d2 | d2
      · omega
      · rw [d2] at g; simp at g

/-- A request that is taken in, whose record is this command's and whose OP is assigned, is executed. -/
theorem requestOp_requested {head : ChpHead} {record : BitVec 512} {extra : List Byte} {s w : State} {mine : Nat → Bool}
    (h : Requested s head record extra w) (m : mine record.toNat = true) (o : 1 ≤ qOp record.toNat ∧ qOp record.toNat ≤ 12)
    (body : Nat → Nat → State → State) :
    requestOp head record extra mine s body = .next (body head.session.toNat record.toNat w) := by
  obtain ⟨u, ht, hw, hr⟩ := h
  have g : (qOp record.toNat == 0 || decide (12 < qOp record.toNat)) = false := by
    simp; omega
  unfold requestOp
  simp only [m, g]
  simp only [Bool.true_eq_false, false_and, if_false]
  refine (chpOp_taken ht (fun _ _ => rfl) (fun n s => _)).trans ?_
  subst hw
  congr 1
  simp only [Bool.false_eq_true, if_false]
  rw [if_neg]
  rintro ⟨a, b⟩
  rcases hr with hr | hr
  · rw [hr] at a; simp at a
  · rw [hr] at b; simp at b

/-! ## The Chain and the dictionary (R464, R465, R469) -/

/-- Everything a request of the coordinator can do. -/
theorem ahmOp_cases {type : BitVec 8} {head : AhmHead} {items : List Byte} {ok : Bool} {s t : State} {body : State → State}
    (h : ahmOp type head items ok s body = .next t) :
    t = s ∨ t = s.count Key.ahmDiscards 1 ∨ (∃ a, s.repeated head = some a ∧ t = (s.chainSend head.src a).count Key.ahmDuplicates 1) ∨
      (s.hears head = true ∧ head.type = type ∧ ok = true ∧ s.repeated head = none ∧ t = body (s.count Key.ahmRequests 1)) := by
  unfold ahmOp at h
  split at h
  · cases h; exact .inl rfl
  · next g =>
    split at h
    · cases h; exact .inr (.inl rfl)
    · next k =>
      simp only [not_or, Decidable.not_not] at k
      split at h
      · next a ha => cases h; exact .inr (.inr (.inl ⟨a, ha, rfl⟩))
      · next ha => cases h; exact .inr (.inr (.inr ⟨by simp at g; exact g.1, k.2.2.1, by simpa using k.2.2.2.2, ha, rfl⟩))

/-- A new request that passes its checks is handled. -/
theorem ahmOp_new {type : BitVec 8} {head : AhmHead} {items : List Byte} {ok : Bool} {s : State} (a : s.hears head = true)
    (b : head.magic = 0xA4E1) (c : head.version = 1) (t : head.type = type) (d : items.length ≤ 1024) (e : ok = true)
    (f : s.repeated head = none) (body : State → State) :
    ahmOp type head items ok s body = .next (body (s.count Key.ahmRequests 1)) := by
  unfold ahmOp
  rw [if_neg (by simp [a, t]), if_neg (by simp [b, c, t, e]; omega)]
  simp only [f]

/-- What a write can answer: accepted, a part kept, or refused with the state as the checks left it. -/
theorem State.dictWrite_cases (s : State) (index sub : Nat) (bs : List Byte) :
    let r := s.checkedWrite index sub bs
    (r.2.1 = 0 ∧ s.dictWrite index sub bs = (r.1.count Key.dictWrites 1, 0, r.2.2)) ∨
      (r.2.1 = 5 ∧ s.dictWrite index sub bs = (r.1, 0, none)) ∨
      (r.2.1 ≠ 0 ∧ r.2.1 ≠ 5 ∧ s.dictWrite index sub bs = (r.1.count Key.dictWritesRefused 1, r.2.1, none)) := by
  unfold State.dictWrite
  rcases s.checkedWrite index sub bs with ⟨u, v, w⟩
  dsimp only
  split
  · exact .inl ⟨rfl, rfl⟩
  · exact .inr (.inl ⟨rfl, rfl⟩)
  · next a b => exact .inr (.inr ⟨a, b, rfl⟩)

/-- A write of a whole value that is admitted and in range takes effect. -/
theorem State.checkedWrite_whole {s : State} {index sub : Nat} {bs : List Byte} {r : EntryRow} (a : s.entryRow index sub = some r)
    (b : s.admits r index sub = true) (c : bs.length = r.size) : s.checkedWrite index sub bs = s.writeWhole r index sub bs := by
  unfold State.checkedWrite
  simp [a, b, c]

/-- A command entry that is written takes effect, and what its write asks for waits for the answer. -/
theorem State.writeWhole_takes {s : State} {index sub : Nat} {bs : List Byte} {r : EntryRow} {x : State × Pending}
    (a : s.inRange r index sub (leNat bs) = true) (b : s.takeValue r index sub bs = some x) :
    s.writeWhole r index sub bs = ((x.1.announce s).pump, 0, x.2) := by
  unfold State.writeWhole
  simp [a, b]

/-- A write that is accepted and asks for no package reset. -/
theorem State.manage_accepts {s t : State} {index sub : Nat} {bs : List Byte} (h : s.leadAnswers = true)
    (w : s.checkedWrite index sub bs = (t, 0, none)) : s.manage index sub bs = (t.count Key.dictWrites 1).emit (.dict 0 []) := by
  unfold State.manage State.dictWrite
  simp [h, w, State.startPending]

/-- A write that is refused. -/
theorem State.manage_refuses {s : State} {index sub st : Nat} {bs : List Byte} (h : s.leadAnswers = true)
    (w : s.checkedWrite index sub bs = (s, st, none)) (a : st ≠ 0) (b : st ≠ 5) :
    s.manage index sub bs = (s.count Key.dictWritesRefused 1).emit (.dict st []) := by
  have g : s.dictWrite index sub bs = (s.count Key.dictWritesRefused 1, st, none) := by
    rcases s.dictWrite_cases index sub bs with ⟨x, _⟩ | ⟨x, _⟩ | ⟨_, _, y⟩
    · rw [w] at x; exact absurd x a
    · rw [w] at x; exact absurd x b
    · rw [y, w]
  unfold State.manage
  simp [h, g, State.startPending]

/-! ## Reset requests (R485, R486) -/

/-- Everything a reset request can do. -/
theorem State.requestReset_cases (s : State) (d : Domain) (cause : Nat) (capture : Bool) :
    let t := s.requestReset d cause capture
    (∃ k, t = s.strapsNow.coldInit k) ∨ (∃ n, t = s.count Key.resetRequestsMerged n) ∨ t = s.startReset d cause capture ∨
      (∃ u k bad runs seq, t = State.startCapture u d cause k bad runs seq) ∨ t = s.deferReset d cause := by
  intro t
  show _ ∨ _
  simp only [t]
  unfold State.requestReset
  dsimp only
  split
  · exact .inl ⟨_, rfl⟩
  · split
    · exact .inl ⟨_, rfl⟩
    · split
      · exact .inr (.inl ⟨_, rfl⟩)
      · split
        · exact .inr (.inr (.inl rfl))
        · split
          · exact .inr (.inl ⟨_, rfl⟩)
          · split
            · exact .inr (.inr (.inr (.inl ⟨_, _, _, _, _, rfl⟩)))
            · exact .inr (.inr (.inr (.inr rfl)))

/-- A request for a unit that is not fenced starts its reset where none is in progress. -/
theorem State.requestReset_starts {s : State} {d : Domain} (a : s.resets = []) (b : s.get Key.pkgState ≠ 0) (c : s.domFenced d = false)
    (h : d.1 < 6 ∨ d.1 = 6 ∧ s.startup.everReady = true) (cause : Nat) (capture : Bool) :
    s.requestReset d cause capture = s.startReset d cause capture := by
  unfold State.requestReset
  rw [if_neg (by omega), if_neg, if_neg (by simp [b, c])]
  · simp [a]
  · rintro ⟨x, y⟩
    rcases h with h | h
    · omega
    · rw [h.2] at y; simp at y

/-! ## CRCs (R339, R369) -/

/-- A bit of a CRC register keeps it below 2^32. -/
theorem crcBit_lt {poly r : Nat} (h : poly < 2 ^ 32) (g : r < 2 ^ 32) : crcBit poly r < 2 ^ 32 := by
  unfold crcBit
  split
  · exact Nat.xor_lt_two_pow (by omega) h
  · omega

/-- So does an octet. -/
theorem crcOctet_lt {poly r : Nat} {b : Byte} (h : poly < 2 ^ 32) (g : r < 2 ^ 32) : crcOctet poly r b < 2 ^ 32 := by
  unfold crcOctet
  have start : r ^^^ b.toNat < 2 ^ 32 := Nat.xor_lt_two_pow g (by have := b.isLt; omega)
  generalize r ^^^ b.toNat = x at start
  generalize List.range 8 = l
  induction l generalizing x with
  | nil => exact start
  | cons _ _ ih => exact ih _ (crcBit_lt h start)

/-- A CRC is a number of 32 bits. -/
theorem crc32_lt {poly : Nat} (h : poly < 2 ^ 32) (bs : List Byte) : crc32 poly bs < 2 ^ 32 := by
  unfold crc32
  refine Nat.xor_lt_two_pow ?_ (by decide)
  have go : ∀ (l : List Byte) (r : Nat), r < 2 ^ 32 → l.foldl (crcOctet poly) r < 2 ^ 32 := by
    intro l
    induction l with
    | nil => exact fun _ g => g
    | cons _ _ ih => exact fun _ g => ih _ (crcOctet_lt h g)
  exact go bs _ (by decide)

/-- A packet sent with its CRC formed passes the check of its CRC. -/
theorem packetCrc_sealed (p : Packet) : packetCrc (sealed p) = (sealed p).crc.toNat := by
  show packetCrc p = (BitVec.ofNat 32 (packetCrc p)).toNat
  rw [BitVec.toNat_ofNat]
  exact (Nat.mod_eq_of_lt (crc32_lt (poly := 0x82F63B78) (by decide) _)).symm

end Sys2Proof.Machine
end

