-- ==== Sys2Proof/Laws/PerInstr.lean ====
section
/-!
SUPPORT. One lemma per command for the families of LAWS.json.

CtuWf: every command that has a word of the control unit is well formed, whatever its operands: the encodings of R47–R49 and R52
leave no operand value out.
-/
namespace Sys2Proof.Laws.CtuWf

/-- A command that has a control-unit word is well formed. -/
def Statement (i : Instr) : Prop := ∀ w, encodeCtu i = some w → i.wf = true

theorem add : ∀ core rd ra rb, Statement (.add core rd ra rb) := by intros; intro _ h; rfl
theorem sub : ∀ core rd ra rb, Statement (.sub core rd ra rb) := by intros; intro _ h; rfl
theorem aluAnd : ∀ core rd ra rb, Statement (.aluAnd core rd ra rb) := by intros; intro _ h; rfl
theorem aluOr : ∀ core rd ra rb, Statement (.aluOr core rd ra rb) := by intros; intro _ h; rfl
theorem aluXor : ∀ core rd ra rb, Statement (.aluXor core rd ra rb) := by intros; intro _ h; rfl
theorem shl : ∀ core rd ra rb, Statement (.shl core rd ra rb) := by intros; intro _ h; rfl
theorem shr : ∀ core rd ra rb, Statement (.shr core rd ra rb) := by intros; intro _ h; rfl
theorem sra : ∀ core rd ra rb, Statement (.sra core rd ra rb) := by intros; intro _ h; rfl
theorem rotl : ∀ core rd ra rb, Statement (.rotl core rd ra rb) := by intros; intro _ h; rfl
theorem slt : ∀ core rd ra rb, Statement (.slt core rd ra rb) := by intros; intro _ h; rfl
theorem sltu : ∀ core rd ra rb, Statement (.sltu core rd ra rb) := by intros; intro _ h; rfl
theorem aluMin : ∀ core rd ra rb, Statement (.aluMin core rd ra rb) := by intros; intro _ h; rfl
theorem aluMax : ∀ core rd ra rb, Statement (.aluMax core rd ra rb) := by intros; intro _ h; rfl
theorem minu : ∀ core rd ra rb, Statement (.minu core rd ra rb) := by intros; intro _ h; rfl
theorem maxu : ∀ core rd ra rb, Statement (.maxu core rd ra rb) := by intros; intro _ h; rfl
theorem mul : ∀ core rd ra rb, Statement (.mul core rd ra rb) := by intros; intro _ h; rfl
theorem mulh : ∀ core rd ra rb, Statement (.mulh core rd ra rb) := by intros; intro _ h; rfl
theorem mulhu : ∀ core rd ra rb, Statement (.mulhu core rd ra rb) := by intros; intro _ h; rfl
theorem div : ∀ core rd ra rb, Statement (.div core rd ra rb) := by intros; intro _ h; rfl
theorem divu : ∀ core rd ra rb, Statement (.divu core rd ra rb) := by intros; intro _ h; rfl
theorem rem : ∀ core rd ra rb, Statement (.rem core rd ra rb) := by intros; intro _ h; rfl
theorem remu : ∀ core rd ra rb, Statement (.remu core rd ra rb) := by intros; intro _ h; rfl
theorem clz : ∀ core rd ra rb, Statement (.clz core rd ra rb) := by intros; intro _ h; rfl
theorem ctz : ∀ core rd ra rb, Statement (.ctz core rd ra rb) := by intros; intro _ h; rfl
theorem popc : ∀ core rd ra rb, Statement (.popc core rd ra rb) := by intros; intro _ h; rfl
theorem aluSel : ∀ core rd ra rb, Statement (.aluSel core rd ra rb) := by intros; intro _ h; rfl
theorem addi : ∀ core rd ra imm, Statement (.addi core rd ra imm) := by intros; intro _ h; rfl
theorem andi : ∀ core rd ra imm, Statement (.andi core rd ra imm) := by intros; intro _ h; rfl
theorem ori : ∀ core rd ra imm, Statement (.ori core rd ra imm) := by intros; intro _ h; rfl
theorem xori : ∀ core rd ra imm, Statement (.xori core rd ra imm) := by intros; intro _ h; rfl
theorem slti : ∀ core rd ra imm, Statement (.slti core rd ra imm) := by intros; intro _ h; rfl
theorem shiShl : ∀ core rd ra amount, Statement (.shiShl core rd ra amount) := by intros; intro _ h; rfl
theorem shiShr : ∀ core rd ra amount, Statement (.shiShr core rd ra amount) := by intros; intro _ h; rfl
theorem shiSra : ∀ core rd ra amount, Statement (.shiSra core rd ra amount) := by intros; intro _ h; rfl
theorem shiRotl : ∀ core rd ra amount, Statement (.shiRotl core rd ra amount) := by intros; intro _ h; rfl
theorem lui : ∀ core rd imm, Statement (.lui core rd imm) := by intros; intro _ h; rfl
theorem insq : ∀ core rd quarter imm, Statement (.insq core rd quarter imm) := by intros; intro _ h; rfl
theorem lb : ∀ core rd ra imm, Statement (.lb core rd ra imm) := by intros; intro _ h; rfl
theorem lbu : ∀ core rd ra imm, Statement (.lbu core rd ra imm) := by intros; intro _ h; rfl
theorem lh : ∀ core rd ra imm, Statement (.lh core rd ra imm) := by intros; intro _ h; rfl
theorem lhu : ∀ core rd ra imm, Statement (.lhu core rd ra imm) := by intros; intro _ h; rfl
theorem lw : ∀ core rd ra imm, Statement (.lw core rd ra imm) := by intros; intro _ h; rfl
theorem lwu : ∀ core rd ra imm, Statement (.lwu core rd ra imm) := by intros; intro _ h; rfl
theorem ld : ∀ core rd ra imm, Statement (.ld core rd ra imm) := by intros; intro _ h; rfl
theorem sb : ∀ core rd ra imm, Statement (.sb core rd ra imm) := by intros; intro _ h; rfl
theorem sh : ∀ core rd ra imm, Statement (.sh core rd ra imm) := by intros; intro _ h; rfl
theorem sw : ∀ core rd ra imm, Statement (.sw core rd ra imm) := by intros; intro _ h; rfl
theorem sd : ∀ core rd ra imm, Statement (.sd core rd ra imm) := by intros; intro _ h; rfl
theorem beq : ∀ core ra rb off, Statement (.beq core ra rb off) := by intros; intro _ h; rfl
theorem bne : ∀ core ra rb off, Statement (.bne core ra rb off) := by intros; intro _ h; rfl
theorem blt : ∀ core ra rb off, Statement (.blt core ra rb off) := by intros; intro _ h; rfl
theorem bge : ∀ core ra rb off, Statement (.bge core ra rb off) := by intros; intro _ h; rfl
theorem bltu : ∀ core ra rb off, Statement (.bltu core ra rb off) := by intros; intro _ h; rfl
theorem bgeu : ∀ core ra rb off, Statement (.bgeu core ra rb off) := by intros; intro _ h; rfl
theorem jal : ∀ core rd off, Statement (.jal core rd off) := by intros; intro _ h; rfl
theorem jalr : ∀ core rd ra imm, Statement (.jalr core rd ra imm) := by intros; intro _ h; rfl
theorem pushd : ∀ core engine ra, Statement (.pushd core engine ra) := by intros; intro _ h; rfl
theorem pushdn : ∀ core engine rd ra, Statement (.pushdn core engine rd ra) := by intros; intro _ h; rfl
theorem scwait : ∀ core ra rb, Statement (.scwait core ra rb) := by intros; intro _ h; rfl
theorem sctest : ∀ core rd ra rb, Statement (.sctest core rd ra rb) := by intros; intro _ h; rfl
theorem scread : ∀ core rd ra, Statement (.scread core rd ra) := by intros; intro _ h; rfl
theorem scset : ∀ core ra rb, Statement (.scset core ra rb) := by intros; intro _ h; rfl
theorem scadd : ∀ core ra rb, Statement (.scadd core ra rb) := by intros; intro _ h; rfl
theorem qcfg : ∀ core ra rb, Statement (.qcfg core ra rb) := by intros; intro _ h; rfl
theorem qwait : ∀ core rd ra, Statement (.qwait core rd ra) := by intros; intro _ h; rfl
theorem qpeek : ∀ core rd ra, Statement (.qpeek core rd ra) := by intros; intro _ h; rfl
theorem qrel : ∀ core ra rb, Statement (.qrel core ra rb) := by intros; intro _ h; rfl
theorem qstat : ∀ core rd ra, Statement (.qstat core rd ra) := by intros; intro _ h; rfl
theorem halt : ∀ core, Statement (.halt core) := by intros; intro _ h; rfl
theorem ctuYield : ∀ core, Statement (.ctuYield core) := by intros; intro _ h; rfl
theorem ifill : ∀ core rd ra rb, Statement (.ifill core rd ra rb) := by intros; intro _ h; rfl
theorem ifillComplete : ∀ core, Statement (.ifillComplete core) := by intros; intro _ h; cases h
theorem drd : ∀ core rd ra, Statement (.drd core rd ra) := by intros; intro _ h; rfl
theorem drdResult : ∀ core, Statement (.drdResult core) := by intros; intro _ h; cases h
theorem ftime : ∀ core rd, Statement (.ftime core rd) := by intros; intro _ h; rfl
theorem ctxid : ∀ core rd, Statement (.ctxid core rd) := by intros; intro _ h; rfl
theorem coreid : ∀ core rd, Statement (.coreid core rd) := by intros; intro _ h; rfl
theorem swappt : ∀ core rd ra, Statement (.swappt core rd ra) := by intros; intro _ h; rfl
theorem cycles : ∀ core rd, Statement (.cycles core rd) := by intros; intro _ h; rfl
theorem backfillSwitch : ∀ core, Statement (.backfillSwitch core) := by intros; intro _ h; cases h
theorem mxeNop : ∀ core, Statement (.mxeNop core) := by intros; intro _ h; cases h
theorem mma : ∀ core, Statement (.mma core) := by intros; intro _ h; cases h
theorem mxeCombine : ∀ core, Statement (.mxeCombine core) := by intros; intro _ h; cases h
theorem mxeDrain : ∀ core, Statement (.mxeDrain core) := by intros; intro _ h; cases h
theorem mxeClear : ∀ core, Statement (.mxeClear core) := by intros; intro _ h; cases h
theorem mxeDescComplete : ∀ core, Statement (.mxeDescComplete core) := by intros; intro _ h; cases h
theorem deferTake : ∀ core, Statement (.deferTake core) := by intros; intro _ h; cases h
theorem fgeNop : ∀ core, Statement (.fgeNop core) := by intros; intro _ h; cases h
theorem fgeStream : ∀ core, Statement (.fgeStream core) := by intros; intro _ h; cases h
theorem fgeCompress : ∀ core, Statement (.fgeCompress core) := by intros; intro _ h; cases h
theorem fgeExpand : ∀ core, Statement (.fgeExpand core) := by intros; intro _ h; cases h
theorem ctxLoad : ∀ core, Statement (.ctxLoad core) := by intros; intro _ h; cases h
theorem ctxStore : ∀ core, Statement (.ctxStore core) := by intros; intro _ h; cases h
theorem ctxRoll : ∀ core, Statement (.ctxRoll core) := by intros; intro _ h; cases h
theorem setStep : ∀ core, Statement (.setStep core) := by intros; intro _ h; cases h
theorem fgeDescComplete : ∀ core, Statement (.fgeDescComplete core) := by intros; intro _ h; cases h
theorem mseNop : ∀ core, Statement (.mseNop core) := by intros; intro _ h; cases h
theorem msePut : ∀ core, Statement (.msePut core) := by intros; intro _ h; cases h
theorem mseGet : ∀ core, Statement (.mseGet core) := by intros; intro _ h; cases h
theorem mseSend : ∀ core, Statement (.mseSend core) := by intros; intro _ h; cases h
theorem mseCopy : ∀ core, Statement (.mseCopy core) := by intros; intro _ h; cases h
theorem mseSignal : ∀ core, Statement (.mseSignal core) := by intros; intro _ h; cases h
theorem mseFence : ∀ core, Statement (.mseFence core) := by intros; intro _ h; cases h
theorem mseDescComplete : ∀ core no, Statement (.mseDescComplete core no) := by intros; intro _ h; cases h
theorem bushelOpen : ∀ core, Statement (.bushelOpen core) := by intros; intro _ h; cases h
theorem bushelPush : ∀ core, Statement (.bushelPush core) := by intros; intro _ h; cases h
theorem bushelDrain : ∀ core, Statement (.bushelDrain core) := by intros; intro _ h; cases h
theorem bushelFrameRead : ∀ core no, Statement (.bushelFrameRead core no) := by intros; intro _ h; cases h
theorem bushelQuery : ∀ core, Statement (.bushelQuery core) := by intros; intro _ h; cases h
theorem mseGather : ∀ core, Statement (.mseGather core) := by intros; intro _ h; cases h
theorem bucketAdd : ∀ core, Statement (.bucketAdd core) := by intros; intro _ h; cases h
theorem bucketStep : ∀ core, Statement (.bucketStep core) := by intros; intro _ h; cases h
theorem bucketStepRelease : ∀ core no, Statement (.bucketStepRelease core no) := by intros; intro _ h; cases h
theorem bucketExchange : ∀ core, Statement (.bucketExchange core) := by intros; intro _ h; cases h
theorem bucketWindowAdmit : ∀ core no, Statement (.bucketWindowAdmit core no) := by intros; intro _ h; cases h
theorem bucketAgree : ∀ core, Statement (.bucketAgree core) := by intros; intro _ h; cases h
theorem groupForm : ∀ core, Statement (.groupForm core) := by intros; intro _ h; cases h
theorem collAllReduce : ∀ core, Statement (.collAllReduce core) := by intros; intro _ h; cases h
theorem collReduceScatter : ∀ core, Statement (.collReduceScatter core) := by intros; intro _ h; cases h
theorem collAllGather : ∀ core, Statement (.collAllGather core) := by intros; intro _ h; cases h
theorem collBroadcast : ∀ core, Statement (.collBroadcast core) := by intros; intro _ h; cases h
theorem collBarrier : ∀ core, Statement (.collBarrier core) := by intros; intro _ h; cases h
theorem collectiveLaunch : ∀ context, Statement (.collectiveLaunch context) := by intros; intro _ h; cases h
theorem expertDispatch : ∀ core, Statement (.expertDispatch core) := by intros; intro _ h; cases h
theorem expertReturn : ∀ core, Statement (.expertReturn core) := by intros; intro _ h; cases h
theorem expertCombine : ∀ core, Statement (.expertCombine core) := by intros; intro _ h; cases h
theorem putArrival : ∀ via packet, Statement (.putArrival via packet) := by intros; intro _ h; cases h
theorem getArrival : ∀ via packet, Statement (.getArrival via packet) := by intros; intro _ h; cases h
theorem sendArrival : ∀ via packet, Statement (.sendArrival via packet) := by intros; intro _ h; cases h
theorem copyArrival : ∀ via packet, Statement (.copyArrival via packet) := by intros; intro _ h; cases h
theorem signalArrival : ∀ via packet, Statement (.signalArrival via packet) := by intros; intro _ h; cases h
theorem gatherArrival : ∀ via packet, Statement (.gatherArrival via packet) := by intros; intro _ h; cases h
theorem readDataArrival : ∀ via packet, Statement (.readDataArrival via packet) := by intros; intro _ h; cases h
theorem completionArrival : ∀ via packet, Statement (.completionArrival via packet) := by intros; intro _ h; cases h
theorem busyArrival : ∀ via packet, Statement (.busyArrival via packet) := by intros; intro _ h; cases h
theorem retryArrival : ∀ via packet, Statement (.retryArrival via packet) := by intros; intro _ h; cases h
theorem creditGrantArrival : ∀ core channel node ep credits payload, Statement (.creditGrantArrival core channel node ep credits payload) := by intros; intro _ h; cases h
theorem creditReturnArrival : ∀ core channel node ep credits, Statement (.creditReturnArrival core channel node ep credits) := by intros; intro _ h; cases h
theorem packetForward : ∀ via packet, Statement (.packetForward via packet) := by intros; intro _ h; cases h
theorem reorderBackoffExpiry : ∀ msgId, Statement (.reorderBackoffExpiry msgId) := by intros; intro _ h; cases h
theorem reorderContextExpiry : ∀ node msgId, Statement (.reorderContextExpiry node msgId) := by intros; intro _ h; cases h
theorem dupRecordExpiry : ∀ node msgId, Statement (.dupRecordExpiry node msgId) := by intros; intro _ h; cases h
theorem msgTimeoutResend : ∀ msgId, Statement (.msgTimeoutResend msgId) := by intros; intro _ h; cases h
theorem msgTimeoutFinal : ∀ msgId, Statement (.msgTimeoutFinal msgId) := by intros; intro _ h; cases h
theorem detourStallExpiry : ∀ index, Statement (.detourStallExpiry index) := by intros; intro _ h; cases h
theorem meshLinkOut : ∀ setting neighbour, Statement (.meshLinkOut setting neighbour) := by intros; intro _ h; cases h
theorem openerArrival : ∀ via packet, Statement (.openerArrival via packet) := by intros; intro _ h; cases h
theorem collectiveDataArrival : ∀ via packet, Statement (.collectiveDataArrival via packet) := by intros; intro _ h; cases h
theorem abortArrival : ∀ via packet, Statement (.abortArrival via packet) := by intros; intro _ h; cases h
theorem collParkExpiry : ∀ node context key, Statement (.collParkExpiry node context key) := by intros; intro _ h; cases h
theorem collProgressTimeout : ∀ context, Statement (.collProgressTimeout context) := by intros; intro _ h; cases h
theorem troyUpdate : ∀ packet, Statement (.troyUpdate packet) := by intros; intro _ h; cases h
theorem troyCommit : ∀ packet, Statement (.troyCommit packet) := by intros; intro _ h; cases h
theorem ledgerSet : ∀ packet, Statement (.ledgerSet packet) := by intros; intro _ h; cases h
theorem troyProgramPut : ∀ packet, Statement (.troyProgramPut packet) := by intros; intro _ h; cases h
theorem troyConstPut : ∀ packet, Statement (.troyConstPut packet) := by intros; intro _ h; cases h
theorem troyCommandStart : ∀ setting, Statement (.troyCommandStart setting) := by intros; intro _ h; cases h
theorem troyCommandComplete : ∀ setting, Statement (.troyCommandComplete setting) := by intros; intro _ h; cases h
theorem commitBarrierRelease : Statement .commitBarrierRelease := by intro _ h; cases h
theorem wcbTimeoutExpiry : ∀ setting line, Statement (.wcbTimeoutExpiry setting line) := by intros; intro _ h; cases h
theorem scrubRead : ∀ setting line, Statement (.scrubRead setting line) := by intros; intro _ h; cases h
theorem xflDataFrame : ∀ link frame, Statement (.xflDataFrame link frame) := by intros; intro _ h; cases h
theorem xflIdleFrame : ∀ link frame, Statement (.xflIdleFrame link frame) := by intros; intro _ h; cases h
theorem neighbourFrame : ∀ link frame record, Statement (.neighbourFrame link frame record) := by intros; intro _ h; cases h
theorem stateFrame : ∀ link frame state port, Statement (.stateFrame link frame state port) := by intros; intro _ h; cases h
theorem timeFrame : ∀ link frame time, Statement (.timeFrame link frame time) := by intros; intro _ h; cases h
theorem xflAckTimeout : ∀ link, Statement (.xflAckTimeout link) := by intros; intro _ h; cases h
theorem linkDown : ∀ link, Statement (.linkDown link) := by intros; intro _ h; cases h
theorem linkRetrainHoldoffExpiry : ∀ link, Statement (.linkRetrainHoldoffExpiry link) := by intros; intro _ h; cases h
theorem phyTrainDone : ∀ link, Statement (.phyTrainDone link) := by intros; intro _ h; cases h
theorem xflSyncDone : ∀ link skew, Statement (.xflSyncDone link skew) := by intros; intro _ h; cases h
theorem linkTrainTimeLimit : ∀ link, Statement (.linkTrainTimeLimit link) := by intros; intro _ h; cases h
theorem stateFrameTimer : ∀ link, Statement (.stateFrameTimer link) := by intros; intro _ h; cases h
theorem neighbourFrameTimer : ∀ link, Statement (.neighbourFrameTimer link) := by intros; intro _ h; cases h
theorem timeSyncTimer : Statement .timeSyncTimer := by intro _ h; cases h
theorem fecSecond : ∀ link worst corrected uncorrectable, Statement (.fecSecond link worst corrected uncorrectable) := by intros; intro _ h; cases h
theorem tableSeal : Statement .tableSeal := by intro _ h; cases h
theorem tableFlip : Statement .tableFlip := by intro _ h; cases h
theorem tableRetire : Statement .tableRetire := by intro _ h; cases h
theorem tableUnseal : Statement .tableUnseal := by intro _ h; cases h
theorem chpHello : ∀ head payload, Statement (.chpHello head payload) := by intros; intro _ h; cases h
theorem chpFinish : ∀ head payload, Statement (.chpFinish head payload) := by intros; intro _ h; cases h
theorem chpFinishTimeout : ∀ session, Statement (.chpFinishTimeout session) := by intros; intro _ h; cases h
theorem chpClose : ∀ head, Statement (.chpClose head) := by intros; intro _ h; cases h
theorem ackOnly : ∀ head, Statement (.ackOnly head) := by intros; intro _ h; cases h
theorem chpData : ∀ head payload, Statement (.chpData head payload) := by intros; intro _ h; cases h
theorem chpWrite : ∀ head record, Statement (.chpWrite head record) := by intros; intro _ h; cases h
theorem chpRead : ∀ head record, Statement (.chpRead head record) := by intros; intro _ h; cases h
theorem dictRead : ∀ head record, Statement (.dictRead head record) := by intros; intro _ h; cases h
theorem dictWrite : ∀ head record, Statement (.dictWrite head record) := by intros; intro _ h; cases h
theorem loadPrimary : ∀ head record, Statement (.loadPrimary head record) := by intros; intro _ h; cases h
theorem loadCompanion : ∀ head record, Statement (.loadCompanion head record) := by intros; intro _ h; cases h
theorem cmdqBind : ∀ head record, Statement (.cmdqBind head record) := by intros; intro _ h; cases h
theorem cmdqUnbind : ∀ head record, Statement (.cmdqUnbind head record) := by intros; intro _ h; cases h
theorem cmdPush : ∀ head record payload, Statement (.cmdPush head record payload) := by intros; intro _ h; cases h
theorem ringConfigEnable : ∀ head record, Statement (.ringConfigEnable head record) := by intros; intro _ h; cases h
theorem ringConfigDisable : ∀ head record, Statement (.ringConfigDisable head record) := by intros; intro _ h; cases h
theorem ringPut : ∀ head record, Statement (.ringPut head record) := by intros; intro _ h; cases h
theorem chpResetWarm : ∀ head record, Statement (.chpResetWarm head record) := by intros; intro _ h; cases h
theorem chpResetCold : ∀ head record, Statement (.chpResetCold head record) := by intros; intro _ h; cases h
theorem recordStop : ∀ head record, Statement (.recordStop head record) := by intros; intro _ h; cases h
theorem recordStartWrapping : ∀ head record, Statement (.recordStartWrapping head record) := by intros; intro _ h; cases h
theorem recordStartStopFull : ∀ head record, Statement (.recordStartStopFull head record) := by intros; intro _ h; cases h
theorem recordClear : ∀ head record, Statement (.recordClear head record) := by intros; intro _ h; cases h
theorem chpReplay : ∀ head record, Statement (.chpReplay head record) := by intros; intro _ h; cases h
theorem replayStop : ∀ head record, Statement (.replayStop head record) := by intros; intro _ h; cases h
theorem replayRecord : Statement .replayRecord := by intro _ h; cases h
theorem chpAckDelayExpiry : ∀ session, Statement (.chpAckDelayExpiry session) := by intros; intro _ h; cases h
theorem chpRtoExpiry : ∀ session, Statement (.chpRtoExpiry session) := by intros; intro _ h; cases h
theorem chpRetxLimit : ∀ session, Statement (.chpRetxLimit session) := by intros; intro _ h; cases h
theorem chpIdleTimeout : ∀ session, Statement (.chpIdleTimeout session) := by intros; intro _ h; cases h
theorem chpRateRaise : ∀ session, Statement (.chpRateRaise session) := by intros; intro _ h; cases h
theorem arpRequest : ∀ target sender asker, Statement (.arpRequest target sender asker) := by intros; intro _ h; cases h
theorem neighbourSolicitation : ∀ target sender asker, Statement (.neighbourSolicitation target sender asker) := by intros; intro _ h; cases h
theorem icmpEcho : ∀ v6 target sender frame, Statement (.icmpEcho v6 target sender frame) := by intros; intro _ h; cases h
theorem ptpMessage : ∀ domain frame, Statement (.ptpMessage domain frame) := by intros; intro _ h; cases h
theorem ptpHoldover : Statement .ptpHoldover := by intro _ h; cases h
theorem plcaBeacon : ∀ claimCollision assignedHeard, Statement (.plcaBeacon claimCollision assignedHeard) := by intros; intro _ h; cases h
theorem chainTxHoldTimeout : Statement .chainTxHoldTimeout := by intro _ h; cases h
theorem claimBackoffExpiry : ∀ collision, Statement (.claimBackoffExpiry collision) := by intros; intro _ h; cases h
theorem claimTimeout : Statement .claimTimeout := by intro _ h; cases h
theorem chainAssign : ∀ head id, Statement (.chainAssign head id) := by intros; intro _ h; cases h
theorem assignWatchEnd : Statement .assignWatchEnd := by intro _ h; cases h
theorem strappedIdConflict : Statement .strappedIdConflict := by intro _ h; cases h
theorem ahmRead : ∀ head items, Statement (.ahmRead head items) := by intros; intro _ h; cases h
theorem ahmWrite : ∀ head items, Statement (.ahmWrite head items) := by intros; intro _ h; cases h
theorem enumerate : ∀ head items, Statement (.enumerate head items) := by intros; intro _ h; cases h
theorem entryWrite : ∀ index sub value, Statement (.entryWrite index sub value) := by intros; intro _ h; cases h
theorem dictStagingTimeout : ∀ index sub, Statement (.dictStagingTimeout index sub) := by intros; intro _ h; cases h
theorem dictFlashStore : ∀ index sub, Statement (.dictFlashStore index sub) := by intros; intro _ h; cases h
theorem jobStart : Statement .jobStart := by intro _ h; cases h
theorem jobStop : Statement .jobStop := by intro _ h; cases h
theorem dictFlashRestore : ∀ value, Statement (.dictFlashRestore value) := by intros; intro _ h; cases h
theorem portEnable : ∀ port value, Statement (.portEnable port value) := by intros; intro _ h; cases h
theorem portLinkMask : ∀ port value, Statement (.portLinkMask port value) := by intros; intro _ h; cases h
theorem portAxis : ∀ port value, Statement (.portAxis port value) := by intros; intro _ h; cases h
theorem portExpectSerial : ∀ port value, Statement (.portExpectSerial port value) := by intros; intro _ h; cases h
theorem portExpectPort : ∀ port value, Statement (.portExpectPort port value) := by intros; intro _ h; cases h
theorem topoMode : ∀ value, Statement (.topoMode value) := by intros; intro _ h; cases h
theorem macsecSak : ∀ value, Statement (.macsecSak value) := by intros; intro _ h; cases h
theorem failedMask : ∀ cluster value, Statement (.failedMask cluster value) := by intros; intro _ h; cases h
theorem locketWindowData : Statement .locketWindowData := by intro _ h; cases h
theorem hallmarkInstall : ∀ value, Statement (.hallmarkInstall value) := by intros; intro _ h; cases h
theorem hallmarkInstallDone : Statement .hallmarkInstallDone := by intro _ h; cases h
theorem hallmarkRemove : ∀ value, Statement (.hallmarkRemove value) := by intros; intro _ h; cases h
theorem hallmarkPieceTimeout : ∀ cluster, Statement (.hallmarkPieceTimeout cluster) := by intros; intro _ h; cases h
theorem signetNonce : ∀ value, Statement (.signetNonce value) := by intros; intro _ h; cases h
theorem rollbackCommit : ∀ value, Statement (.rollbackCommit value) := by intros; intro _ h; cases h
theorem fwUpdate : ∀ value, Statement (.fwUpdate value) := by intros; intro _ h; cases h
theorem fwUpdateDone : ∀ result, Statement (.fwUpdateDone result) := by intros; intro _ h; cases h
theorem fwStageData : ∀ value, Statement (.fwStageData value) := by intros; intro _ h; cases h
theorem debugAuth : ∀ part value, Statement (.debugAuth part value) := by intros; intro _ h; cases h
theorem debugLock : ∀ value, Statement (.debugLock value) := by intros; intro _ h; cases h
theorem engineWdtExpiry : ∀ core engine, Statement (.engineWdtExpiry core engine) := by intros; intro _ h; cases h
theorem coreWdtExpiry : ∀ core, Statement (.coreWdtExpiry core) := by intros; intro _ h; cases h
theorem heartbeatCheck : ∀ missed, Statement (.heartbeatCheck missed) := by intros; intro _ h; cases h
theorem engineReset : ∀ core engine capture, Statement (.engineReset core engine capture) := by intros; intro _ h; cases h
theorem coreReset : ∀ core capture, Statement (.coreReset core capture) := by intros; intro _ h; cases h
theorem clusterReset : ∀ cluster capture, Statement (.clusterReset cluster capture) := by intros; intro _ h; cases h
theorem computeDieReset : ∀ die capture, Statement (.computeDieReset die capture) := by intros; intro _ h; cases h
theorem settingReset : ∀ setting capture, Statement (.settingReset setting capture) := by intros; intro _ h; cases h
theorem rimDieReset : ∀ rim, Statement (.rimDieReset rim) := by intros; intro _ h; cases h
theorem packageWarmReset : ∀ capture, Statement (.packageWarmReset capture) := by intros; intro _ h; cases h
theorem coldInitialisation : Statement .coldInitialisation := by intro _ h; cases h
theorem locketCaptureEnd : ∀ index, Statement (.locketCaptureEnd index) := by intros; intro _ h; cases h
theorem locketAccessTimeout : ∀ index core line, Statement (.locketAccessTimeout index core line) := by intros; intro _ h; cases h
theorem resetComplete : ∀ index, Statement (.resetComplete index) := by intros; intro _ h; cases h
theorem escalation : ∀ index, Statement (.escalation index) := by intros; intro _ h; cases h
theorem prstNAssert : Statement .prstNAssert := by intro _ h; cases h
theorem packageStart : ∀ railsOff lowFor chainStrap bootStrap, Statement (.packageStart railsOff lowFor chainStrap bootStrap) := by intros; intro _ h; cases h
theorem pwrokFall : Statement .pwrokFall := by intro _ h; cases h
theorem pkgReady : Statement .pkgReady := by intro _ h; cases h
theorem startupTimeout : Statement .startupTimeout := by intro _ h; cases h
theorem vinWarning : ∀ setting, Statement (.vinWarning setting) := by intros; intro _ h; cases h
theorem vinRecovery : ∀ setting, Statement (.vinRecovery setting) := by intros; intro _ h; cases h
theorem vinPowerfail : ∀ setting chargeHeld, Statement (.vinPowerfail setting chargeHeld) := by intros; intro _ h; cases h
theorem setpointUpdate : ∀ cluster mv, Statement (.setpointUpdate cluster mv) := by intros; intro _ h; cases h
theorem pmbusPoll : ∀ rail reading, Statement (.pmbusPoll rail reading) := by intros; intro _ h; cases h
theorem pmbusAlert : ∀ bus readings, Statement (.pmbusAlert bus readings) := by intros; intro _ h; cases h
theorem avsRead : ∀ setting mv ma, Statement (.avsRead setting mv ma) := by intros; intro _ h; cases h
theorem powerWindowEnd : Statement .powerWindowEnd := by intro _ h; cases h
theorem sensorSample : ∀ readings, Statement (.sensorSample readings) := by intros; intro _ h; cases h
theorem thermalStepDown : ∀ unit, Statement (.thermalStepDown unit) := by intros; intro _ h; cases h
theorem thermalStepUp : ∀ unit, Statement (.thermalStepUp unit) := by intros; intro _ h; cases h
theorem prochotInAssert : Statement .prochotInAssert := by intro _ h; cases h
theorem prochotInRelease : Statement .prochotInRelease := by intro _ h; cases h
theorem refclkLoss : Statement .refclkLoss := by intro _ h; cases h
theorem refclkReturn : Statement .refclkReturn := by intro _ h; cases h
theorem refclk156Loss : ∀ rim, Statement (.refclk156Loss rim) := by intros; intro _ h; cases h
theorem xflCrcError : ∀ link frame, Statement (.xflCrcError link frame) := by intros; intro _ h; cases h
theorem firmwareVerificationEnd : ∀ attempt, Statement (.firmwareVerificationEnd attempt) := by intros; intro _ h; cases h
theorem refclk100LockTimeout : Statement .refclk100LockTimeout := by intro _ h; cases h
theorem quickCheckEnd : ∀ outcome, Statement (.quickCheckEnd outcome) := by intros; intro _ h; cases h
theorem hbmTrainingEnd : ∀ setting identityOk failed, Statement (.hbmTrainingEnd setting identityOk failed) := by intros; intro _ h; cases h
theorem swapptComplete : ∀ core, Statement (.swapptComplete core) := by intros; intro _ h; cases h

end Sys2Proof.Laws.CtuWf
end

