-- ==== Sys2Proof/Tests/Slice0.lean ====
section
/-!
SUPPORT. The model's own tests: terms that are not well formed and are refused, instruction words of the control unit written out from
the manual's encoding, single commands with results worked out from the manual, and, for each statement with hypotheses, a
state and operands that meet each of its clauses.
-/
set_option Elab.async false
namespace Sys2Proof.Tests
open Sys2Proof.Machine

/-! ## Well-formedness: one term for each check, which refuses it -/

/-- A packet with no payload that names nothing. -/
def blank : Packet :=
  { destNode := 0, destEp := 0, srcEp := 0, srcNode := 0, msgId := 0, op := 0, offset := 0, length := 0, cls := 0, epoch := false, channel := 0,
    last := true, fence := false, ackReq := false, mcast := false, jobTag := 0, operand := 0, dateline := 0, detour := 0, detourAxis := 0,
    detourDir := false, detourSkip := 0, abort := false, skipDir := false, hopsLeft := 0, payload := [], crc := 0, fields := 0 }

/-- A packet whose LENGTH says one octet more than it carries. -/
def shortPacket : Packet := { blank with length := 1 }

/-- A packet of 1,025 octets. -/
def longPacket : Packet := { blank with length := 1025, payload := List.replicate 1025 0 }

/-- A frame with nothing in it. -/
def blankFrame : Frame :=
  { seq := 0, ack := 0, ftype := 0, nak := false, vc := 0, bodyLen := 0, creditVc := 0, credits := 0, body := [], crc := 0 }

/-- A frame that says its body is longer than 240 octets. -/
def longFrame : Frame := { blankFrame with bodyLen := 241 }

/-- A frame with a body of 241 octets. -/
def wideFrame : Frame := { blankFrame with body := List.replicate 241 0 }

/-- A CHP header of session 0. -/
def blankHead : ChpHead :=
  { peer := 0, dest := 0x0A000001, version := 1, session := 0, ackValid := false, ecnEcho := false, retx := false, seq := 0, ack := 0, sack := 0, tag := 0, ce := false }

/-- An AHM header. -/
def blankAhm : AhmHead := { src := 0, magic := 0, version := 0, seq := 0, items := 0, serial := 0 }

/-- A rail in order. -/
def goodReading : RailReading := { mv := 750, ma := 1000, temp := 2500, fault := false }

/-- A payload longer than any CHP packet. -/
abbrev longPayload : List Byte := List.replicate 65536 0

theorem test_wf_packet : shortPacket.wf = false ∧ longPacket.wf = false ∧ blank.wf = true := by decide +kernel

theorem test_wf_frame : longFrame.wf = false ∧ wideFrame.wf = false ∧ blankFrame.wf = true := by decide +kernel

theorem test_wf_arrivals :
    (Instr.putArrival none shortPacket).wf = false ∧
    (Instr.getArrival none shortPacket).wf = false ∧
    (Instr.sendArrival none shortPacket).wf = false ∧
    (Instr.copyArrival none shortPacket).wf = false ∧
    (Instr.signalArrival none shortPacket).wf = false ∧
    (Instr.gatherArrival none shortPacket).wf = false ∧
    (Instr.readDataArrival none shortPacket).wf = false ∧
    (Instr.completionArrival none shortPacket).wf = false ∧
    (Instr.busyArrival none shortPacket).wf = false ∧
    (Instr.retryArrival none shortPacket).wf = false ∧
    (Instr.packetForward none shortPacket).wf = false ∧
    (Instr.openerArrival none shortPacket).wf = false ∧
    (Instr.collectiveDataArrival none shortPacket).wf = false ∧
    (Instr.abortArrival none shortPacket).wf = false := by
  refine ⟨?_, ?_, ?_, ?_, ?_, ?_, ?_, ?_, ?_, ?_, ?_, ?_, ?_, ?_⟩ <;> decide +kernel

theorem test_wf_troy_packets :
    (Instr.troyUpdate shortPacket).wf = false ∧
    (Instr.troyCommit shortPacket).wf = false ∧
    (Instr.ledgerSet shortPacket).wf = false ∧
    (Instr.troyProgramPut shortPacket).wf = false ∧
    (Instr.troyConstPut shortPacket).wf = false := by
  refine ⟨?_, ?_, ?_, ?_, ?_⟩ <;> decide +kernel

theorem test_wf_contexts :
    (Instr.collectiveLaunch 1024).wf = false ∧
    (Instr.collParkExpiry 0 1024 0).wf = false ∧
    (Instr.collProgressTimeout 1024).wf = false := by
  refine ⟨?_, ?_, ?_⟩ <;> decide +kernel

theorem test_wf_credits :
    (Instr.creditGrantArrival 0 0 0 0 (2 ^ 32) 0).wf = false ∧
    (Instr.creditGrantArrival 0 0 0 0 0 (2 ^ 32)).wf = false ∧
    (Instr.creditReturnArrival 0 0 0 0 (2 ^ 32)).wf = false := by
  refine ⟨?_, ?_, ?_⟩ <;> decide +kernel

theorem test_wf_mesh_neighbour : (Instr.meshLinkOut 0 24).wf = false := by decide +kernel

theorem test_wf_lines :
    (Instr.wcbTimeoutExpiry 0 (2 ^ 29)).wf = false ∧
    (Instr.scrubRead 0 (2 ^ 29)).wf = false ∧
    (Instr.locketAccessTimeout 0 0 1216).wf = false := by
  refine ⟨?_, ?_, ?_⟩ <;> decide +kernel

theorem test_wf_frames :
    (Instr.xflDataFrame 0 longFrame).wf = false ∧
    (Instr.xflIdleFrame 0 longFrame).wf = false ∧
    (Instr.neighbourFrame 0 longFrame ⟨0, 0, 0, false, 0, 0, 0, 0, 0, 0, 0, false⟩).wf = false ∧
    (Instr.stateFrame 0 longFrame 0 0).wf = false ∧
    (Instr.timeFrame 0 longFrame ⟨0, false, 0, 0, 0, 0⟩).wf = false ∧
    (Instr.xflCrcError 0 longFrame).wf = false := by
  refine ⟨?_, ?_, ?_, ?_, ?_, ?_⟩ <;> decide +kernel

theorem test_wf_sessions :
    (Instr.chpFinishTimeout 64).wf = false ∧
    (Instr.chpAckDelayExpiry 64).wf = false ∧
    (Instr.chpRtoExpiry 64).wf = false ∧
    (Instr.chpRetxLimit 64).wf = false ∧
    (Instr.chpIdleTimeout 64).wf = false ∧
    (Instr.chpRateRaise 64).wf = false := by
  refine ⟨?_, ?_, ?_, ?_, ?_, ?_⟩ <;> decide +kernel

theorem test_wf_ahm_items :
    (Instr.ahmRead blankAhm (List.replicate 1025 0)).wf = false ∧
    (Instr.ahmWrite blankAhm (List.replicate 1025 0)).wf = false ∧
    (Instr.enumerate blankAhm (List.replicate 1025 0)).wf = false := by
  refine ⟨?_, ?_, ?_⟩ <;> decide +kernel

theorem test_wf_units :
    (Instr.heartbeatCheck [99, 100]).wf = false ∧
    (Instr.pmbusAlert 0 [(50, some goodReading)]).wf = false ∧
    (Instr.sensorSample [(343, 0), (344, 0)]).wf = false ∧
    (Instr.thermalStepDown 312).wf = false ∧
    (Instr.thermalStepUp 312).wf = false ∧
    (Instr.firmwareVerificationEnd { seen := [none, none, none] }).wf = false := by
  refine ⟨?_, ?_, ?_, ?_, ?_, ?_⟩ <;> decide +kernel

theorem test_wf_payloads :
    (Instr.chpHello blankHead longPayload).wf = false ∧
    (Instr.chpFinish blankHead longPayload).wf = false ∧
    (Instr.chpData blankHead longPayload).wf = false ∧
    (Instr.cmdPush blankHead 0 longPayload).wf = false ∧
    (Instr.icmpEcho false 0 0 { payload := longPayload }).wf = false := by
  have h : decide (longPayload.length < 65536) = false := by rw [List.length_replicate]; decide
  exact ⟨h, h, h, h, h⟩

/-! ## Instruction words of the control unit, written out bit by bit (R47–R49, R52): OP, then the fields of the format -/

/-- ADD g1, g2, g3: OP 0x00, RD 1, RA 2, RB 3, FN 0x00 (R47, R49). -/
theorem test_word_add : decodeCtu 7 0b00000000001000100001100000000000 = some (.add 7 1 2 3) := by decide +kernel

/-- SEL g31, g0, g16: FN 0x1C (R49). -/
theorem test_word_sel : decodeCtu 7 0b00000011111000001000000000011100 = some (.aluSel 7 31 0 16) := by decide +kernel

/-- FN 0x0F of the ALU is reserved (R49, R55). -/
theorem test_word_alu_reserved : decodeCtu 7 0b00000000001000100001100000001111 = none := by decide +kernel

/-- ADDI g4, g5, −1: OP 0x01 (R48). -/
theorem test_word_addi : decodeCtu 7 0b00000100100001011111111111111111 = some (.addi 7 4 5 0xFFFF) := by decide +kernel

/-- SHI g4, g5 with IMM16[7:6] = 2 and amount 63 (R48). -/
theorem test_word_shi_sra : decodeCtu 7 0b00011000100001010000000010111111 = some (.shiSra 7 4 5 63) := by decide +kernel

/-- LUI g6, 0x8001 (R48). -/
theorem test_word_lui : decodeCtu 7 0b00011100110000001000000000000001 = some (.lui 7 6 0x8001) := by decide +kernel

/-- INSQ g8, quarter 3, 0x1234: the quarter in RA[1:0] (R48). -/
theorem test_word_insq : decodeCtu 7 0b00100001000000110001001000110100 = some (.insq 7 8 3 0x1234) := by decide +kernel

/-- LHU g9, 2(g10) (R48). -/
theorem test_word_lhu : decodeCtu 7 0b01001101001010100000000000000010 = some (.lhu 7 9 10 2) := by decide +kernel

/-- SD g11, 8(g12): the register stored is in the RD field (R48). -/
theorem test_word_sd : decodeCtu 7 0b01101101011011000000000000001000 = some (.sd 7 11 12 8) := by decide +kernel

/-- BGE g13, g14, −32768: format B has RA in bits 25:21 and RB in bits 20:16 (R47). -/
theorem test_word_bge : decodeCtu 7 0b10001101101011101000000000000000 = some (.bge 7 13 14 0x8000) := by decide +kernel

/-- JAL g1, with OFF21 in bits 20:0 (R47, R48). -/
theorem test_word_jal : decodeCtu 7 0b10011000001100000000000000000011 = some (.jal 7 1 0x100003) := by decide +kernel

/-- JALR g0, g1, 0 (R48). -/
theorem test_word_jalr : decodeCtu 7 0b10011100000000010000000000000000 = some (.jalr 7 0 1 0) := by decide +kernel

/-- PUSHD to engine 1 from g2: FN[1:0] names the engine (R52). -/
theorem test_word_pushd : decodeCtu 7 0b11000000000000100000000000000001 = some (.pushd 7 1 2) := by decide +kernel

/-- PUSHDN to engine 2 from g2 into g3: FN[2] set (R52). -/
theorem test_word_pushdn : decodeCtu 7 0b11000000011000100000000000000110 = some (.pushdn 7 2 3 2) := by decide +kernel

/-- SCADD (R52). -/
theorem test_word_scadd : decodeCtu 7 0b11000100000001000010100000000100 = some (.scadd 7 4 5) := by decide +kernel

/-- QREL (R52). -/
theorem test_word_qrel : decodeCtu 7 0b11001000000001000010100000000011 = some (.qrel 7 4 5) := by decide +kernel

/-- CYCLES into g6 (R52). -/
theorem test_word_cycles : decodeCtu 7 0b11001100110000000000000000001000 = some (.cycles 7 6) := by decide +kernel

/-- FN 0x9 of SYSTEM is reserved (R52, R55). -/
theorem test_word_system_reserved : decodeCtu 7 0b11001100110000000000000000001001 = none := by decide +kernel

/-- OP 0x3F is reserved (R47, R55). -/
theorem test_word_op_reserved : decodeCtu 7 0b11111100000000000000000000000000 = none := by decide +kernel
/-! ## The states of the tests -/

/-- The package after reset with fuses of its own, the grade's profile written out, READY, and nothing else set, so that nothing below rests
on a value the manual leaves open. -/
def ready : State :=
  { State.reset with
    dict := put Key.pkgState.key 1 (put Key.logicalCoresPerCluster.key 16 (put Key.hostIpv4.key 0x0A000001 []))
    fuses := { digests := [], revoked := 0, svn := 0, seed := [], serial := 5, gradeB := false } }

/-- A primary context at instruction 8, ready, with its registers g1, g2 and g3 as named. -/
def ctx3 (a b c : Word) : Ctx :=
  { regs := ((Vector.replicate 32 0).set 1 a).set 2 b |>.set 3 c, pc := 8, st := .ready, stall := none }

/-- A core whose primary context is running with g1, g2 and g3 as named. -/
def core3 (a b c : Word) : Core := { Core.fresh with primary := ctx3 a b c }

/-- The package with core 0, which is physical core 0, as named. -/
def at0 (k : Core) : State := { ready with cores := [(0, k)] }

/-- The package with core 0 running and g1, g2 and g3 as named. -/
def run3 (a b c : Word) : State := at0 (core3 a b c)

/-- The package with core 0 running its companion context, g1 as named. -/
def runComp (a : Word) : State := at0 { Core.fresh with companion := ctx3 a 0 0, onComp := true }

/-- The package with core 0 held at an instruction by `w`. -/
def stalled (w : Stall) : State := at0 { core3 0 0 0 with primary := { ctx3 0 0 0 with stall := some w } }

/-- The package with a descriptor at the head of engine `e` of core 0. -/
def withDesc (e d : Nat) (k : Core) : State := at0 (k.setEngine e { Engine.fresh with queue := [d] })

/-! ## The hypotheses of each statement, met clause by clause -/

/-- StepRunsFrontCommand: a command in front, an empty queue, and a held package. -/
theorem test_meets_step :
    { ready with pending := [.halt 0, .mxeNop 0] }.pending = Instr.halt 0 :: [.mxeNop 0] ∧ ready.pending = [] ∧
    { ready with pins := { ready.pins with pwrok := false } }.packageHeld = true := ⟨rfl, rfl, rfl⟩

/-- AluResults and ImmediateResults: a core runs. -/
theorem test_meets_runs : Runs (run3 5 7 1) 0 0 := by unfold Runs; decide +kernel

/-- ArithmeticRules: RA 0, and RA not 0 with only its highest bit. -/
theorem test_meets_counts :
    Runs (run3 0 0 0) 0 0 ∧ ((run3 0 0 0).core 0).ctx.get 1 = 0 ∧
    Runs (run3 (BitVec.intMin 64) 0 0) 0 0 ∧ ((run3 (BitVec.intMin 64) 0 0).core 0).ctx.get 1 ≠ 0 := by
  unfold Runs; decide +kernel

/-- ArithmeticRules: division by 0, the overflow, and neither, where the divisor alone is −1 and where the dividend alone is −2^63. -/
theorem test_meets_division :
    (Runs (run3 9 0 0) 0 0 ∧ ((run3 9 0 0).core 0).ctx.get 2 = 0) ∧
    (let s := run3 (BitVec.intMin 64) (-1) 0
     Runs s 0 0 ∧ ((s.core 0).ctx.get 1).toInt = -2 ^ 63 ∧ ((s.core 0).ctx.get 2).toInt = -1) ∧
    (let s := run3 (-7) (-1) 0
     Runs s 0 0 ∧ (s.core 0).ctx.get 2 ≠ 0 ∧ ((s.core 0).ctx.get 1).toInt ≠ -2 ^ 63) ∧
    (let s := run3 (BitVec.intMin 64) 1 0
     Runs s 0 0 ∧ (s.core 0).ctx.get 2 ≠ 0 ∧ ((s.core 0).ctx.get 2).toInt ≠ -1) := by
  unfold Runs; decide +kernel

/-- LoadsReadScratchpad and StoresWriteScratchpad: the last legal address of each size, and the first two illegal ones. -/
theorem test_meets_loads :
    let a := fun s : State => ((s.core 0).ctx.get 1 + (0xFFFF : BitVec 16).signExtend 64).toNat
    let legal := fun n s => a s % n = 0 ∧ a s < 0x200000
    (Runs (run3 0x200000 0 0) 0 0 ∧ (run3 0x200000 0 0 |>.core 0).sp.wf = true ∧ legal 1 (run3 0x200000 0 0)) ∧
    (Runs (run3 0x1FFFFF 0 0) 0 0 ∧ legal 2 (run3 0x1FFFFF 0 0)) ∧ (Runs (run3 0x1FFFFD 0 0) 0 0 ∧ legal 4 (run3 0x1FFFFD 0 0)) ∧
    (Runs (run3 0x1FFFF9 0 0) 0 0 ∧ legal 8 (run3 0x1FFFF9 0 0)) ∧
    (Runs (run3 0x200001 0 0) 0 0 ∧ ¬ legal 1 (run3 0x200001 0 0)) ∧ (Runs (run3 2 0 0) 0 0 ∧ ¬ legal 2 (run3 2 0 0)) ∧
    ¬ legal 4 (run3 3 0 0) ∧ Runs (run3 3 0 0) 0 0 ∧ ¬ legal 8 (run3 5 0 0) ∧ Runs (run3 5 0 0) 0 0 := by
  unfold Runs; decide +kernel

/-- BranchesAndJumps: a core runs, at the last instruction of the buffer. -/
theorem test_meets_branches : Runs (at0 { core3 1 1 0 with primary := { ctx3 1 1 0 with pc := 0xFFFC } }) 0 0 := by
  unfold Runs; decide +kernel

/-- A core whose engine 2 holds 16 descriptors, with the last legal descriptor address of 64 bytes in g1. -/
def fullQueue (a : Word) : State := at0 { core3 a 0 0 with mse := { Engine.fresh with queue := List.replicate 16 0 } }

/-- DescriptorPush: a legal push with room, at the last legal addresses, one to a full queue, and the illegal ones. -/
theorem test_meets_push :
    (Runs (run3 0x1FFFC0 0 0) 0 0 ∧ 0x1FFFC0 % 64 = 0 ∧ (0x1FFFC0 : Nat) + 64 ≤ 0x200000 ∧
      (((run3 0x1FFFC0 0 0).core 0).engine 2).queue.length < 16 ∧ (run3 0x1FFFC0 0 0).engineHeld 0 2 = false) ∧
    (Runs (run3 0x1FFF80 0 0) 0 0 ∧ 0x1FFF80 % 128 = 0 ∧ (0x1FFF80 : Nat) + 128 ≤ 0x200000 ∧
      (((run3 0x1FFF80 0 0).core 0).engine 1).queue.length < 16) ∧
    (Runs (fullQueue 0x1FFFC0) 0 0 ∧ 16 ≤ (((fullQueue 0x1FFFC0).core 0).engine 2).queue.length ∧ ((fullQueue 0x1FFFC0).core 0).onComp = false) ∧
    (Runs (run3 0x1FFFC0 0 0) 0 0 ∧ ¬ (0x1FFFC0 % 128 = 0 ∧ (0x1FFFC0 : Nat) + 128 ≤ 0x200000)) ∧ (3 : BitVec 2) = 3 := by
  unfold Runs; decide +kernel

/-- A core whose companion runs with g1 and g2 as named and a full queue of the message engine, while the primary waits on a queue that holds an entry. -/
def lent (a b : Word) : Core :=
  { Core.fresh with
    primary := { ctx3 0 0 0 with st := .waiting, stall := some (.queue 16 1 0) }, companion := ctx3 a b 0, onComp := true
    queues := [(16, { Queue.fresh with mode := 1, entries := [0x100] })], mse := { Engine.fresh with queue := List.replicate 16 0 } }

/-- DescriptorPush, SyncCounterOperations and QueueOperations: the companion has to wait and the primary takes the control unit back. -/
theorem test_meets_lent :
    (Runs (at0 (lent 0x40 1)) 0 0 ∧ (lent 0x40 1).onComp = true ∧ (lent 0x40 1).primaryEntry = true ∧
      16 ≤ ((lent 0x40 1).engine 2).queue.length) ∧
    (Runs (at0 (lent 5 1)) 0 0 ∧ (lent 5 1).primaryEntry = true ∧ ¬ (((lent 5 1).ctr 5 : Int) - 1) % 2 ^ 32 < 2 ^ 31) ∧
    (Runs (at0 (lent 0 1)) 0 0 ∧ (lent 0 1).primaryEntry = true ∧ ((lent 0 1).queue 0).entries = []) := by
  unfold Runs; decide +kernel

/-- Core 0 as named, with the wait of its primary context. -/
def waitsOn (w : Stall) (k : Core) : State := at0 { k with primary := { ctx3 0x1FFFC0 0 0 with st := .waiting, stall := some w } }

/-- What StallsEnd asks of the package. -/
abbrev idleCore (s : State) : Prop :=
  Holds s 0 0 ∧ s.pending = [] ∧ s.packageHeld = false ∧ s.coreHeld 0 = false ∧ s.hall.tests = [] ∧ s.redundant = false ∧ s.host.cmdqs = [] ∧
    s.waiting = [] ∧ (s.core 0).ctx.st = .waiting

/-- Core 0 with an entry in its event queue. -/
def posted : Core := { core3 0 0 0 with queues := [(16, { Queue.fresh with mode := 1, entries := [0x100] })] }

/-- Core 0 with a full queue of the message engine. -/
def crowded : Core := { core3 0 0 0 with mse := { Engine.fresh with queue := List.replicate 16 0 } }

/-- A companion that waits on a counter while the entry that its primary waits for has come. -/
def handsBack : Core := { lent 0 0 with companion := { ctx3 0 0 0 with st := .waiting, stall := some (.sync 5 1) } }

/-- StallsEnd: waits that have ended and waits that have not, for a counter and a queue. -/
theorem test_meets_stalls_end :
    (idleCore (waitsOn (.sync 5 0) (core3 0 0 0)) ∧ (((core3 0 0 0).ctr 5 : Int) - 0) % 2 ^ 32 < 2 ^ 31) ∧
    (idleCore (waitsOn (.sync 5 1) (core3 0 0 0)) ∧ ¬ (((core3 0 0 0).ctr 5 : Int) - 1) % 2 ^ 32 < 2 ^ 31) ∧
    (idleCore (waitsOn (.queue 16 1 0) posted) ∧ (posted.queue 16).entries = 0x100 :: []) ∧
    (idleCore (waitsOn (.queue 16 1 0) (core3 0 0 0)) ∧ ((core3 0 0 0).queue 16).entries = []) ∧
    decodeCtu 0 (BitVec.ofNat 32 ((core3 0 0 0).ibuf.num 12 4)) = some (.add 0 0 0 0) ∧ (core3 0 0 0).onComp = false := by
  unfold idleCore Holds
  refine ⟨?_, ?_, ?_, ?_, ?_, ?_⟩ <;> decide +kernel

/-- StallsEnd: a descriptor queue with room and a full one, a companion that gives the control unit back, and a push to an engine under reset. -/
theorem test_meets_pushes_end :
    (idleCore (waitsOn (.push 2 0x1FFFC0) (core3 0 0 0)) ∧ ((core3 0 0 0).engine 2).queue.length < 16 ∧
      (waitsOn (.push 2 0x1FFFC0) (core3 0 0 0)).engineHeld 0 2 = false) ∧
    (idleCore (waitsOn (.push 2 0x1FFFC0) crowded) ∧ 16 ≤ (crowded.engine 2).queue.length) ∧
    (idleCore (at0 handsBack) ∧ handsBack.onComp = true ∧ (at0 handsBack).stallEnds 0 (.sync 5 1) = false ∧
      handsBack.primary.stall = some (.queue 16 1 0) ∧ (handsBack.queue 16).entries = 0x100 :: []) ∧
    (let s := { run3 0x1FFFC0 0 0 with resets := [{ domain := 0, engine := 2, target := 0, cause := 4, phase := .capture, start := 0, bad := [],
                                                    runs := [], next := none }] }
     Runs s 0 0 ∧ 0x1FFFC0 % 64 = 0 ∧ (0x1FFFC0 : Nat) + 64 ≤ 0x200000 ∧ ((s.core 0).engine 2).queue.length < 16 ∧ s.engineHeld 0 2 = true) := by
  unfold idleCore Runs Holds
  refine ⟨?_, ?_, ?_, ?_⟩ <;> decide +kernel

/-- StallsEnd: no link of the package has a packet to send. -/
theorem test_meets_stalls_end_links (l : Nat) : (ready.link l).txq = [] := rfl

/-- SyncCounterOperations: a counter at its target, and one that has just not reached it, across the wrap. -/
theorem test_meets_sync :
    (Runs (run3 0x105 0 0) 0 0 ∧ (((run3 0x105 0 0).core 0).ctr 5 : Int) % 2 ^ 32 < 2 ^ 31) ∧
    (Runs (run3 0x105 1 0) 0 0 ∧ ¬ ((((run3 0x105 1 0).core 0).ctr 5 : Int) - 1) % 2 ^ 32 < 2 ^ 31) := by
  unfold Runs; decide +kernel

/-- A core with two entries in its queue 16 and one block in its scratchpad, with g1 and g2 as named. -/
def queued (a b : Word) (blk : Nat) (old : Nat) : Core :=
  { core3 a b 0 with
    queues := [(0, { Queue.fresh with mode := old }), (16, { Queue.fresh with mode := 1, entries := [0x100, 0x140] })]
    sp := Mem.zero.writeN 0 (leBytes 16 blk) }

/-- A valid block of mode 1 for queue 0: base 0x10000, 64-byte slots, 2 slots (R83). -/
def qblock : Nat := 0x10000 + 6 * 2 ^ 24 + 1 * 2 ^ 32 + 1 * 2 ^ 36

/-- QueueOperations: an entry and none, a release of all the entries and of one more, a queue number above 16, and the blocks. -/
theorem test_meets_queues :
    (Runs (at0 (queued 16 2 0 0)) 0 0 ∧ ((queued 16 2 0 0).queue 16).entries = 0x100 :: [0x140] ∧ (2 : Nat) ≤ [0x100, 0x140].length) ∧
    (Runs (at0 (queued 0 1 0 0)) 0 0 ∧ ((queued 0 1 0 0).queue 0).entries = [] ∧ ((queued 0 1 0 0).queue 0).entries.length < 1) ∧
    (Runs (at0 (queued 17 0 0 0)) 0 0 ∧ 16 < ((queued 17 0 0 0).ctx.get 1).toNat) ∧
    (Runs (at0 (queued 0 0 0 1)) 0 0 ∧ fld ((queued 0 0 0 1).sp.num 0 16) 36 2 = 0) ∧
    (Runs (at0 (queued 0 0 qblock 0)) 0 0 ∧ fld ((queued 0 0 qblock 0).sp.num 0 16) 36 2 ≠ 0 ∧
      ((queued 0 0 qblock 0).queue 0).mode = 0 ∧ qcfgValid 0 ((queued 0 0 qblock 0).sp.num 0 16) = true) ∧
    ((queued 0 0 qblock 1).queue 0).mode ≠ 0 ∧ Runs (at0 (queued 0 0 qblock 1)) 0 0 ∧
    qcfgValid 0 ((queued 0 0 (qblock + 2) 0).sp.num 0 16) = false ∧ Runs (at0 (queued 0 0 (qblock + 2) 0)) 0 0 ∧
    (Runs (at0 (queued 0 8 0 0)) 0 0 ∧ ((queued 0 8 0 0).ctx.get 2).toNat % 16 ≠ 0) := by
  unfold Runs; decide +kernel

/-- HaltYieldAndIdentity: the primary runs, and the companion with and without an entry for the primary. -/
theorem test_meets_yield :
    (Runs (run3 0 0 0) 0 0 ∧ ((run3 0 0 0).core 0).onComp = false) ∧
    (Runs (runComp 0) 0 0 ∧ ((runComp 0).core 0).onComp = true ∧ ((runComp 0).core 0).primaryEntry = false) ∧
    (let k := { Core.fresh with
                  primary := { ctx3 0 0 0 with st := .waiting, stall := some (.queue 16 1 0) }, companion := ctx3 0 0 0, onComp := true,
                  queues := [(16, { Queue.fresh with mode := 1, entries := [0x100] })] }
     Runs (at0 k) 0 0 ∧ k.onComp = true ∧ k.primaryEntry = true) := by
  unfold Runs; decide +kernel

/-- InstructionBufferFill: operands at the very ends, a length that is no multiple of 4, and a copy in progress. -/
theorem test_meets_ifill :
    (Runs (run3 0x1FF000 0x1000 0xF000) 0 0 ∧ 0x1FF000 + 0x1000 ≤ 0x200000 ∧ 0xF000 + 0x1000 ≤ 0x10000 ∧ 0x1000 % 4 = 0) ∧
    (Runs (run3 0 2 0) 0 0 ∧ ¬ 2 % 4 = 0) ∧
    (Holds (stalled (.ifill 0 8 0xFFF8)) 0 0 ∧ ((stalled (.ifill 0 8 0xFFF8)).core 0).ctx.stall = some (.ifill 0 8 0xFFF8) ∧
      ((stalled (.ifill 0 8 0xFFF8)).core 0).ibuf.wf = true) := by
  unfold Runs Holds; decide +kernel

/-- DictionaryReadsByPrograms: a read that returns a value (PKG_STATE), and one of no entry. -/
theorem test_meets_drd :
    let s := stalled (.drd (Key.pkgState.key / 256) (Key.pkgState.key % 256) 1)
    let u := stalled (.drd 0xFFFF 0 1)
    Runs (run3 0 0 0) 0 0 ∧
    (Holds s 0 0 ∧ s.coreHeld 0 = false ∧ s.leadAnswers = true ∧
      (s.core 0).ctx.stall = some (.drd (Key.pkgState.key / 256) (Key.pkgState.key % 256) 1) ∧
      s.drdValue (Key.pkgState.key / 256) (Key.pkgState.key % 256) = some 1) ∧
    (Holds u 0 0 ∧ u.coreHeld 0 = false ∧ u.leadAnswers = true ∧ (u.core 0).ctx.stall = some (.drd 0xFFFF 0 1) ∧
      u.drdValue 0xFFFF 0 = none) := by
  unfold Runs Holds; decide +kernel

/-- A package whose cluster 0 has rotation on, with a test due at once, its suspect core and passed spares as named. -/
def rotating (k : Core) (suspect : Nat) (passed : List Nat) : State :=
  { at0 k with
    dict := put (Key.rotationEnable).key 1 (put (Key.suspectMask 0).key suspect (at0 k).dict)
    hall := { Hallmark.fresh with passed := passed } }

/-- A core in the middle of a swap to the spare, held at its SWAPPT. -/
def swapping : State :=
  { stalled (.swap 1) with swaps := [{ cluster := 0, fromPhy := 0, toPhy := 16, step := 0, waiting := [] }] }

/-- SwapPointDecisions: the companion, no test due, a core that is not quiescent, no spare, a spare; and a swap that completes. -/
theorem test_meets_swappt :
    (Runs (runComp 0) 0 0 ∧ ((runComp 0).core 0).onComp = true) ∧
    (let s := { run3 0 0 0 with dict := put Key.rotationEnable.key 0 (run3 0 0 0).dict }
     Runs s 0 0 ∧ (s.core 0).onComp = false ∧ s.lockstepOf 0 = [0] ∧ (s.swapPoint 0 0).testDue 0 = false) ∧
    (let due := fun s : State => Runs s 0 0 ∧ (s.core 0).onComp = false ∧ s.lockstepOf 0 = [0] ∧ (s.swapPoint 0 0x100).testDue 0 = true ∧
       (s.swapPoint 0 0x100).testTarget 0 = some 0 ∧ (s.swapPoint 0 0x100).isSpare 0 0 = false ∧
       (s.swapPoint 0 0x100).copyIn 0 0 = some (17 * 0 + 0)
     let busy := rotating { core3 0x100 0 0 with mxe := { Engine.fresh with queue := [0] } } 1 [16]
     let none' := rotating (core3 0x100 0 0) 1 []
     let free := rotating (core3 0x100 0 0) 1 [16]
     (due busy ∧ (busy.swapPoint 0 0x100).quiescent 0 = false) ∧
     (due none' ∧ (none'.swapPoint 0 0x100).quiescent 0 = true ∧ (none'.swapPoint 0 0x100).freeSpares 0 = []) ∧
     (due free ∧ (free.swapPoint 0 0x100).quiescent 0 = true ∧ (free.swapPoint 0 0x100).freeSpares 0 ≠ [])) ∧
    (Holds swapping 0 0 ∧ (swapping.core 0).ctx.stall = some (.swap 1) ∧
      swapping.swaps = [{ cluster := 0, fromPhy := 0, toPhy := 16, step := 0, waiting := [] }] ∧ coreCluster 0 = 0 ∧ 16 / 17 = 0 ∧
      swapping.hall.slots = [] ∧ swapping.coreHeld 0 = false) ∧
    (Holds (run3 0 0 0) 0 0 ∧ ((run3 0 0 0).core 0).ctx.stall = none) := by
  unfold Runs Holds; decide +kernel

/-- SwapPointDecisions: under full redundancy, a test of the core due in its cluster, with a free spare in both clusters; and a swap of it with
its copy. -/
theorem test_meets_swappt_pair :
    (let s := { rotating (core3 0x100 0 0) 1 [16, 33] with
                dict := put Key.logicalClustersPerDie.key 2 (put (Key.nextDueStep 1).key 0x200 (rotating (core3 0x100 0 0) 1 [16, 33]).dict) }
     let u := (s.swapPoint 0 0x100).swapPoint 1 0x100
     Runs s 0 0 ∧ (s.core 0).onComp = false ∧ s.lockstepOf 0 = [0, 1] ∧ u.testDue 0 = true ∧ u.testTarget 0 = some 0 ∧ u.isSpare 0 0 = false ∧
      u.copyIn 0 0 = some 0 ∧ u.testDue 1 = false ∧ u.quiescent 0 = true ∧ u.freeSpares 0 ≠ [] ∧ u.freeSpares 1 ≠ [] ∧ u.copyIn 0 1 = some 17) ∧
    (let w : Swap := { cluster := 0, fromPhy := 0, toPhy := 16, step := 0, waiting := [], copy := some (17, 33) }
     let s := { swapping with swaps := [w] }
     Holds s 0 0 ∧ s.swaps = [w] ∧ 17 / 17 = 0 + 1 ∧ 33 / 17 = 0 + 1 ∧ s.coreHeld 0 = false) := by
  unfold Runs Holds; decide +kernel

/-- A descriptor, record or header written as (lowest bit, value) pairs. -/
def bits (l : List (Nat × Nat)) : Nat := (l.map (fun x => x.2 * 2 ^ x.1)).sum

/-- A state with dictionary entries at the values named. -/
def withEntries (l : List (Ent × Nat)) (s : State) : State := { s with dict := l.foldl (fun d e => put e.1.key e.2 d) s.dict }

/-- An MMA of 64 × 32 INT8 tiles over 32 products that begins bank 0, with no output (R98–R101). -/
def dMma : Nat :=
  bits [(0, 1), (151, 7), (160, 1), (176, 1), (192, 0x1000), (215, 7), (224, 32), (237, 1), (280, 4), (368, 0xFF), (376, 0xFF), (384, 0xFF)]

/-- A COMBINE of a raw exact tile into bank 0, with no output. -/
def dCombine : Nat := bits [(0, 2), (151, 7), (160, 16), (237, 1), (280, 4), (368, 0xFF), (376, 0xFF), (384, 0xFF)]

/-- A DRAIN of bank 0 as FP32 to 0x10000. -/
def dDrain : Nat := bits [(0, 3), (242, 1), (256, 0x10000), (280, 4), (368, 0xFF), (376, 0xFF), (384, 0xFF)]

/-- Engine `e` of core 0, with `d` at the head of its queue, may start it. -/
def startsOn (e d : Nat) : State := withDesc e d (core3 0 0 0)

/-- MatrixDescriptorsStart: each operation accepted, and refused (a length of 0, a raw format that is none, a DRAIN with no output,
bank 1 for a block of four). -/
theorem test_meets_matrix :
    let k := core3 0 0 0
    (Starts (startsOn 0 dMma) 0 0 0 1 dMma ∧ (MxeD.of dMma).refusal 1 ((startsOn 0 dMma).core 0) = none) ∧
    (let d := dMma - 32 * 2 ^ 224
     Starts (startsOn 0 d) 0 0 0 1 d ∧ (MxeD.of d).refusal 1 ((startsOn 0 d).core 0) ≠ none) ∧
    (Starts (startsOn 0 dCombine) 0 0 0 2 dCombine ∧ (MxeD.of dCombine).refusal 2 ((startsOn 0 dCombine).core 0) = none) ∧
    (let d := dCombine - 2 ^ 151
     Starts (startsOn 0 d) 0 0 0 2 d ∧ (MxeD.of d).refusal 2 ((startsOn 0 d).core 0) ≠ none) ∧
    (Starts (startsOn 0 dDrain) 0 0 0 3 dDrain ∧ (MxeD.of dDrain).refusal 3 ((startsOn 0 dDrain).core 0) = none) ∧
    (let d := dDrain - 2 ^ 242
     Starts (startsOn 0 d) 0 0 0 3 d ∧ (MxeD.of d).refusal 3 ((startsOn 0 d).core 0) ≠ none) ∧
    (Starts (startsOn 0 4) 0 0 0 4 4 ∧ bankOk (MxeD.of 4).block (MxeD.of 4).bank = true) ∧
    (let d := bits [(0, 4), (238, 3), (240, 1)]
     Starts (startsOn 0 d) 0 0 0 4 d ∧ bankOk (MxeD.of d).block (MxeD.of d).bank = false) ∧ k.mxe.queue = [] := by
  unfold Starts Holds; decide +kernel

/-- MatrixArithmetic: the descriptor above. -/
theorem test_meets_int8 :
    let x := MxeD.of dMma
    Starts (startsOn 0 dMma) 0 0 0 1 dMma ∧ x.refusal 1 ((startsOn 0 dMma).core 0) = none ∧ x.aFmt = 7 ∧ x.bFmt = 7 ∧ x.block = 0 ∧
    x.aTrans = false ∧ x.bTrans = false ∧ x.aReuse = false ∧ x.bReuse = false ∧ x.accInit = true := by
  unfold Starts Holds; decide +kernel

/-- MatrixArithmetic: an MMA of FP32, a COMBINE of a raw FP32 tile and of a raw exact one, and a DRAIN as FP32. -/
theorem test_meets_matrix_results :
    let plain := fun (op d : Nat) => let x := MxeD.of d
      Starts (startsOn 0 d) 0 0 0 op d ∧ x.refusal op ((startsOn 0 d).core 0) = none ∧ x.block = 0 ∧ x.aTrans = false ∧ x.bTrans = false ∧
        x.aReuse = false ∧ x.bReuse = false
    let mma := bits [(0, 1), (160, 4), (176, 4), (192, 0x4000), (224, 32), (237, 1), (280, 4), (368, 0xFF), (376, 0xFF), (384, 0xFF)]
    let add := bits [(0, 2), (160, 4), (237, 1), (280, 4), (368, 0xFF), (376, 0xFF), (384, 0xFF)]
    (plain 1 mma ∧ (MxeD.of mma).accInit = true ∧ (MxeD.of mma).aFmt ≤ 2 ∧ (MxeD.of mma).bFmt = (MxeD.of mma).aFmt) ∧
    (plain 2 add ∧ (MxeD.of add).aFmt = 0) ∧ (plain 2 dCombine ∧ (MxeD.of dCombine).aFmt = 7) ∧
    (plain 3 dDrain ∧ (MxeD.of dDrain).outPath = 1 ∧ (MxeD.of dDrain).outFmt = 0 ∧ (MxeD.of dDrain).outTrans = false ∧
      (MxeD.of dDrain).aCtx = 0xFF ∧ (MxeD.of dDrain).bCtx = 0xFF ∧ (MxeD.of dDrain).outCtx = 0xFF ∧ (MxeD.of dDrain).sideGran = 0) := by
  unfold Starts Holds; decide +kernel

/-- Core 0 with a started descriptor of the matrix engine and one of the Filigree engine, each with a write and a DONE_CTR. -/
def started : State :=
  let x : Started := { desc := bits [(0, 3), (8, 9), (16, 2)], writes := [(0x100, [1, 2])], ctxUps := [], counts := [], alone := false }
  at0 { core3 0 0 0 with mxe := { Engine.fresh with started := [x] }, fge := { Engine.fresh with started := [x, x] } }

/-- CompletionMakesOutputVisible, for each engine. -/
theorem test_meets_completion :
    let x : Started := { desc := bits [(0, 3), (8, 9), (16, 2)], writes := [(0x100, [1, 2])], ctxUps := [], counts := [], alone := false }
    Holds started 0 0 ∧ (started.engineHeld 0 0 = false ∧ ((started.core 0).engine 0).started = [x]) ∧
    (started.engineHeld 0 1 = false ∧ ((started.core 0).engine 1).started = [x, x]) ∧ bit x.desc 66 = false ∧ x.ctxUps = [] := by
  unfold Holds; decide +kernel

/-- CompletionMakesOutputVisible: a descriptor that posts a record, and one that updates context 3 by `sats` saturations, with a threshold of 5. -/
theorem test_meets_completion_records :
    let x : Started := { desc := bits [(0, 3), (66, 1)], writes := [], ctxUps := [], counts := [], alone := false }
    let s := at0 { core3 0 0 0 with mxe := { Engine.fresh with started := [x] } }
    let up := fun sats : Nat => ({ desc := 3, writes := [], ctxUps := [(3, 0, sats, 7)], counts := [], alone := false } : Started)
    let k := { core3 0 0 0 with scales := [(3, { ScaleCtx.fresh with satThresh := 5 })] }
    let t := fun sats : Nat => at0 { k with fge := { Engine.fresh with started := [up sats] } }
    let crosses := fun (c : ScaleCtx) (sats : Nat) =>
      c.satThresh ≠ 0 ∧ c.satCount < c.satThresh ∧ c.satThresh ≤ min (c.satCount + sats) (2 ^ 32 - 1)
    (Holds s 0 0 ∧ s.engineHeld 0 0 = false ∧ ((s.core 0).engine 0).started = [x] ∧ bit x.desc 66 = true) ∧
    (Holds (t 4) 0 0 ∧ (t 4).engineHeld 0 1 = false ∧ (((t 4).core 0).engine 1).started = [up 4] ∧ bit (up 4).desc 66 = false ∧
      ¬ crosses (((t 4).core 0).scale 3) 4) ∧
    (Holds (t 5) 0 0 ∧ (((t 5).core 0).engine 1).started = [up 5] ∧ crosses (((t 5).core 0).scale 3) 5) := by
  unfold Holds; decide +kernel

/-- A STREAM that copies one FP32 element from 0 to 0x100 (R190–R195). -/
def dStream : Nat := bits [(0, 1), (128, 1), (173, 31), (182, 31), (195, 7), (379, 0xFF), (472, 0x100), (499, 0xFF)]

/-- A COMPRESS of one element under the mask of the loop index, with only its counts. -/
def dCompress : Nat := bits [(0, 2), (128, 1), (144, 1), (164, 31), (182, 3), (195, 7), (512, 0x100), (533, 8), (539, 0xFF)]

/-- An EXPAND of one element under the mask of the loop index. -/
def dExpand : Nat := bits [(0, 3), (128, 1), (144, 1), (182, 3), (195, 7), (379, 0xFF), (472, 0x100), (499, 0xFF)]

/-- FiligreeDescriptorsStart: each operation good, and with COUNT 0. -/
theorem test_meets_filigree :
    let good := fun d => (FgeD.of d).legal ((startsOn 1 d).core 0) = true ∧ (FgeD.of d).rangesOk = true
    (Starts (startsOn 1 dStream) 0 0 1 1 dStream ∧ good dStream) ∧
    (Starts (startsOn 1 (dStream - 2 ^ 128)) 0 0 1 1 (dStream - 2 ^ 128) ∧ ¬ good (dStream - 2 ^ 128)) ∧
    (Starts (startsOn 1 dCompress) 0 0 1 2 dCompress ∧ good dCompress) ∧
    (Starts (startsOn 1 (dCompress - 2 ^ 128)) 0 0 1 2 (dCompress - 2 ^ 128) ∧ ¬ good (dCompress - 2 ^ 128)) ∧
    (Starts (startsOn 1 dExpand) 0 0 1 3 dExpand ∧ good dExpand) ∧
    (Starts (startsOn 1 (dExpand - 2 ^ 128)) 0 0 1 3 (dExpand - 2 ^ 128) ∧ ¬ good (dExpand - 2 ^ 128)) := by
  unfold Starts Holds; decide +kernel

/-- FiligreeDescriptorsStart: a descriptor with a reserved value, and one whose input lies beyond the scratchpad. -/
theorem test_meets_filigree_causes :
    let bad := dStream - 2 ^ 128
    let far := dStream + 0x1FFFFF * 2 ^ 352
    (Starts (startsOn 1 bad) 0 0 1 1 bad ∧ (FgeD.of bad).legal ((startsOn 1 bad).core 0) = false) ∧
    (Starts (startsOn 1 far) 0 0 1 1 far ∧ (FgeD.of far).legal ((startsOn 1 far).core 0) = true ∧ (FgeD.of far).rangesOk = false) := by
  unfold Starts Holds; decide +kernel

/-- FiligreeDescriptorsStart: sums and products of two streams, a sum over a stream, a selection and its counts, and a list put back. -/
theorem test_meets_filigree_results :
    let two := fun f : Nat => [(128, 2), (195, 7), (373, f), (379, 0xFF), (392, 0x40), (413, f), (419, 0xFF), (472, 0x100), (493, f), (499, 0xFF)]
    let stage := fun (f op : Nat) => bits (two f ++ [(0, 1), (160, 1), (164, 8), (173, 31), (182, 31), (768, op), (781, 1)])
    let sum := bits (two 8 ++ [(0, 1), (169, 1), (173, 31), (182, 31)])
    let list := fun op : Nat => bits (two 8 ++ [(0, op), (144, 1), (182, 1), (512, 0x200), (533, 8), (539, 0xFF)])
    let good := fun (op d : Nat) => Starts (startsOn 1 d) 0 0 1 op d ∧ (FgeD.of d).legal ((startsOn 1 d).core 0) = true ∧ (FgeD.of d).rangesOk = true
    let plain := fun (d f : Nat) => let x := FgeD.of d
      (x.inp 0).fmt = f ∧ (x.inp 0).adv = 0 ∧ x.out0.fmt = f ∧ (x.inp 0).ctx = 0xFF ∧ x.out0.ctx = 0xFF ∧ x.src1 = 31
    let second := fun (d f : Nat) => let x := FgeD.of d
      (x.inp 1).fmt = f ∧ (x.inp 1).adv = 0 ∧ (x.inp 1).ctx = 0xFF
    let oneStage := fun (d op : Nat) => let x := FgeD.of d
      x.stages = [{ op := op, a := 0, b := 1, c := 0, cond := 0 }] ∧ x.src0 = 8 ∧ x.red0 = 0 ∧ x.mask = 31
    (∀ op ∈ [0x20, 0x21, 0x22, 0x26, 0x27, 0x28], good 1 (stage 8 op) ∧ oneStage (stage 8 op) op ∧ plain (stage 8 op) 8 ∧ second (stage 8 op) 8) ∧
    (∀ op ∈ [1, 2, 3, 5], good 1 (stage 0 op) ∧ oneStage (stage 0 op) op ∧ plain (stage 0 op) 0 ∧ second (stage 0 op) 0 ∧ (FgeD.of (stage 0 op)).grad = false) ∧
    (good 1 sum ∧ (FgeD.of sum).stages = [] ∧ plain sum 8 ∧ (FgeD.of sum).src0 = 0 ∧ (FgeD.of sum).red0 = 1 ∧ (FgeD.of sum).mask = 31 ∧
      (FgeD.of sum).rowLen = 0) ∧
    (∀ op ∈ [2, 3], let x := FgeD.of (list op)
      good op (list op) ∧ x.stages = [] ∧ (x.inp 0).fmt = 8 ∧ (x.inp 0).adv = 0 ∧ x.out0.fmt = 8 ∧ second (list op) 8 ∧ x.mask = 1 ∧ x.keys = 0 ∧
        x.src0 = 0) := by
  unfold Starts Holds
  refine ⟨?_, ?_, ?_, ?_⟩ <;> decide +kernel

/-- ScaleContextDescriptors: SET_STEP; a roll of contexts 63 and 64; a load of a record that is not valid, of one that is, of context
64 and from an address that is no multiple of 128; a store, and one of context 64. -/
theorem test_meets_scales :
    let r := fun d => streamAt d 352
    let at1 := fun op addr ctx => bits [(0, op), (352, addr), (379, ctx)]
    let good := fun d (k : Core) => (r d).ctx < 64 ∧ blockOk (r d).addr 128 = true ∧
      (bit (k.sp.num (r d).addr 128) 0 = false ∨ (scaleOfRecord (k.sp.num (r d).addr 128)).legal = true)
    let valid := { core3 0 0 0 with sp := Mem.zero.writeN 0 (leBytes 128 (bits [(0, 1), (8, 1), (16, 1)])) }
    (Starts (startsOn 1 0x0B) 0 0 1 0x0B 0x0B) ∧
    (Starts (startsOn 1 (at1 0x0A 0 63)) 0 0 1 0x0A (at1 0x0A 0 63) ∧ (r (at1 0x0A 0 63)).ctx < 64) ∧
    (Starts (startsOn 1 (at1 0x0A 0 64)) 0 0 1 0x0A (at1 0x0A 0 64) ∧ 64 ≤ (r (at1 0x0A 0 64)).ctx) ∧
    (Starts (startsOn 1 (at1 8 0x80 0)) 0 0 1 8 (at1 8 0x80 0) ∧ good (at1 8 0x80 0) (core3 0 0 0)) ∧
    (Starts (withDesc 1 (at1 8 0 63) valid) 0 0 1 8 (at1 8 0 63) ∧ bit (valid.sp.num 0 128) 0 = true ∧ good (at1 8 0 63) valid) ∧
    (Starts (startsOn 1 (at1 8 0 64)) 0 0 1 8 (at1 8 0 64) ∧ ¬ good (at1 8 0 64) (core3 0 0 0)) ∧
    (Starts (startsOn 1 (at1 8 0x40 0)) 0 0 1 8 (at1 8 0x40 0) ∧ ¬ good (at1 8 0x40 0) (core3 0 0 0)) ∧
    (Starts (startsOn 1 (at1 9 0x80 0)) 0 0 1 9 (at1 9 0x80 0) ∧ (r (at1 9 0x80 0)).ctx < 64 ∧ blockOk (r (at1 9 0x80 0)).addr 128 = true) ∧
    (Starts (startsOn 1 (at1 9 0 64)) 0 0 1 9 (at1 9 0 64) ∧ ¬ (r (at1 9 0 64)).ctx < 64) := by
  unfold Starts Holds; decide +kernel

/-- A core with a deferral ring of one entry that holds a descriptor, and a core whose primary waits on the pipeline channel 15. -/
def deferring : State :=
  withEntries [(Key.deferEnable, 1), (Key.deferHeadCtr, 1), (Key.deferTailCtr, 2), (Key.deferRingAddr, 0), (Key.deferRingLog2, 0)]
    (at0 { core3 0 0 0 with ctrs := [(2, 1)] })

/-- A core whose primary has waited since time 0 on channel 15, a pipeline channel, at the threshold. -/
def idlePrimary : State :=
  withEntries [(Key.backfillEnable, 1), (Key.companionPartition, 1), (Key.pipeChannelMask, 0x8000), (Key.backfillThreshold, 100)]
    { at0 { core3 0 0 0 with primary := { ctx3 0 0 0 with st := .waiting, stall := some (.queue 15 1 0) },
                             companion := { ctx3 0 0 0 with st := .waiting } } with ftime := 100 }

/-- DeferralAndBackfill: both clauses. -/
theorem test_meets_deferral :
    (Holds deferring 0 0 ∧ deferring.get Key.deferEnable ≠ 0 ∧ deferring.engineHeld 0 0 = false ∧ (deferring.core 0).mxe.queue = [] ∧
      (∀ w ∈ deferring.swaps, w.fromPhy ≠ 0) ∧
      reached ((deferring.core 0).ctr (deferring.get Key.deferTailCtr)) ((deferring.core 0).ctr (deferring.get Key.deferHeadCtr) + 1) = true ∧
      (deferring.core 0).gateOk ((deferring.core 0).sp.num 0 64) = true) ∧
    (let s := idlePrimary
     Holds s 0 0 ∧ s.coreHeld 0 = false ∧ (s.core 0).primary.stall = some (.queue 15 1 0) ∧ (s.core 0).onComp = false ∧
      ((s.core 0).queue 15).entries = [] ∧ (s.core 0).companion.st = .waiting ∧ s.get Key.backfillEnable ≠ 0 ∧
      s.get Key.companionPartition ≠ 0 ∧ bit (s.get Key.pipeChannelMask) 15 = true ∧ s.get Key.backfillThreshold ≤ s.ftime - 0) := by
  unfold Holds; decide +kernel

/-- A PUT, GET, SEND, COPY or SIGNAL of core 0 to core 1 on this package, 64 bytes, with a notify increment (R74). -/
def dMsg (op : Nat) : Nat := bits [(0, op), (149, 1), (150, 1), (160, 64), (200, 1), (208, 1), (256, 0x1000), (400, 0x2000)]

/-- A GATHER of 64 bytes from stack 0 of this package (R285). -/
def dGather : Nat := bits [(0, 0x20), (160, 64), (208, 0x2000), (256, 0x1000), (384, 0x400)]

/-- The package with a descriptor at the head of the message engine of core 0 and stack 0 accepting. -/
def mse (d : Nat) (k : Core) : State := { withDesc 2 d k with hbms := [(0, { Stack.fresh with accepting := true, training := false })] }

/-- What MessageDescriptorsStart asks of an idle engine, beside the cause. -/
abbrev idleFor (s : State) (head : Packet) : Prop :=
  (s.core 0).ops = [] ∧ (∀ m ∈ s.msgs, m.2.owner ≠ 0) ∧ s.msgs.length < 65536 ∧ s.noRoute head = false ∧ s.nextId = some 0

/-- The head that the message of a descriptor has. -/
abbrev headOf (s : State) (d op node : Nat) : Packet :=
  s.msgHead 0 op node (mEp d) (if op = 3 then 0 else mOffset d) (mClass d) (mChan d) (if op = 0x20 then d else d % 2 ^ 440)

/-- A core with a credit entry for the SEND of `dMsg`, with `n` credits. -/
def credited (n : Nat) : Core := { core3 0 0 0 with credits := [(0, { node := 0, ep := 1, credits := n, payload := 64 })] }

/-- An operation of the message engine that may start and is not refused, its engine idle. -/
abbrev goodMsg (op d : Nat) (k : Core) : Prop :=
  Starts (mse d k) 0 0 2 op d ∧ (mse d k).generalCause d op = none ∧ idleFor (mse d k) (headOf (mse d k) d op ((mse d k).mNode d))

/-- An operation of the message engine that may start and is refused. -/
abbrev badMsg (op d : Nat) : Prop :=
  Starts (mse d (core3 0 0 0)) 0 0 2 op d ∧ (mse d (core3 0 0 0)).generalCause d op ≠ none

/-- MessageDescriptorsStart: each operation refused for its length, the signal for its increment, and the gather for its length. -/
theorem test_meets_messages_refused :
    badMsg 1 (bits [(0, 1), (149, 1)]) ∧ badMsg 2 (bits [(0, 2), (149, 1)]) ∧ badMsg 3 (bits [(0, 3), (149, 1)]) ∧
    badMsg 4 (bits [(0, 4), (149, 1)]) ∧ badMsg 5 (bits [(0, 5), (149, 1)]) ∧
    (let d := bits [(0, 0x20), (208, 0x2000)]
     Starts (mse d (core3 0 0 0)) 0 0 2 0x20 d ∧ (mse d (core3 0 0 0)).gatherCause d ≠ none) := by
  unfold badMsg Starts Holds; decide +kernel

/-- MessageDescriptorsStart: each operation accepted by an idle engine. -/
theorem test_meets_messages :
    goodMsg 1 (dMsg 1) (core3 0 0 0) ∧ goodMsg 2 (dMsg 2) (core3 0 0 0) ∧ goodMsg 3 (dMsg 3) (core3 0 0 0) ∧ bit (dMsg 3) 188 = false ∧
    goodMsg 4 (dMsg 4) (core3 0 0 0) ∧ goodMsg 5 (dMsg 5) (core3 0 0 0) ∧ epCore (mEp2 (dMsg 4)) = true ∧
    (mse (dMsg 4) (core3 0 0 0)).physOf (mEp2 (dMsg 4)) = some 0 ∧ (mse (dMsg 4) (core3 0 0 0)).coreHeld 0 = false := by
  unfold goodMsg Starts Holds; decide +kernel

/-- MessageDescriptorsStart: a GATHER accepted by an idle engine. -/
theorem test_meets_gather :
    Starts (mse dGather (core3 0 0 0)) 0 0 2 0x20 dGather ∧ (mse dGather (core3 0 0 0)).gatherCause dGather = none ∧
    idleFor (mse dGather (core3 0 0 0)) (headOf (mse dGather (core3 0 0 0)) dGather 0x20 0) := by
  unfold Starts Holds; decide +kernel

/-- MessageDescriptorsStart: a credited SEND with its last credit, with none left, and with no entry. -/
theorem test_meets_credited_send :
    let d := dMsg 3 + 2 ^ 188
    (goodMsg 3 d (credited 1) ∧ ((credited 1).creditFor (headOf (mse d (credited 1)) d 3 0)).map (fun x => (x.credits, x.payload)) = some (1, 64)) ∧
    (goodMsg 3 d (credited 0) ∧ ((credited 0).creditFor (headOf (mse d (credited 0)) d 3 0)).map (fun x => (x.credits, x.payload)) = some (0, 64)) ∧
    (goodMsg 3 d (core3 0 0 0) ∧ (core3 0 0 0).creditFor (headOf (mse d (core3 0 0 0)) d 3 0) = none) ∧ mLen d = 64 ∧ bit d 188 = true := by
  unfold goodMsg Starts Holds; decide +kernel

/-- A started message descriptor. -/
def mseOp (no desc : Nat) (kind : MseKind) : MseOp :=
  { no := no, desc := desc, kind := kind, todo := [], msgs := [], status := 0, msgId := 0, leaves := 0, excluded := 0, fin := false }

/-- NopsAndFence: every NOP with and without an earlier descriptor, a FENCE started, refused, waiting and completing. -/
theorem test_meets_nops :
    let busy : Started := { desc := 3, writes := [], ctxUps := [], counts := [], alone := false }
    let status := bits [(189, 1), (320, 1)]
    (Starts (startsOn 0 0) 0 0 0 0 0 ∧ bankOk (MxeD.of 0).block (MxeD.of 0).bank = true ∧ (((startsOn 0 0).core 0).engine 0).started = [] ∧
      bit 0 66 = false) ∧
    (let k := { core3 0 0 0 with mxe := { Engine.fresh with queue := [0], started := [busy] } }
     Starts (at0 k) 0 0 0 0 0 ∧ (k.engine 0).started ≠ []) ∧
    (Starts (startsOn 1 0) 0 0 1 0 0 ∧ (((startsOn 1 0).core 0).engine 1).started = []) ∧
    (let k := { core3 0 0 0 with fge := { Engine.fresh with queue := [0], started := [busy] } }
     Starts (at0 k) 0 0 1 0 0 ∧ (k.engine 1).started ≠ []) ∧
    (Starts (mse status (core3 0 0 0)) 0 0 2 0 status ∧ statusCause status ≠ none) ∧
    (Starts (mse 0 (core3 0 0 0)) 0 0 2 0 0 ∧ mStatusEn 0 = false ∧ bit 0 66 = false ∧ ((mse 0 (core3 0 0 0)).core 0).ops = []) ∧
    (Starts (mse (status + 6) (core3 0 0 0)) 0 0 2 6 (status + 6) ∧ statusCause (status + 6) ≠ none) ∧
    (Starts (mse 6 (core3 0 0 0)) 0 0 2 6 6 ∧ statusCause 6 = none) ∧
    (let k := { core3 0 0 0 with ops := [mseOp 0 1 .plain, mseOp 1 6 (.fence [0])] }
     Holds (at0 k) 0 0 ∧ (at0 k).engineHeld 0 2 = false ∧ k.op 1 = some (mseOp 1 6 (.fence [0])) ∧ (∃ x ∈ k.ops, x.no ∈ [0])) ∧
    (let k := { core3 0 0 0 with ops := [mseOp 1 6 (.fence [0])] }
     Holds (at0 k) 0 0 ∧ k.op 1 = some (mseOp 1 6 (.fence [0])) ∧ (∀ x ∈ k.ops, x.no ∉ [0]) ∧ mStatusEn 6 = false ∧ bit 6 66 = false) := by
  unfold Starts Holds; decide +kernel

/-- An open lane of 4,096 bytes on stack 0 with its top as named. -/
def lane0 (top : Nat) : Lane := { isOpen := true, base := 0, limit := 4096, top := top, last := none, count := 0 }

/-- Core 0 with that lane as its lane 63. -/
def laned (x : Lane) : Core := { core3 0 0 0 with lanes := [(63, x)] }

/-- LaneOperations: the four operations refused on a closed lane, a bad limit among them, and run; a push that just fits, and one that just
does not. -/
theorem test_meets_lanes :
    let runs := fun op d k => Starts (mse d k) 0 0 2 op d ∧ (mse d k).bushelCause 0 d op = none ∧ ((mse d k).core 0).ops = []
    let stops := fun op d => Starts (mse d (core3 0 0 0)) 0 0 2 op d ∧ (mse d (core3 0 0 0)).bushelCause 0 d op ≠ none
    let dOpen := bits [(0, 0x10), (184, 63), (320, 4096)]
    let dPush := bits [(0, 0x11), (184, 63), (160, 64)]
    let dDrain := bits [(0, 0x12), (184, 63), (224, 4), (228, 7), (384, 1)]
    let dQuery := bits [(0, 0x13), (184, 63)]
    (stops 0x10 (dOpen - 64 * 2 ^ 320) ∧ stops 0x11 dPush ∧ stops 0x12 dDrain ∧ stops 0x13 dQuery) ∧
    (runs 0x10 dOpen (core3 0 0 0) ∧ runs 0x12 dDrain (laned (lane0 0)) ∧ runs 0x13 dQuery (laned (lane0 0))) ∧
    (runs 0x11 dPush (laned (lane0 3968)) ∧ 3968 + (64 + 64 * ((mLen dPush + 63) / 64)) ≤ 4096 ∧
      (mse dPush (laned (lane0 3968))).controllerOpen (devSetting 0) = true) ∧
    (runs 0x11 dPush (laned (lane0 4032)) ∧ 4096 < 4032 + (64 + 64 * ((mLen dPush + 63) / 64))) ∧
    (let o := { mseOp 0 dOpen .plain with fin := true }
     Holds (at0 { core3 0 0 0 with ops := [o] }) 0 0 ∧ (at0 { core3 0 0 0 with ops := [o] }).engineHeld 0 2 = false ∧
      { core3 0 0 0 with ops := [o] }.op 0 = some o ∧ o.kind = .plain ∧ dOp o.desc = 0x10) := by
  unfold Starts Holds; decide +kernel

/-- The header of the only frame of lane 63, of 64 bytes of payload (R228). -/
def frame0 : List Byte := leBytes 64 (bits [(0, 0xB5E1), (16, 63), (64, 64), (96, 0xFFFFFFFFFF)])

/-- Core 0 with a started drain of two frames on lane 63, which holds one frame or none. -/
def draining (last : Option Nat) : State :=
  let d := bits [(0, 0x12), (184, 63), (224, 1), (228, 7), (384, 2)]
  { at0 { laned { lane0 (if last = none then 0 else 128) with last := last, count := if last = none then 0 else 1 } with
            ops := [mseOp 4 d (.drain 0 0)] } with
    hbms := [(0, { Stack.fresh with accepting := true, training := false, mem := Mem.zero.writeN 0 frame0 })] }

/-- DrainReadsTheNewestFrame: a lane with no frame, and one with a frame whose header is right. -/
theorem test_meets_drain :
    let d := bits [(0, 0x12), (184, 63), (224, 1), (228, 7), (384, 2)]
    let holds := fun s : State => Holds s 0 0 ∧ s.engineHeld 0 2 = false ∧ (s.core 0).op 4 = some (mseOp 4 d (.drain 0 0)) ∧
      s.controllerOpen 0 = true ∧ 0 < bDepth d ∧ devSetting ((s.core 0).lane (bSlot d)).base = 0
    (holds (draining none) ∧ (((draining none).core 0).lane 63).last = none) ∧
    (let s := draining (some 0)
     let r := s.hbmRead 0 (devOffset 0 + 0) 64
     holds s ∧ ((s.core 0).lane (bSlot d)).last = some 0 ∧ 0 + 1 ≠ bFrames d ∧ r.2 = some frame0 ∧
       headerOk ((s.core 0).lane (bSlot d)) 0 (bSlot d) (bBuf d) (leNat frame0) = true ∧
       (r.1.hbmRead 0 (devOffset 0 + 0 + 64) (frameLen (fld (leNat frame0) 64 22) - 64)).2 = some (List.replicate 64 0)) := by
  unfold Holds; decide +kernel

/-- DrainReadsTheNewestFrame: a drain of one frame that is its engine's only operation. -/
theorem test_meets_drain_end :
    let d := bits [(0, 0x12), (184, 63), (224, 1), (228, 7), (384, 1)]
    let o := mseOp 4 d (.drain 0 0)
    let s := { draining (some 0) with cores := [(0, { (draining (some 0)).core 0 with ops := [o] })] }
    let r := s.hbmRead 0 (devOffset 0 + 0) 64
    Holds s 0 0 ∧ s.engineHeld 0 2 = false ∧ (s.core 0).op 4 = some o ∧ s.controllerOpen 0 = true ∧ 0 < bDepth d ∧
    ((s.core 0).lane (bSlot d)).last = some 0 ∧ 0 + 1 = bFrames d ∧ (s.core 0).ops = [o] ∧ mStatusEn d = false ∧ bit d 66 = false ∧
    r.2 = some frame0 ∧ headerOk ((s.core 0).lane (bSlot d)) 0 (bSlot d) (bBuf d) (leNat frame0) = true ∧
    (r.1.hbmRead 0 (devOffset 0 + 0 + 64) (frameLen (fld (leNat frame0) 64 22) - 64)).2 = some (List.replicate 64 0) := by
  unfold Holds; decide +kernel

/-- A BUCKET_ADD of one Grain to the accumulator at 0 with its tally at 0x100, INIT as named. -/
def dAdd (init : Nat) : Nat := bits [(0, 0x21), (149, init), (160, 8), (352, 0x100)]

/-- BucketAddSumsExactly: refused for its length, with INIT, and adding to what the stack holds. -/
theorem test_meets_bucket_add :
    let run := fun d => Starts (mse d (core3 0 0 0)) 0 0 2 0x21 d ∧ (mse d (core3 0 0 0)).bucketCause d = none ∧
      ((mse d (core3 0 0 0)).core 0).ops = [] ∧ (mse d (core3 0 0 0)).controllerOpen (devSetting (uAcc d)) = true ∧
      (mse d (core3 0 0 0)).controllerOpen (devSetting (uTally d)) = true
    (Starts (mse 0x21 (core3 0 0 0)) 0 0 2 0x21 0x21 ∧ (mse 0x21 (core3 0 0 0)).bucketCause 0x21 ≠ none) ∧
    (run (dAdd 1) ∧ bit (dAdd 1) 149 = true) ∧ (run (dAdd 0) ∧ bit (dAdd 0) 149 = false) ∧
    (let s := mse (dAdd 0) (core3 0 0 0)
     (s.devRead 0 8).2 = some (List.replicate 8 0) ∧ ((s.devRead 0 8).1.devRead 0x100 32).2 = some (List.replicate 32 0)) := by
  unfold Starts Holds; decide +kernel

/-- The sequencer with a step of 300 buckets open and none finished. -/
def openSeq : Sequencer := { Sequencer.fresh with isOpen := true, count := 300 }

/-- The same package with that step open. -/
def inStep (s : State) : State := { s with seq := openSeq }

/-- BucketStepsAndWindow: refused, opened, held, still held, and released. -/
theorem test_meets_bucket_steps :
    let d := bits [(0, 0x22), (224, 4)]
    let quiet := fun s : State => s.colls = [] ∧ s.ctxWaiters = [] ∧ s.commits = []
    let held := at0 { core3 0 0 0 with ops := [mseOp 3 d .stepHeld] }
    (quiet (mse 0x22 (core3 0 0 0)) ∧ Starts (mse 0x22 (core3 0 0 0)) 0 0 2 0x22 0x22 ∧ (mse 0x22 (core3 0 0 0)).bucketCause 0x22 ≠ none) ∧
    (let s := mse d (core3 0 0 0)
     quiet s ∧ Starts s 0 0 2 0x22 d ∧ s.bucketCause d = none ∧ (s.core 0).ops = [] ∧ s.seq.isOpen = false ∧ mStatusEn d = false ∧
      bit d 66 = false ∧ (s.core 0).op (s.core 0).nextOp = none ∧ s.seq.unfinished = false) ∧
    (let a := d + 2 ^ 149
     let s := inStep (mse a (core3 0 0 0))
     Starts s 0 0 2 0x22 a ∧ s.bucketCause a = none ∧ (s.core 0).op (s.core 0).nextOp = none ∧ bit a 149 = true) ∧
    (let s := inStep (mse d (core3 0 0 0))
     quiet s ∧ Starts s 0 0 2 0x22 d ∧ s.bucketCause d = none ∧ (s.core 0).ops = [] ∧ s.seq.unfinished = true ∧ bit d 149 = false) ∧
    ((inStep held).packageHeld = false ∧ quiet (inStep held) ∧ Holds (inStep held) 0 0 ∧ ((inStep held).core 0).op 3 = some (mseOp 3 d .stepHeld) ∧
      (inStep held).seq.unfinished = true) ∧
    (quiet held ∧ Holds held 0 0 ∧ (held.core 0).op 3 = some (mseOp 3 d .stepHeld) ∧ held.seq.isOpen = false ∧ held.seq.unfinished = false) := by
  unfold Starts Holds; decide +kernel

/-- An exchange of one Grain of bucket `b`, its group of `n` on the bucket axis. -/
def dExchange (b n : Nat) : Nat := bits [(0, 0x23), (192, b), (224, 1), (249, n), (304, 1), (352, 0x100), (392, 0x40)]

/-- BucketStepsAndWindow: refused with no step open; held at bucket 256, and admitted at bucket 255 with a closed controller. -/
theorem test_meets_window :
    let d := dExchange 256 1
    let s := inStep (mse d (core3 0 0 0))
    let u := fun b => withEntries [(Key.groupFormed 3, 1), (Key.groupStep 3, 0)]
      (inStep (at0 { core3 0 0 0 with ops := [mseOp 3 (dExchange b 1) .windowHeld] }))
    (Starts (mse d (core3 0 0 0)) 0 0 2 0x23 d ∧ (mse d (core3 0 0 0)).bucketCause d ≠ none) ∧
    (Starts s 0 0 2 0x23 d ∧ s.bucketCause d = none ∧ (s.core 0).ops = [] ∧ s.seq.off s.seq.u + 256 ≤ s.seq.off (uId d)) ∧
    (Holds (u 255) 0 0 ∧ ((u 255).core 0).op 3 = some (mseOp 3 (dExchange 255 1) .windowHeld) ∧
      (u 255).seq.off (uId (dExchange 255 1)) < (u 255).seq.off (u 255).seq.u + 256 ∧ (u 255).colls = [] ∧ (u 255).ctxWaiters = [] ∧
      (u 255).collControllers 0 (dExchange 255 1) = false ∧ (u 255).packageHeld = false ∧ dOp (dExchange 255 1) = 0x23 ∧
      (let c := (u 255).collOf 0 3 (dExchange 255 1)
       (u 255).flag (Key.groupFormed c.axis) = true ∧ (u 255).get (Key.groupStep c.axis) = c.step)) ∧
    (Holds (u 256) 0 0 ∧ ((u 256).core 0).op 3 = some (mseOp 3 (dExchange 256 1) .windowHeld) ∧
      (u 256).seq.off (u 256).seq.u + 256 ≤ (u 256).seq.off (uId (dExchange 256 1))) := by
  unfold Starts Holds; decide +kernel

/-- A collective of `n` members on axis X over 64 bytes, root 1, step 7, KEY 5, context 256, with its launch time. -/
def dColl (op n launch : Nat) : Nat :=
  bits [(0, op), (160, 64), (200, n), (216, 256), (232, 5), (248, if n = 1 then 0 else 1), (352, 7), (424, 0x1000), (448, launch)]

/-- The package as member 0 of two on axes X and W, both groups formed (X for step 7, W for the open step), its time locked, with a route along
W. -/
def pair (d : Nat) : State :=
  withEntries [(Key.axisSizes, 0x02010102), (Key.axisRoute 0 3 1, 5), (Key.groupFormed 0, 1), (Key.groupStep 0, 7), (Key.groupFormed 3, 1),
    (Key.groupStep 3, 0), (Key.timeState, 1)] (inStep (mse d (core3 0 0 0)))

/-- The package as that member with no group formed. -/
def unformed (d : Nat) : State := withEntries [(Key.axisSizes, 0x02010102)] (inStep (mse d (core3 0 0 0)))

/-- What CollectivesStart asks of a collective that is not refused. -/
abbrev mayStart (s : State) (op d : Nat) (cause : Option Nat) : Prop :=
  Starts s 0 0 2 op d ∧ cause = none ∧ (s.core 0).ops = [] ∧ s.colls = [] ∧ s.ctxWaiters = [] ∧ s.streams = [] ∧ s.collControllers 0 d = true

/-- The group of a collective is formed for its step. -/
abbrev formedFor (s : State) (d : Nat) : Prop :=
  s.flag (Key.groupFormed (s.collOf 0 0 d).axis) = true ∧ s.get (Key.groupStep (s.collOf 0 0 d).axis) = (s.collOf 0 0 d).step

/-- The member's contribution is there, and the member receives something. -/
abbrev contributes (s : State) (d : Nat) : Prop :=
  (s.contribution (s.collOf 0 0 d)).2.map (fun c => c.legs.any (fun l => !l.out)) = some true

/-- BucketStepsAndWindow: the exchange of the last bucket of the window takes its context. -/
theorem test_meets_admitted :
    let d := dExchange 255 2
    let s := { pair d with cores := [(0, { core3 0 0 0 with ops := [mseOp 3 d .windowHeld] })] }
    let c0 := s.collOf 0 3 d
    Holds s 0 0 ∧ (s.core 0).op 3 = some (mseOp 3 d .windowHeld) ∧ s.seq.off (uId d) < s.seq.off s.seq.u + 256 ∧ s.colls = [] ∧
    s.ctxWaiters = [] ∧ s.streams = [] ∧ dOp d = 0x23 ∧ s.seq.keptFrom (uId d) = false ∧ s.collControllers 0 d = true ∧
    s.flag (Key.groupFormed c0.axis) = true ∧ s.get (Key.groupStep c0.axis) = c0.step ∧
    (s.contribution c0).2.map (fun c1 => (c1.legs.any (fun l => !l.out), s.collUnreachable (s.collPlace d) c1)) = some (true, false) := by
  unfold Holds; decide +kernel

/-- CollectivesStart: the six collectives that begin at once. -/
theorem test_meets_collectives :
    ∀ op ∈ [0x30, 0x31, 0x32, 0x33, 0x34, 0x35],
      mayStart (pair (dColl op 2 0)) op (dColl op 2 0) ((pair (dColl op 2 0)).collCause 0 (dColl op 2 0)) ∧
      formedFor (pair (dColl op 2 0)) (dColl op 2 0) ∧ contributes (pair (dColl op 2 0)) (dColl op 2 0) ∧
      ((pair (dColl op 2 0)).collOf 0 0 (dColl op 2 0)).launch = 0 := by
  unfold mayStart Starts Holds; decide +kernel

/-- CollectivesStart: an exchange and an agreement that begin at once, the exchange at the last bucket of its window. -/
theorem test_meets_exchange :
    let x := dExchange 255 2
    let a := bits [(0, 0x24), (192, 0), (224, 1), (249, 2)]
    (mayStart (pair x) 0x23 x ((pair x).bucketCause x) ∧ formedFor (pair x) x ∧ contributes (pair x) x ∧ ((pair x).collOf 0 0 x).launch = 0 ∧
      (pair x).seq.off (uId x) < (pair x).seq.off (pair x).seq.u + 256 ∧ (pair x).seq.keptFrom (uId x) = false ∧
      ((pair x).contribution ((pair x).collOf 0 0 x)).2.map ((pair x).collUnreachable ((pair x).collPlace x)) = some false) ∧
    (mayStart (pair a) 0x24 a ((pair a).bucketCause a) ∧ formedFor (pair a) a ∧ contributes (pair a) a ∧
      ((pair a).collOf 0 0 a).launch = 0 ∧ (pair a).seq.keptFrom (uId a) = false) := by
  unfold mayStart Starts Holds; decide +kernel

/-- CollectivesStart: a launch to come, a group that is not formed, and each operation refused. -/
theorem test_meets_collectives_held :
    (let d := dColl 0x31 2 1
     mayStart (pair d) 0x31 d ((pair d).collCause 0 d) ∧ formedFor (pair d) d ∧ contributes (pair d) d ∧
      (pair d).ftime < ((pair d).collOf 0 0 d).launch ∧ (pair d).get Key.timeState = 1) ∧
    (let d := dColl 0x35 2 0
     mayStart (unformed d) 0x35 d ((unformed d).collCause 0 d) ∧ ¬ formedFor (unformed d) d) ∧
    (∀ op ∈ [0x30, 0x31, 0x32, 0x33, 0x34, 0x35], Starts (mse op (core3 0 0 0)) 0 0 2 op op ∧ (mse op (core3 0 0 0)).collCause 0 op ≠ none) ∧
    (∀ op ∈ [0x23, 0x24], Starts (mse op (core3 0 0 0)) 0 0 2 op op ∧ (mse op (core3 0 0 0)).bucketCause op ≠ none) := by
  unfold mayStart Starts Holds; decide +kernel

/-- CollectivesOfOneMember: the six collectives on an axis of one package. -/
theorem test_meets_one_member :
    ∀ op ∈ [0x30, 0x31, 0x32, 0x33, 0x34, 0x35],
      let d := dColl op 1 0
      let s := withEntries [(Key.groupFormed 0, 1), (Key.groupStep 0, 7)] (mse d (core3 0 0 0))
      Starts s 0 0 2 op d ∧ s.collCause 0 d = none ∧ kGroup d = 1 ∧ kRank d = 0 ∧ kLaunch d = 0 ∧ kSrcHbm d = false ∧ kDstHbm d = false ∧
      mStatusEn d = false ∧ bit d 66 = false ∧ (s.core 0).ops = [] ∧ s.colls = [] ∧ s.ctxWaiters = [] ∧ s.streams = [] ∧
      s.flag (Key.groupFormed (kAxis d)) = true ∧ s.get (Key.groupStep (kAxis d)) = kStep d := by
  unfold Starts Holds; decide +kernel

/-- A reduce-scatter of 256 bytes between two members, begun or not. -/
def scatter (begun : Bool) (sent : List (Nat × Nat × Nat)) : Coll :=
  { owner := 0, opNo := 0, desc := dColl 0x32 2 0, axis := 0, op := 0x32, mode := 0, algo := 2, key := 5, step := 7, attempt := 0, group := 2,
    rank := 0, root := 0, norm := false, gexp := 0, length := 256, channel := 0, epoch := false, sig := 0, launch := 0, launched := begun,
    opened := begun, data := List.replicate 256 0, flags := [], got := [], sent := sent, formed := 0, fail := none }

/-- The package with a collective in context 256 and its streams. -/
def joined (c : Coll) (ts : List Stream) : State := { run3 0 0 0 with colls := [(256, c)], streams := ts }

/-- A collective packet of member 1 for context 256 and a KEY: 0 DATA, 1 opener, 2 ABORT. -/
def collPacket (kind key : Nat) (payload : List Byte) : Packet :=
  sealed { blank with srcNode := 1, op := 0x32, operand := BitVec.ofNat 32 (bits [(0, 256), (10, key), (30, kind)]), payload := payload,
                      length := BitVec.ofNat 11 payload.length }

/-- Member 1's opener for that collective, of a step and a length. -/
def openerOf (step len : Nat) : Packet := collPacket 1 5 (leBytes 64 ({ scatter false [] with step := step, length := len, rank := 1 }.opener))

/-- A packet with no port of arrival reaches this package. -/
abbrev reaches (s : State) (op : Nat) (p : Packet) : Prop :=
  s.packageHeld = false ∧ p.op.toNat = op ∧ s.isOwn p.destNode.toNat = true ∧ p.abort = false ∧ packetReserved p = false ∧ packetCrc p = p.crc.toNat
    ∧ p.payload.length = p.length.toNat ∧ p.jobTag.toNat = s.get Key.jobTag

theorem arrives_of_reaches {s : State} {op : Nat} {p : Packet} (h : reaches s op p) : Arrives s op none p :=
  ⟨h.1, h.2.1, h.2.2.1, fun _ hq => (by cases hq), h.2.2.2⟩

/-- CollectiveStreamsAndTimers: a launch that has come, one to come, and no collective in the context. -/
theorem test_meets_launch :
    (let s := joined (scatter false []) []
     s.colls = [(256, scatter false [])] ∧ s.streams = [] ∧ s.ctxWaiters = [] ∧ (scatter false []).launch ≤ s.ftime ∧
      ((scatter false []).legs.any (fun l => !l.out)) = true ∧ s.destServes (scatter false []) = true ∧ 256 % 1024 = 256 ∧
      (scatter false []).fail = none ∧ (scatter false []).got = [] ∧ (scatter false []).launched = false ∧ (scatter false []).opened = false ∧
      s.packageHeld = false) ∧
    (let c := { scatter false [] with launch := 1 }
     (joined c []).colls = [(256, c)] ∧ (joined c []).ftime < c.launch) ∧
    look 256 ready.colls = none := by
  decide +kernel

/-- CollectiveStreamsAndTimers: openers, data and aborts of a context with no collective. -/
theorem test_meets_parked :
    let data := collPacket 0 5 (List.replicate 64 1)
    let stop := collPacket 2 5 (List.replicate 32 0)
    (Arrives ready 0x32 none (openerOf 7 256) ∧ isCollPacket (openerOf 7 256) = true ∧ opContext (openerOf 7 256) = 256 ∧
      opKind (openerOf 7 256) = 1) ∧
    (Arrives ready 0x32 none data ∧ isCollPacket data = true ∧ opContext data = 256 ∧ opKind data = 0) ∧
    (Arrives ready 0x32 none stop ∧ isCollPacket stop = true ∧ opContext stop = 256 ∧ opKind stop = 2) ∧
    (ready.ctxWaiters = [] ∧ ready.colls = [] ∧ ready.streams = [] ∧ collKey (ready.axisFrom 1) 256 = 256) := by
  refine ⟨⟨arrives_of_reaches ?_, ?_⟩, ⟨arrives_of_reaches ?_, ?_⟩, ⟨arrives_of_reaches ?_, ?_⟩, ?_⟩ <;> decide +kernel

/-- CollectiveStreamsAndTimers: an opener that agrees, one of another step and one of another length; and an abort. -/
theorem test_meets_openers :
    let c := scatter false []
    let s := joined c []
    (Arrives s 0x32 none (openerOf 7 256) ∧ Arrives s 0x32 none (openerOf 8 256) ∧ Arrives s 0x32 none (openerOf 7 64) ∧
      Arrives s 0x32 none (collPacket 2 5 (List.replicate 32 0))) ∧
    (s.colls = [(256, c)] ∧ c.fail = none ∧ c.complete = false ∧ s.streams = [] ∧ s.ctxWaiters = [] ∧ opKey (openerOf 7 256) = c.key) ∧
    (fld (leNat (openerOf 7 256).payload) 32 32 = c.step % 2 ^ 32 ∧
      openerKey c.op (leNat (openerOf 7 256).payload) = openerKey c.op c.opener ∧ c.launched = false) ∧
    fld (leNat (openerOf 8 256).payload) 32 32 ≠ c.step % 2 ^ 32 ∧
    (fld (leNat (openerOf 7 64).payload) 32 32 = c.step % 2 ^ 32 ∧
      openerKey c.op (leNat (openerOf 7 64).payload) ≠ openerKey c.op c.opener) ∧
    (opKind (collPacket 2 5 (List.replicate 32 0)) = 2 ∧ opKey (collPacket 2 5 (List.replicate 32 0)) = c.key) := by
  refine ⟨⟨arrives_of_reaches ?_, arrives_of_reaches ?_, arrives_of_reaches ?_, arrives_of_reaches ?_⟩, ?_⟩ <;> decide +kernel

/-- CollectiveStreamsAndTimers: the first half of the member's own slice, which are combined and leave nothing to send. -/
theorem test_meets_data :
    let c := scatter true [(0, 128, 1)]
    let t : Stream := { src := 1, context := 256, key := 5, opener := some (openerOf 7 256), accepted := true, waiting := [] }
    let x := collPacket 0 5 (List.replicate 64 1)
    Arrives (joined c [t]) 0x32 none x ∧
    ((joined c [t]).colls = [(256, c)] ∧ c.fail = none ∧ c.complete = false ∧ opKey x = c.key ∧ opKind x = 0 ∧ opContext x = 256 ∧
      bit (leNat (openerOf 7 256).payload) 13 = x.epoch ∧ c.sendable = [] ∧
      (joined c [t]).destServes c = true ∧ ((joined c [t]).destRead c 0 64).2 = true ∧ c.launched = true ∧ c.opened = true ∧
      (c.legFor x).map (fun l => (l.add, (c.absorb l x).sendable.length, (c.absorb l x).complete)) = some (true, 0, false)) := by
  refine ⟨arrives_of_reaches ?_, ?_⟩ <;> decide +kernel

/-- An EXPERT_DISPATCH, RETURN or COMBINE of one row of 32 bytes, for one expert and one token. -/
def dExpert (op : Nat) : Nat :=
  bits [(0, op), (128, 0x1000), (160, 1), (192, 0x40), (224, 0x80), (256, 0x100), (288, 1), (304, 1), (312, 1), (336, 1), (368, 0x200)]

/-- A core whose list holds one row. -/
def expertCore : Core := { core3 0 0 0 with sp := Mem.zero.writeN 0x80 [1] }

/-- A message that core 9's message engine would own. -/
def someMsg : OutMsg :=
  { owner := 9, opNo := 0, item := { group := 0, after := [], head := blank, length := 0, payload := [], source := none, dst := none }, no := 0,
    landed := [], retries := 0, held := false, answered := [], excluded := [] }

/-- The package with as many messages outstanding as it can have. -/
def fullOf (s : State) : State := { s with msgs := List.replicate 65536 (0, someMsg) }

/-- ExpertDescriptors: each operation refused for its row, and each run, with no room for a message. -/
theorem test_meets_experts :
    (∀ op ∈ [0x40, 0x41, 0x42], Starts (mse op expertCore) 0 0 2 op op ∧ expertCause op op ≠ none) ∧
    (let s := fullOf (mse (dExpert 0x40) expertCore)
     let d := dExpert 0x40
     Starts s 0 0 2 0x40 d ∧ expertCause d 0x40 = none ∧ (s.core 0).ops = [] ∧
      (let a := (List.range (xExperts d)).foldl (s.dispatchList 0 0 d) { items := [], sent := [], drops := 0, stop := none }
       a.stop = none ∧ a.items ≠ [] ∧ a.items.all (fun x => !s.noRoute x.head) = true)) ∧
    (let s := fullOf (mse (dExpert 0x41) expertCore)
     let d := dExpert 0x41
     Starts s 0 0 2 0x41 d ∧ expertCause d 0x41 = none ∧ (s.core 0).ops = [] ∧
      (s.returnItems 0 0 d (returnRows (s.core 0).sp d)).2 = none ∧ (s.returnItems 0 0 d (returnRows (s.core 0).sp d)).1 ≠ [] ∧
      (s.returnItems 0 0 d (returnRows (s.core 0).sp d)).1.all (fun x => !s.noRoute x.head) = true) ∧
    (let s := mse (dExpert 0x41) (core3 0 0 0)
     Starts s 0 0 2 0x41 (dExpert 0x41) ∧ (s.core 0).ops = [] ∧
      (s.returnItems 0 0 (dExpert 0x41) (returnRows (s.core 0).sp (dExpert 0x41))).1 = [] ∧
      (s.returnItems 0 0 (dExpert 0x41) (returnRows (s.core 0).sp (dExpert 0x41))).2 = none) ∧
    (Starts (mse (dExpert 0x42) expertCore) 0 0 2 0x42 (dExpert 0x42) ∧ expertCause (dExpert 0x42) 0x42 = none) := by
  unfold Starts Holds; decide +kernel

theorem test_meets_full (s : State) : 65536 ≤ (fullOf s).msgs.length := Nat.le_of_eq List.length_replicate.symm

/-- A whole message of one packet from node 0 to an endpoint of this package, with its descriptor. -/
def pkt (op ep off fields : Nat) (payload : List Byte) : Packet :=
  sealed { blank with op := BitVec.ofNat 8 op, destEp := BitVec.ofNat 16 ep, srcEp := 1, msgId := 7, offset := BitVec.ofNat 40 off,
                      length := BitVec.ofNat 11 payload.length, payload := payload, fields := BitVec.ofNat 512 fields }

/-- Four bytes. -/
abbrev four : List Byte := [1, 2, 3, 4]

/-- ArrivalChecks: each operation; a fenced port, a version with no table, an aborted packet, one with a reserved length, a wrong CRC and a
wrong length, and one of another job. -/
theorem test_meets_checks :
    (∀ op ∈ [1, 2, 3, 4, 5, 0x20, 0x80, 0xF0, 0xF1, 0xF2],
      (pkt op 0 0 0 four).op.toNat = op ∧ ready.isOwn (pkt op 0 0 0 four).destNode.toNat = true) ∧
    (withEntries [(Key.portFence 15, 1)] ready).fenced 0 15 = true ∧
    (ready.fenced 1 15 = false ∧ ready.tableState 1 = 0) ∧ (ready.fenced 0 0 = false ∧ ready.tableState 0 ≠ 0) ∧
    ({ pkt 1 0 0 0 four with detour := 1 }.detour = 1 ∧ (pkt 1 0 0 0 four).detour = 0) ∧
    { pkt 1 0 0 0 four with abort := true }.abort = true ∧ packetReserved (pkt 1 0 0 0 []) = true ∧
    packetCrc (pkt 1 0 0 0 four) ≠ { pkt 1 0 0 0 four with crc := 0 }.crc.toNat ∧
    { pkt 1 0 0 0 four with length := 5 }.payload.length ≠ { pkt 1 0 0 0 four with length := 5 }.length.toNat ∧
    (let x := sealed { pkt 1 0 0 0 four with jobTag := 1 }
     x.abort = false ∧ packetReserved x = false ∧ packetCrc x = x.crc.toNat ∧ x.payload.length = x.length.toNat ∧
      x.jobTag.toNat ≠ ready.get Key.jobTag ∧ x.ackReq = false) ∧
    (let x := sealed { pkt 1 0 0 0 four with jobTag := 1, ackReq := true }
     x.abort = false ∧ packetReserved x = false ∧ packetCrc x = x.crc.toNat ∧ x.payload.length = x.length.toNat ∧
      x.jobTag.toNat ≠ ready.get Key.jobTag ∧ x.ackReq = true ∧ ready.get Key.pkgState = 1 ∧ ready.packageHeld = false) := by
  decide +kernel

/-- The package with core 0 running and stack 0 accepting. -/
def serving (k : Core) : State := { at0 k with hbms := [(0, { Stack.fresh with accepting := true, training := false })] }

/-- A packet that arrives, and is admitted, in a state with no contexts of messages. -/
abbrev admits (s : State) (p : Packet) : Prop :=
  s.endpointHeld p.destEp.toNat = false ∧ s.heldBySwap p = false ∧ s.dups = [] ∧ bit p.operand.toNat 24 = false ∧ s.reorders = [] ∧ msgCount p = 1

theorem admitted_of_admits {s : State} {p : Packet} (h : admits s p) : Admitted s p := by
  obtain ⟨a, b, c, d, e, f⟩ := h
  refine ⟨a, b, ?_, ?_, ?_, ?_, f⟩
  · simp [State.dupOf, c]
  · intro _ h; simp [d] at h
  · simp [c]
  · simp [e]

/-- WritesLandAtTheirTarget: a PUT, COPY and SIGNAL to a core, the PUT at the last bytes of its scratchpad. -/
theorem test_meets_writes :
    let s := serving (core3 0 0 0)
    ∀ op ∈ [1, 4, 5], let x := pkt op 0 0x1FFFFC (bits [(160, 4), (190, 1), (192, 9), (200, 1)]) four
      (Arrives s op none x ∧ Admitted s x) ∧ s.writeRefusal x = none ∧ epTroy x.destEp.toNat = false ∧ epCore x.destEp.toNat = true ∧
      s.physOf x.destEp.toNat = some 0 := by
  intro s op h x
  have all : ∀ op ∈ [1, 4, 5], let x := pkt op 0 0x1FFFFC (bits [(160, 4), (190, 1), (192, 9), (200, 1)]) four
    reaches s op x ∧ admits s x ∧ s.writeRefusal x = none ∧ epTroy x.destEp.toNat = false ∧ epCore x.destEp.toNat = true ∧
      s.physOf x.destEp.toNat = some 0 := by decide +kernel
  obtain ⟨a, b, c⟩ := all op h
  exact ⟨⟨arrives_of_reaches a, admitted_of_admits b⟩, c⟩

/-- WritesLandAtTheirTarget: a PUT and a COPY to a stack, and a SIGNAL that one refuses. -/
theorem test_meets_stack_writes :
    let s := serving (core3 0 0 0)
    (∀ op ∈ [1, 4], let x := pkt op 0x2000 64 (bits [(160, 4)]) four
      (Arrives s op none x ∧ Admitted s x) ∧ s.writeRefusal x = none ∧ epMem x.destEp.toNat = true ∧ epTroy x.destEp.toNat = false) ∧
    (let x := pkt 5 0x2000 0 (bits [(200, 1)]) four
     (Arrives s 5 none x ∧ Admitted s x) ∧ s.writeRefusal x = some 1) := by
  intro s
  have all : ∀ op ∈ [1, 4], let x := pkt op 0x2000 64 (bits [(160, 4)]) four
    reaches s op x ∧ admits s x ∧ s.writeRefusal x = none ∧ epMem x.destEp.toNat = true ∧ epTroy x.destEp.toNat = false := by decide +kernel
  have one : let x := pkt 5 0x2000 0 (bits [(200, 1)]) four
    reaches s 5 x ∧ admits s x ∧ s.writeRefusal x = some 1 := by decide +kernel
  refine ⟨?_, ⟨⟨arrives_of_reaches one.1, admitted_of_admits one.2.1⟩, one.2.2⟩⟩
  intro op h x
  obtain ⟨a, b, c⟩ := all op h
  exact ⟨⟨arrives_of_reaches a, admitted_of_admits b⟩, c⟩

/-- WritesLandAtTheirTarget: a PUT beyond the scratchpad, one that ends beyond the stack, and one of an address of another stack. -/
theorem test_meets_bad_addresses :
    let s := serving (core3 0 0 0)
    let core := pkt 1 0 0x1FFFFD (bits [(160, 4), (256, 0x1FFFFD)]) four
    let top := (s.stack 0).usableTop
    let past := pkt 1 0x2000 (top - 2) (bits [(160, 4), (256, top - 2)]) four
    let other := pkt 1 0x2000 (2 ^ 35) (bits [(160, 4), (256, 2 ^ 35)]) four
    ∀ x ∈ [core, past, other], reaches s 1 x ∧ admits s x ∧ s.writeRefusal x = some 2 ∧
      (x = core → epCore x.destEp.toNat = true ∧ s.physOf x.destEp.toNat = some 0) ∧
      (x = past → epMem x.destEp.toNat = true ∧ devSetting (mOffset x.fields.toNat) = x.destEp.toNat - 0x2000) ∧
      (x = other → devSetting (mOffset x.fields.toNat) ≠ x.destEp.toNat - 0x2000) := by
  decide +kernel

/-- WritesLandAtTheirTarget: a packet of a message that has been answered. -/
theorem test_meets_duplicate :
    let s := { serving (core3 0 0 0) with dups := [{ srcNode := 0, msgId := 7, status := 0 }] }
    let x := pkt 1 0 0 (bits [(160, 4)]) four
    Arrives s 1 none x ∧ (s.endpointHeld x.destEp.toNat = false ∧ s.heldBySwap x = false ∧
      (s.dupOf x.srcNode.toNat x.msgId.toNat).isSome = true) :=
  ⟨arrives_of_reaches (by decide +kernel), by decide +kernel⟩

/-- Core 0 with its queue 0 of two 64-byte slots, of a mode, with `es` entries. -/
def slots (mode : Nat) (es : List Nat) : Core :=
  { core3 0 0 0 with queues := [(0, { Queue.fresh with mode := mode, base := 0x10000, slotLog2 := 6, countLog2 := 1, srcEp := 1, entries := es })] }

/-- A SEND of `n` bytes, credited or not. -/
def sendOf (n credited : Nat) : Packet := pkt 3 0 0 (bits [(160, n), (188, credited)]) four

/-- A SEND that arrives and is admitted by core 0. -/
abbrev comes (s : State) (p : Packet) : Prop :=
  reaches s 3 p ∧ admits s p ∧ epCore p.destEp.toNat = true ∧ s.physOf p.destEp.toNat = some 0

/-- SendsAndCredits: a disabled queue, and a bound one without a credit. -/
theorem test_meets_sends_barred :
    (comes (serving (slots 0 [])) (sendOf 4 0) ∧ ((slots 0 []).queue 0).mode = 0) ∧
    (comes (serving (slots 2 [])) (sendOf 4 0) ∧ ((slots 2 []).queue 0).mode = 2 ∧ bit (sendOf 4 0).fields.toNat 188 = false) := by
  decide +kernel

/-- SendsAndCredits: a message one byte too long, and a full queue. -/
theorem test_meets_sends_refused :
    (comes (serving (slots 1 [])) (sendOf 49 0) ∧ 2 ^ 6 - 16 < mLen (sendOf 49 0).fields.toNat) ∧
    (comes (serving (slots 1 [0x10000, 0x10040])) (sendOf 48 0) ∧ mLen (sendOf 48 0).fields.toNat ≤ 2 ^ 6 - 16 ∧
      ((slots 1 [0x10000, 0x10040]).queue 0).freeSlot = none) := by
  decide +kernel

/-- SendsAndCredits: a credited message that just fits the last free slot. -/
theorem test_meets_sends :
    comes (serving (slots 2 [0x10000])) (sendOf 48 1) ∧ bit (sendOf 48 1).fields.toNat 188 = true ∧ mLen (sendOf 48 1).fields.toNat ≤ 2 ^ 6 - 16 ∧
    ((slots 2 [0x10000]).queue 0).srcNode = 0 ∧ ((slots 2 [0x10000]).queue 0).srcEp = (sendOf 48 1).srcEp.toNat ∧
    ((slots 2 [0x10000]).queue 0).freeSlot = some 1 ∧ ((slots 2 [0x10000]).queue 0).event = false := by
  decide +kernel

/-- SendsAndCredits: the first entry of a queue that posts a record. -/
theorem test_meets_sends_posted :
    let k := { core3 0 0 0 with
                queues := [(0, { (slots 1 []).queue 0 with event := true }), (16, { Queue.fresh with mode := 1, base := 0x20000, slotLog2 := 5, countLog2 := 4 })] }
    comes (serving k) (sendOf 48 0) ∧ (k.queue 0).mode = 1 ∧ mLen (sendOf 48 0).fields.toNat ≤ 2 ^ 6 - 16 ∧ (k.queue 0).freeSlot = some 0 ∧
    (k.queue 0).event = true ∧ (k.queue 0).entries = [] ∧ (k.queue 16).freeSlot = some 0 := by
  decide +kernel

/-- SendsAndCredits: a core with no message descriptor started, with and without the entry of the return. -/
theorem test_meets_credits :
    (Holds (at0 (credited 3)) 0 0 ∧ (credited 3).ops = [] ∧ ((credited 3).credit 0).map (fun x => (x.node, x.ep)) = some (0, 1)) ∧
    (Holds (run3 0 0 0) 0 0 ∧ (core3 0 0 0).ops = [] ∧ (core3 0 0 0).credit 0 = none) := by
  unfold Holds; decide +kernel

/-- ReadsAreAnswered: a GET from a core in and beyond its scratchpad, and one from a stack. -/
theorem test_meets_reads :
    let s := serving (core3 0 0 0)
    let x := fun ep off => pkt 2 ep off (bits [(160, 64)]) four
    let asks := fun p => reaches s 2 p ∧ p.srcNode.toNat = s.node ∧ s.endpointHeld p.destEp.toNat = false ∧ s.heldBySwap p = false ∧
      s.accepts p.fields.toNat 2 p.destEp.toNat = true ∧ 0 < mLen p.fields.toNat ∧ mLen p.fields.toNat ≤ 1024
    (asks (x 0 0x1FFFC0) ∧ spRange 0x1FFFC0 64 = true ∧ s.physOf 0 = some 0 ∧ epCore 0 = true) ∧
    (asks (x 0 0x1FFFC1) ∧ spRange 0x1FFFC1 64 = false) ∧
    (asks (x 0x2000 64) ∧ epMem 0x2000 = true ∧ devSetting 64 = 0 ∧ (s.stack 0).readable (devOffset 64) 64 = true ∧
      (s.hbmRead 0 (devOffset 64) 64).2 = some (List.replicate 64 0)) := by
  decide +kernel

/-- A stack that holds a shard of 64 bytes and its header, generation 5, at 0x1000 (R284). -/
def shards : State :=
  { serving (core3 0 0 0) with
    hbms := [(0, { Stack.fresh with accepting := true, training := false,
                                      mem := Mem.zero.writeN 0x1000 (leBytes 64 (bits [(0, 0x5AD0), (64, 5), (128, 64)])) })] }

/-- ReadsAreAnswered: a GATHER of the whole shard, with its generation right and wrong. -/
theorem test_meets_shards :
    let x := fun gen => pkt 0x20 0x2000 0x1000 (bits [(150, 1), (160, 64), (352, gen)]) four
    let hb := leBytes 64 (bits [(0, 0x5AD0), (64, 5), (128, 64)])
    let asks := fun p => reaches shards 0x20 p ∧ p.srcNode.toNat = shards.node ∧ shards.endpointHeld p.destEp.toNat = false ∧
      shards.heldBySwap p = false ∧ epMem p.destEp.toNat = true ∧ shards.settingFenced 0 = false ∧ devSetting p.offset.toNat = 0 ∧
      (shards.stack 0).writable 0x1000 64 = true ∧ mLen p.fields.toNat = 64 ∧ (shards.hbmRead 0 0x1000 64).2 = some hb ∧
      fld p.fields.toNat 448 40 + 64 ≤ fld (leNat hb) 128 40 ∧ (shards.stack 0).writable 0x1040 64 = true
    (asks (x 5) ∧ fld (leNat hb) 64 32 = fld (x 5).fields.toNat 352 32 ∧
      ((shards.hbmRead 0 0x1000 64).1.hbmRead 0 0x1040 64).2 = some (List.replicate 64 0)) ∧
    (asks (x 6) ∧ bit (x 6).fields.toNat 150 = true ∧ fld (leNat hb) 64 32 ≠ fld (x 6).fields.toNat 352 32) := by
  decide +kernel

/-- A GET of four bytes to 0x100 that core 0 has outstanding. -/
def getMsg : OutMsg :=
  { someMsg with owner := 0, item := { someMsg.item with head := pkt 2 0 0 (bits [(160, 4)]) [], length := 4, dst := some 0x100 } }

/-- Its descriptor. -/
def getOp : MseOp := { mseOp 0 2 .plain with msgs := [(7, 0)] }

/-- Core 0 with that GET as message 7. -/
def reading : State := { at0 { core3 0 0 0 with ops := [getOp] } with msgs := [(7, getMsg)] }

/-- AnswersEndMessages: answers to no message, BUSY and RETRY. -/
theorem test_meets_answers :
    (reaches ready 0xF0 (pkt 0xF0 0 0 0 four) ∧ reaches ready 0x80 (pkt 0x80 0 0 0 four) ∧ look 7 ready.msgs = none) ∧
    (reaches reading 0xF1 (pkt 0xF1 0 0 0 four) ∧ reaches reading 0xF2 (pkt 0xF2 0 0 0 four) ∧ look 7 reading.msgs = some getMsg) := by
  decide +kernel

/-- AnswersEndMessages: the descriptor that waits for its one message. -/
theorem test_meets_answered_op :
    getMsg.owner < 65536 ∧ getMsg.item.head.mcast = false ∧ (reading.core getMsg.owner).ops = [getOp] ∧ getOp.no = getMsg.opNo ∧
    getOp.msgs = [(7, getMsg.item.group)] ∧ getOp.todo = [] ∧ getOp.kind = .plain ∧ getOp.fin = false ∧ getOp.status = 0 ∧
    mStatusEn getOp.desc = false ∧ bit getOp.desc 66 = false := by
  decide +kernel

/-- AnswersEndMessages: a completion, and the data of the read. -/
theorem test_meets_answer_ends :
    (reaches reading 0xF0 (pkt 0xF0 0 0 0 [0, 0, 0, 0]) ∧ fld (leNat ((pkt 0xF0 0 0 0 [0, 0, 0, 0]).payload.take 4)) 0 8 = 0 ∧
      (reading.msgs.map Prod.fst).Nodup) ∧
    (reaches reading 0x80 (pkt 0x80 0 0 0 four) ∧ getMsg.item.head.op = 2 ∧ getMsg.item.dst = some 0x100 ∧ getMsg.landed = [] ∧
      getMsg.item.length ≤ 1024 ∧ (pkt 0x80 0 0 0 four).payload.length = getMsg.item.length ∧
      (pkt 0x80 0 0 0 four).offset = getMsg.item.head.offset ∧ reading.engineHeld getMsg.owner 2 = false ∧
      ∀ y ∈ reading.msgs, getMsg.no ≤ y.2.no) := by
  decide +kernel

/-- AnswersEndMessages: no other core has a descriptor started. -/
theorem test_meets_answers_alone : ∀ q, q ≠ 0 → (reading.core q).ops = [] := by
  intro q h
  have : look q reading.cores = none := by
    show look q [(0, _)] = none
    simp [look, Ne.symm h]
  rw [State.core, this]
  rfl

/-- A message with a PUT. -/
def putMsg : OutMsg := { someMsg with item := { someMsg.item with head := { blank with op := 1 } } }

/-- A package with one message that waits and one that does not, and a context of the message 7 of node 0. -/
def timed (held : Bool) (retries : Nat) : State :=
  { ready with msgs := [(7, { putMsg with held := held, retries := retries })],
               reorders := [{ srcNode := 0, msgId := 7, destEp := 0, channel := 0, landed := [0], slot := none, fence := none }] }

/-- MessageTimers: a message that waits, one that does not, one with its last retry left and one with none; a context and none. -/
theorem test_meets_timers :
    (look 7 (timed true 0).msgs = some { putMsg with held := true } ∧ (timed true 0).noRoute putMsg.item.head = false ∧ putMsg.item.source = none ∧ isLocal putMsg.item.head = false) ∧
    (look 7 (timed false 2).msgs = some { putMsg with retries := 2 } ∧ 2 < (timed false 2).get Key.msgRetries ∧
      (timed false 2).noRoute putMsg.item.head = false) ∧
    (look 7 (timed false 3).msgs = some { putMsg with retries := 3 } ∧ (timed false 3).get Key.msgRetries ≤ 3) ∧
    (∀ c ∈ (timed true 0).reorders, c.srcNode = 0 ∧ c.msgId = 7) ∧ ready.reorders = [] := by
  decide +kernel

/-- MessageTimers: no descriptor has a message still to start. -/
theorem test_meets_timers_none_waits : ∀ q, ∀ o ∈ ((timed false 3).core q).ops, o.todo = [] := by
  intro q o h
  cases h

/-- A package whose route to X = 1 leaves by the X plus port, port 0, with its link 0 up. -/
def routed : State :=
  withEntries [(Key.axisSizes, 0x01010102), (Key.axisRoute 0 0 1, 5)] { ready with links := [(0, { LinkState.fresh with st := 5, nbState := 5 })] }

/-- TransitPackets: a fenced port, no table, no hop left, one that has arrived, one with no route, and one that goes on. -/
theorem test_meets_transit :
    let x := { pkt 1 0 0 0 four with destNode := 1, hopsLeft := 1 }
    ((withEntries [(Key.portFence 0, 1)] ready).fenced 0 0 = true) ∧ (ready.fenced 1 0 = false ∧ ready.tableState 1 = 0) ∧
    (ready.fenced 0 0 = false ∧ ready.tableState 0 ≠ 0 ∧ { x with hopsLeft := 0 }.hopsLeft = 0 ∧ ready.isOwn x.destNode.toNat = false) ∧
    (ready.upDown = false ∧ x.mcast = false ∧ x.detour = 0 ∧ (pkt 1 0 0 0 four).destNode.toNat = ready.node ∧ opReserved 1 = false ∧ opReserved 0x81 = true) ∧
    (coord 1 0 ≠ coord ready.node 0 ∧ x.hopsLeft ≠ 0 ∧ ready.exceptionFor 0 1 = none ∧ bit (ready.get (Key.axisRoute 0 0 1)) 2 = false) ∧
    (routed.fenced 0 0 = false ∧ routed.tableState 0 ≠ 0 ∧ routed.upDown = false ∧ routed.exceptionFor 0 1 = none ∧
      bit (routed.get (Key.axisRoute 0 0 1)) 2 = true ∧ coord 1 0 < routed.axisSize 0 ∧ fld (routed.get (Key.axisRoute 0 0 1)) 0 2 = 0 + 1 ∧
      routed.portFor 0 0 0 = some 0 ∧ routed.usable 0 0 = true) := by
  decide +kernel

/-- TransitPackets: a packet that stalls on a detour channel, one that waits on another, and two settings that are neighbours. -/
theorem test_meets_stalls :
    (∃ w, { ready with waiting := [(0, 2, blank, blank, .none)] }.waiting[0]? = some w ∧ w.2.1 % 3 = 2) ∧
    (∀ w, { ready with waiting := [(0, 1, blank, blank, .none)] }.waiting[0]? = some w → w.2.1 % 3 ≠ 2) ∧
    (meshAdjacent 0 1 = true ∧ (min 0 1, max 0 1) ∉ ready.meshOut) := by
  refine ⟨⟨_, rfl, rfl⟩, fun w h => ?_, by decide +kernel⟩
  cases h
  decide

/-- A state whose packets are answered: no core beside core 0, stack 0 accepting, no message known. -/
abbrev quietFor (s : State) (p : Packet) : Prop := reaches s 1 p ∧ admits s p ∧ p.srcNode.toNat = s.node ∧ epCore p.srcEp.toNat = true

/-- A PUT of a command record to Troy unit 0. -/
def troyCmd (r : Nat) : Packet := pkt 1 0x2100 0 (bits [(160, 128)]) (leBytes 128 r)

/-- The package with Troy unit 0 and the sequencer as named. -/
def troyState (t : Troy) (q : Sequencer) : State := { serving (core3 0 0 0) with troys := [(0, t)], seq := q }

/-- A Troy unit with `n` commands queued. -/
def queuedTroy (n : Nat) : Troy := { Troy.fresh with queue := List.replicate n 3 }

/-- TroyCommandsArrive: an UPDATE and a LEDGER_SET, with the last place of the queue free and with none. -/
theorem test_meets_troy_queue :
    ∀ c ∈ [1, 3],
      (quietFor (troyState (queuedTroy 63) Sequencer.fresh) (troyCmd c) ∧ isTroyCmd (troyCmd c) c = true ∧
        ((troyState (queuedTroy 63) Sequencer.fresh).troy 0).queue.length < 64 ∧ mNotify (troyCmd c).fields.toNat = false ∧
        epTroy (troyCmd c).destEp.toNat = true ∧ (troyState (queuedTroy 63) Sequencer.fresh).settingFenced 0 = false) ∧
      (quietFor (troyState (queuedTroy 64) Sequencer.fresh) (troyCmd c) ∧
        64 ≤ ((troyState (queuedTroy 64) Sequencer.fresh).troy 0).queue.length) := by
  decide +kernel

/-- A PUT of program slot 1. -/
def progPut : Packet := pkt 1 0x2100 0x10080 (bits [(160, 128)]) (List.replicate 128 0)

/-- A PUT of constant table 1. -/
def tablePut : Packet := pkt 1 0x2100 0x20100 (bits [(160, 256)]) (List.replicate 256 0)

/-- A Troy unit that runs an UPDATE of slot 1 and table 1. -/
def busyTroy : Troy := { Troy.fresh with queue := [bits [(0, 1), (8, 1), (16, 1)]], running := some 0 }

/-- TroyCommandsArrive: a program PUT and a table PUT arrive and are admitted, their CRCs as formed. -/
theorem test_meets_troy_tables (t : Troy) (h : t = Troy.fresh ∨ t = busyTroy) :
    let s := troyState t Sequencer.fresh
    (Arrives s 1 none progPut ∧ Admitted s progPut ∧ troyPutKind progPut = some 1) ∧
    (Arrives s 1 none tablePut ∧ Admitted s tablePut ∧ troyPutKind tablePut = some 2) := by
  have crc : ∀ p : Packet, packetCrc (sealed p) = (sealed p).crc.toNat := packetCrc_sealed
  intro s
  refine ⟨⟨arrives_of_reaches ⟨?_, ?_, ?_, rfl, ?_, crc _, ?_, ?_⟩, admitted_of_admits ?_, ?_⟩,
    arrives_of_reaches ⟨?_, ?_, ?_, rfl, ?_, crc _, ?_, ?_⟩, admitted_of_admits ?_, ?_⟩ <;>
  (rcases h with rfl | rfl) <;> decide +kernel

/-- TroyCommandsArrive: the slots are free in a fresh unit, and in use in a busy one. -/
theorem test_meets_troy_uses :
    Troy.fresh.uses progPut = false ∧ Troy.fresh.uses tablePut = false ∧ busyTroy.uses progPut = true ∧ busyTroy.uses tablePut = true := by
  decide +kernel

/-- A COMMIT of step 6 that writes its record to 0x40 of core 0. -/
def rCommit : Nat := bits [(0, 2), (32, 6), (144, 9), (160, 0x40)]

/-- The sequencer with a step open, the last release as named. -/
def stepSeq (isOpen : Bool) (step : Nat) (released : Option Nat) : Sequencer :=
  { Sequencer.fresh with isOpen := isOpen, step := step, released := released }

/-- TroyCommandsArrive: a COMMIT of a released step, of the open one, with none open, of the next one, and of a later one. -/
theorem test_meets_commits :
    let r := leNat (troyCmd rCommit).payload
    (∀ q ∈ [stepSeq true 7 (some 6), stepSeq true 6 none, stepSeq false 0 none, stepSeq true 5 none, stepSeq true 4 none],
      quietFor (troyState Troy.fresh q) (troyCmd rCommit) ∧ (troyState Troy.fresh q).physOf (tCore r) = some 0) ∧
    isTroyCmd (troyCmd rCommit) 2 = true ∧ tRerun r = false ∧ tResult r % 32 = 0 ∧
    (stepSeq true 7 (some 6)).released = some (tStep r) ∧ (stepSeq true 6 none).released ≠ some (tStep r) ∧
    (stepSeq true 6 none).step = tStep r ∧ (stepSeq true 5 none).step = (tStep r + 2 ^ 32 - 1) % 2 ^ 32 ∧
    (stepSeq true 4 none).step ≠ tStep r ∧ (stepSeq true 4 none).step ≠ (tStep r + 2 ^ 32 - 1) % 2 ^ 32 := by
  decide +kernel

/-- An UPDATE of step 6, one block of bucket 2 with ledger entry 0, verdict 1, with its record to 0x40 of core 0. -/
def rUpdate : Nat := bits [(0, 1), (24, 1), (32, 6), (64, 2), (96, 1), (144, 9), (160, 0x40)]

/-- A package whose Troy unit 0 has a command at its head, idle or with its status found; its ledger entry 0 says step 6, bucket 2. -/
def troyRuns (r : Nat) (running : Option Nat) (released : Option Nat) : State :=
  let s := troyState { Troy.fresh with queue := [r], running := running } (stepSeq true 6 released)
  let x := s.stack 0
  { s with hbms := [(0, { x with mem := Mem.zero.writeN x.ledgerBase (leBytes 8 (bits [(0, 6), (32, 2), (63, 1)])) })] }

/-- TroyCommandsRun: a LEDGER_SET, an UPDATE of the released step, of an earlier one, and one that waits. -/
theorem test_meets_troy_starts :
    (∀ s ∈ [troyRuns 3 none none, troyRuns rUpdate none (some 6), troyRuns rUpdate none (some 7), troyRuns rUpdate none none],
      s.troyOpen 0 = true ∧ (s.troy 0).running = none ∧ (s.troy 0).queue ≠ []) ∧
    tCmd 3 = 3 ∧ tCmd rUpdate ≠ 3 ∧ tStep rUpdate = 6 ∧ (7 ≠ tStep rUpdate ∧ reached 7 ((tStep rUpdate + 1) % 2 ^ 32) = true) ∧
    (troyRuns rUpdate none none).seq.released = none := by
  decide +kernel

/-- TroyCommandsRun: a command refused at its start, a LEDGER_SET, and an UPDATE whose block its ledger skips. -/
theorem test_meets_troy_ends :
    let rSet := bits [(0, 3), (144, 9), (160, 0x40)]
    (∀ s ∈ [troyRuns rUpdate (some 1) none, troyRuns rSet (some 0) none, troyRuns rUpdate (some 0) (some 6)],
      s.troyOpen 0 = true ∧ (s.troy 0).heldPuts = [] ∧ s.physOf 0 = some 0) ∧
    tResult rUpdate % 32 = 0 ∧ tCore rUpdate = 0 ∧ tCmd rSet = 3 ∧
    (let s := troyRuns rUpdate (some 0) (some 6)
     tCmd rUpdate = 1 ∧ tVerdict rUpdate ≠ 0 ∧ 1 ≤ tCount rUpdate ∧ tCount rUpdate ≤ 4096 ∧
      (s.hbmRead 0 (s.ledgerAt 0 (tLedger rUpdate)) 8).2 = some (leBytes 8 (bits [(0, 6), (32, 2), (63, 1)])) ∧
      bit (bits [(0, 6), (32, 2), (63, 1)]) 63 = true ∧ fld (bits [(0, 6), (32, 2), (63, 1)]) 32 16 = tBucket rUpdate ∧
      fld (bits [(0, 6), (32, 2), (63, 1)]) 0 32 = tStep rUpdate ∧ ∀ w ∈ (s.stack 0).wcb, s.troyWho 0 ∉ w.writers) := by
  decide +kernel

/-- TroyCommandsRun: an UPDATE of one element whose verdict is CLEAN, its ledger entry of the step before. -/
theorem test_meets_troy_block :
    let r := bits [(0, 1), (32, 7), (64, 2), (96, 1), (144, 9), (160, 0x40), (224, 0x10000), (272, 0x20000), (512, 0x40000)]
    let s := troyRuns r (some 0) (some 7)
    let l := s.hbmRead 0 (s.ledgerAt 0 (tLedger r)) 8
    s.troyOpen 0 = true ∧ (s.troy 0).heldPuts = [] ∧ s.physOf 0 = some 0 ∧ s.coreHeld 0 = false ∧ tCmd r = 1 ∧ tVerdict r = 0 ∧ tCount r = 1 ∧
    l.2 = some (leBytes 8 (bits [(0, 6), (32, 2), (63, 1)])) ∧ fld (bits [(0, 6), (32, 2), (63, 1)]) 32 16 = tBucket r ∧
    fld (bits [(0, 6), (32, 2), (63, 1)]) 0 32 = (tStep r + 2 ^ 32 - 1) % 2 ^ 32 ∧
    ((l.1.readBlock 0 r 0 (tCount r) 0 (s.troyProgram 0 r)).2).isSome = true := by
  decide +kernel

/-- A stack with a partial line buffered and one symbol error in another line. -/
def buffered : State :=
  { serving (core3 0 0 0) with
    hbms := [(0, { Stack.fresh with accepting := true, training := false, wcb := [{ line := 5, bytes := [(0, 1)], writers := [0] }],
                                      errors := [(6, [(0, 1)])] })] }

/-- A package whose step 6 has every bucket finished and one COMMIT armed. -/
def releasing : State :=
  { ready with seq := stepSeq true 6 none, commits := [{ setting := 0, cmd := rCommit, armed := true }] }

/-- ControllersAndBarrier: no entry, an entry; no scrub, a line in order and one to correct; a barrier not due and due. -/
theorem test_meets_controllers :
    (buffered.stack 0).entryOf 6 = none ∧
    ((buffered.stack 0).entryOf 5 = some { line := 5, bytes := [(0, 1)], writers := [0] } ∧ (buffered.stack 0).lineErrors 5 = [] ∧
      (buffered.stack 0).down.contains ((buffered.stack 0).place 5).1 = false) ∧
    (withEntries [(Key.scrubPeriod, 0)] buffered).get Key.scrubPeriod = 0 ∧
    (buffered.packageHeld = false ∧ buffered.get Key.scrubPeriod ≠ 0 ∧ buffered.controllerOpen 0 = true ∧ 64 * 6 < (buffered.stack 0).capacity ∧
      (buffered.stack 0).lineErrors 6 = [(0, 1)] ∧ (buffered.stack 0).down = []) ∧
    (ready.seq.isOpen = false) ∧
    (releasing.seq.isOpen = true ∧ releasing.seq.unfinished = false ∧
      ∃ c ∈ releasing.commits, c.armed = true ∧ tStep c.cmd = releasing.seq.step) := by
  decide +kernel

/-- A frame with its CRC formed. -/
def sealFrame (f : Frame) : Frame := { f with crc := BitVec.ofNat 32 (crcIeee (frameBytes f)) }

/-- A frame with its CRC formed holds it. -/
theorem sealFrame_crc (f : Frame) : crcIeee (frameBytes (sealFrame f)) = (sealFrame f).crc.toNat := by
  show crcIeee (frameBytes f) = (BitVec.ofNat 32 (crcIeee (frameBytes f))).toNat
  rw [BitVec.toNat_ofNat]
  exact (Nat.mod_eq_of_lt (crc32_lt (poly := 0xEDB88320) (by decide) _)).symm

/-- A DATA frame with a SEQ and two bytes on VC 3. -/
def dataFrame (seq : BitVec 16) : Frame := sealFrame { blankFrame with seq := seq, vc := 3, bodyLen := 2, body := [1, 2] }

/-- An IDLE frame that returns credits. -/
def idleFrame : Frame := sealFrame { blankFrame with ftype := 1, creditVc := 2, credits := 5 }

/-- A CONTROL frame with a body. -/
def controlFrame (body : List Byte) : Frame := sealFrame { blankFrame with ftype := 2, body := body }

/-- A neighbour's record, of serial 9 and the family's version 1. -/
def nbOf (s : State) : NbRecord := { s.nbRecord 0 0 with serial := 9, major := BitVec.ofNat 8 (s.get Key.xflVersion / 256) }

/-- The package with link 0 in a state, waiting for SEQ 5. -/
def linked (st : Nat) : State := { ready with links := [(0, { LinkState.fresh with st := st, expect := 5 })] }

/-- Its links have nothing to send. -/
theorem linked_txq (st : Nat) : ∀ j, ((linked st).link j).txq = [] := by
  intro j
  unfold State.link linked
  simp only [look]
  split <;> rfl

/-- What makes a frame good, but for its CRC. -/
abbrev goodBody (f : Frame) : Prop :=
  (f.ftype != 3 && decide (f.body.length ≤ 240) && (f.ftype != 0 || (decide (f.vc.toNat ≤ 11) && decide (1 ≤ f.bodyLen.toNat)
    && decide (f.bodyLen.toNat ≤ 240) && decide (f.bodyLen.toNat ≤ f.body.length)))) = true

theorem frameOk_of_good {f : Frame} (h : goodBody (sealFrame f)) : frameOk (sealFrame f) = true := by
  have c := sealFrame_crc f
  simp only [goodBody, Bool.and_eq_true] at h
  simp only [frameOk, Bool.and_eq_true, beq_iff_eq]
  exact ⟨⟨⟨c, h.1.1⟩, h.1.2⟩, h.2⟩

/-- FramesReceived: a trained link; a bad frame; good DATA, IDLE and CONTROL frames. -/
theorem test_meets_frames :
    (frameOk { dataFrame 5 with vc := 12, crc := 0 } = false ∧ frameOk { idleFrame with body := List.replicate 241 0 } = false) ∧
    (frameOk (dataFrame 5) = true ∧ frameOk (dataFrame 4) = true ∧ frameOk (dataFrame 6) = true) ∧ frameOk idleFrame = true ∧
    frameOk (controlFrame (stateBody 5 1)) = true ∧ frameOk (controlFrame (timeBody ⟨1, true, 2, 3, 4, 9⟩)) = true ∧
    frameOk (controlFrame (nbBody (nbOf (linked 4)))) = true := by
  refine ⟨⟨?_, ?_⟩, ⟨frameOk_of_good ?_, frameOk_of_good ?_, frameOk_of_good ?_⟩, frameOk_of_good ?_, frameOk_of_good ?_, frameOk_of_good ?_,
    frameOk_of_good ?_⟩ <;> decide +kernel

/-- FramesReceived: each of those control frames with its CRC damaged. -/
theorem test_meets_damaged_frames :
    ∀ body ∈ [stateBody 5 1, timeBody ⟨1, true, 2, 3, 4, 9⟩, nbBody (nbOf (linked 4))],
      frameOk { controlFrame body with crc := (controlFrame body).crc + 1 } = false ∧ (controlFrame body).ftype = 2 := by
  intro body _
  have n : ∀ v : BitVec 32, v.toNat ≠ (v + 1).toNat := by
    intro v h
    have l := v.isLt
    rw [BitVec.toNat_add, show (1 : BitVec 32).toNat = 1 from rfl] at h
    omega
  have e : crcIeee (frameBytes { controlFrame body with crc := (controlFrame body).crc + 1 }) ≠ ((controlFrame body).crc + 1).toNat := by
    show crcIeee (frameBytes (controlFrame body)) ≠ _
    rw [show crcIeee (frameBytes (controlFrame body)) = (controlFrame body).crc.toNat from sealFrame_crc { blankFrame with ftype := 2, body := body }]
    exact n _
  simp only [frameOk, Bool.and_eq_false_iff, beq_eq_false_iff_ne]
  exact ⟨.inl (.inl (.inl e)), rfl⟩

/-- FramesReceived: what the bodies of those control frames say. -/
theorem test_meets_control_bodies :
    (ctypeOf (stateBody 5 1) = 2 ∧ stateRead (stateBody 5 1) = (5, 1)) ∧
    (let b : TimeBody := ⟨1, true, 2, 3, 4, 9⟩
     ctypeOf (timeBody b) = 3 ∧ timeRead (timeBody b) = b) ∧
    ctypeOf (nbBody (nbOf (linked 4))) = 1 ∧ nbRead (nbBody (nbOf (linked 4))) = nbOf (linked 4) := by
  decide +kernel

/-- FramesReceived: the SEQ expected, the one before and the one after; the records and states of each control frame. -/
theorem test_meets_frame_states :
    let below := fun f : Frame => (((linked 5).link 0).expect + 65536 - f.seq.toNat) % 65536
    ((linked 5).packageHeld = false ∧ 3 ≤ ((linked 5).link 0).st ∧ (linked 5).waiting = [] ∧ ((linked 5).link 0).st = 5) ∧
    (below (dataFrame 5) = 0 ∧ below (dataFrame 4) = 1 ∧ 256 < below (dataFrame 6)) ∧
    ((dataFrame 5).nak = false ∧ (dataFrame 5).ftype = 0 ∧ idleFrame.ftype = 1 ∧ (controlFrame []).ftype = 2) ∧
    ((linked 5).portOf 0 = some 0) ∧
    (((linked 4).link 0).st = 4 ∧ (linked 4).portOf 0 = some 0 ∧ (nbOf (linked 4)).major.toNat = (linked 4).get Key.xflVersion / 256 ∧
      (∀ o ∈ (linked 4).otherRecords 0 0, o.serial = (nbOf (linked 4)).serial) ∧ (linked 4).loopback 0 (nbOf (linked 4)) = false ∧
      (linked 4).expected 0 (nbOf (linked 4)) = true) := by
  decide +kernel

/-- LinkEvents: a link in each state that an event asks for, its port enabled and not, and frames to send again. -/
theorem test_meets_link_events :
    (∀ st ∈ [0, 1, 2, 3, 4, 5, 6, 7], (linked st).portOf 0 = some 0 ∧ ((linked st).link 0).st = st) ∧
    (withEntries [(Key.portEnable 0, 1)] (linked 1)).portEnabled 0 = true ∧ (withEntries [(Key.portEnable 0, 0)] (linked 1)).portEnabled 0 = false ∧
    ((linked 5).activeLinks 0).head? = some 0 ∧ ((linked 5).link 0).replay = [] ∧
    ({ linked 5 with links := [(0, { LinkState.fresh with st := 5, replay := [(blankFrame, [])] })] }.link 0).replay ≠ [] := by
  decide +kernel

/-- The package with its table versions in the states named. -/
def tabled (a b : Nat) : State := withEntries [(Key.tableState 0, a), (Key.tableState 1, b)] ready

/-- ManagementWrites: each table command with its condition met and not, either version. -/
theorem test_meets_tables :
    (ready.leadAnswers = true ∧ ready.get Key.pkgState = 1) ∧
    (∀ v : Fin 2, let s := if v = 0 then tabled 0 2 else tabled 2 0; s.leadAnswers = true ∧ s.get Key.pkgState = 1 ∧ s.tableState v.val = 0 ∧
      s.tableState (1 - v.val) = 2) ∧
    (∀ v : Fin 2, let s := if v = 0 then tabled 1 2 else tabled 2 1; s.tableState v.val = 1 ∧ s.tableState (1 - v.val) ≠ 1 ∧ s.ctxWaiters = [] ∧ (∀ x ∈ s.colls, x.2.fail = none) ∧
      s.resident v.val = 0) ∧
    (∀ v : Fin 2, let s := if v = 0 then tabled 3 2 else tabled 2 3; s.tableState v.val = 3 ∧ s.tableState (1 - v.val) ≠ 3 ∧ s.resident v.val = 0) ∧
    ((tabled 2 3).tableIn 0 = none ∧ (tabled 2 3).tableIn 1 = none ∧ (tabled 2 0).tableIn 3 = none) := by
  decide +kernel

/-- ManagementWrites: a version of which a packet has come in, DRAINING and SEALED, and a version beside a SEALED and a DRAINING one. -/
theorem test_meets_tables_refused :
    (∀ v : Fin 2, ∀ st ∈ [1, 3],
      let s := { (if v = 0 then tabled st 2 else tabled 2 st) with inbound := [(0, { blank with epoch := v = 1 })] }
      s.leadAnswers = true ∧ s.resident v.val ≠ 0 ∧ s.tableState v.val = st ∧ s.tableState (1 - v.val) ≠ st) ∧
    (∀ v : Fin 2, ∀ st ∈ [1, 3], let s := if v = 0 then tabled 0 st else tabled st 0
      s.tableState v.val = 0 ∧ s.tableState (1 - v.val) ≠ 0 ∧ s.tableState (1 - v.val) ≠ 2) := by
  decide +kernel

/-- ManagementWrites: a port that is idle and its masks, the values of the small entries, jobs, and an entry due for the flash. -/
theorem test_meets_management :
    let s := withEntries [(Key.portEnable 15, 0)] ready
    (s.leadAnswers = true ∧ s.get Key.pkgState = 1 ∧ s.portIdle 15 = true ∧ s.linkMaskOk 15 0 = true) ∧
    ((withEntries [(Key.portLinkMask 7, 0)] s).linkMaskOk 15 0xF0000000 = true) ∧
    ((4 : BitVec 8).toNat ≤ 4 ∧ (1 : BitVec 8).toNat ≤ 1 ∧ ready.get Key.jobState = 0 ∧
      (withEntries [(Key.jobState, 1)] ready).get Key.jobState = 1) ∧
    (look 0x123 ready.flashDue = none ∧ look 0x123 { ready with flashDue := [(0x123, some 0)] }.flashDue ≠ none) := by
  decide +kernel

/-- An open session of peer 0 that expects SEQ 1. -/
def hostX : Session :=
  { peer := 0, nonce := [], hash := [], key := List.replicate 64 7, welcome := [], hostKey := [], finished := true, maxData := 1024, txSeq := 1,
    rxAck := 1, rxSack := 0, unacked := [], waiting := [], ackDue := false, ceSeen := false, rate := 1000000000, lastCut := none, fastAt := [],
    ended := [] }

/-- The package with that session as session 0. -/
def hosted (x : Session) (s : State) : State := s.setSession 0 x

/-- A packet of a type with SEQ 1 and no TAG. -/
def untagged (type : Nat) (payload : List Byte) : ChpHead :=
  { blankHead with type := BitVec.ofNat 8 type, len := BitVec.ofNat 16 payload.length, seq := 1 }

/-- The next packet of that session: its SEQ is the one expected, its TAG the right one. -/
def headFor (type : Nat) (payload : List Byte) : ChpHead :=
  { untagged type payload with tag := BitVec.ofNat 128 (chpTag (hostX.key.take 32) (headBytes (untagged type payload) 0) payload) }

/-- The state with that packet's SEQ received. -/
def after (s : State) : State := (s.setSession 0 hostX).setSession 0 (hostX.received 0)

theorem leNat_lt (bs : List Byte) : leNat bs < 256 ^ bs.length := by
  induction bs with
  | nil => decide
  | cons b bs ih =>
    have := b.isLt
    simp only [leNat, List.length_cons, Nat.pow_succ]
    omega

theorem chpTag_lt (key h p : List Byte) : chpTag key h p < 2 ^ 128 := by
  refine Nat.lt_of_lt_of_le (leNat_lt _) ?_
  have : (shake256 (key ++ h ++ p) 16).length ≤ 16 := by rw [shake256]; exact List.length_take_le _ _
  exact Nat.le_trans (Nat.pow_le_pow_right (by decide) this) (by decide)

/-- A packet of the open session carries the right TAG. -/
theorem tagged_of {s : State} (h : s.session 0 = some hostX) (type : Nat) (payload : List Byte) :
    s.tagged (headFor type payload) payload = some hostX := by
  have t : (headFor type payload).tag.toNat = chpTag (hostX.key.take 32) (headBytes (untagged type payload) 0) payload := by
    show (BitVec.ofNat 128 _).toNat = _
    rw [BitVec.toNat_ofNat]
    exact Nat.mod_eq_of_lt (chpTag_lt _ _ _)
  have z : (headFor type payload).session.toNat = 0 := rfl
  unfold State.tagged
  rw [z, h]
  simp only
  rw [if_pos]
  exact ⟨rfl, rfl, t.symm⟩

/-- The host port takes packets of CHP, without MACsec. -/
abbrev takesChp (s : State) : Prop := s.portOpen = true ∧ s.flag Key.macsecEnable = false ∧ s.get Key.chpUdpPort = 47000 ∧ s.get Key.hostIpv4 = 0x0A000001

/-- A frame with no SecTAG is taken in there. -/
theorem frameTaken_of {s : State} (o : s.portOpen = true) (m : s.flag Key.macsecEnable = false) {w : Wire} (g : wireGood w = true)
    (n : w.sec = none) (bytes : List Byte) : FrameTaken s w bytes := by
  refine ⟨o, g, ?_⟩
  unfold State.secGood
  rw [m, n]

/-- A packet of CHP is taken in there. -/
theorem chpTaken_of {s : State} (o : takesChp s) {head : ChpHead} {type : Nat} {payload : List Byte} (g : wireGood head.wire = true)
    (n : head.wire.sec = none) (t : head.type.toNat = type)
    (f : head.wire.port = 47000 ∧ head.magic = 0xC1D4 ∧ head.version = 1 ∧ head.len.toNat = payload.length ∧ head.dest = 0x0A000001 ∧
      head.v6 = false) :
    ChpTaken s head type payload := by
  refine ⟨frameTaken_of o.1 o.2.1 g n _, t, ?_⟩
  unfold State.framed
  rw [f.1, f.2.1, f.2.2.1, f.2.2.2.1, f.2.2.2.2.1, f.2.2.2.2.2, o.2.2.1]
  simp [o.2.2.2]

theorem session_set (s : State) (x : Session) : (s.setSession 0 x).session 0 = some x := by
  simp [State.session, State.setSession, State.updHost, look_put_self]

/-- It is taken in. -/
theorem taken_of {s : State} (o : takesChp s) (h : s.session 0 = some hostX) (type : Nat) (payload : List Byte) (y : type < 256)
    (l : payload.length < 65536) : Taken s (headFor type payload) type payload (after s) := by
  have e : s.takeHeader 0 hostX (headFor type payload) = s.setSession 0 hostX := rfl
  have d : ((headFor type payload).seq.toNat + 2 ^ 32 - hostX.rxAck) % 2 ^ 32 = 0 := by
    show ((1 : BitVec 32).toNat + 2 ^ 32 - 1) % 2 ^ 32 = 0
    decide
  refine ⟨chpTaken_of o rfl rfl ?_ ⟨rfl, rfl, rfl, ?_, rfl, rfl⟩, hostX, hostX, tagged_of h type payload, ?_, ?_, .inl d, ?_⟩
  · show (BitVec.ofNat 8 type).toNat = type
    rw [BitVec.toNat_ofNat]
    exact Nat.mod_eq_of_lt y
  · show (BitVec.ofNat 16 payload.length).toNat = payload.length
    rw [BitVec.toNat_ofNat]
    exact Nat.mod_eq_of_lt l
  · show (s.takeHeader 0 hostX (headFor type payload)).session 0 = some hostX
    rw [e]
    exact session_set s hostX
  · rw [d]
    decide
  · rw [d]
    rfl

theorem leBytes_length (n v : Nat) : (leBytes n v).length = n := by
  induction n generalizing v with
  | zero => rfl
  | succ n ih => simp only [leBytes, List.length_cons, ih]

/-- A request of it is taken in where it is not recorded or nothing is, and no replay turns it away. -/
theorem requested_of {s : State} (o : takesChp s) (h : s.session 0 = some hostX) (record : BitVec 512) (extra : List Byte)
    (l : extra.length < 65000) (r : unrecorded record.toNat = true ∨ s.host.recording.st = 0)
    (q : s.host.replay = none ∨ replayFree record.toNat = true) :
    Requested s (headFor 0x10 (leBytes 64 record.toNat ++ extra)) record extra (after s) := by
  refine ⟨after s, taken_of o h 0x10 _ (by decide) ?_, ?_, q⟩
  · rw [List.length_append, leBytes_length]
    omega
  · split
    · rfl
    · rename_i n
      have : (after s).host.recording.st = 0 := r.resolve_left n
      unfold State.recordPacket
      simp [this]

/-- The package that serves core 0, with that session open. -/
def hostReady : State := hosted hostX (serving (core3 0 0 0))

/-- Requests are taken in there. -/
theorem hostReady_requested (record : BitVec 512) (extra : List Byte) (l : extra.length < 65000) :
    Requested hostReady (headFor 0x10 (leBytes 64 record.toNat ++ extra)) record extra (after hostReady) :=
  requested_of (by decide +kernel) (session_set _ _) record extra l (.inr rfl) (.inl rfl)

/-- A good HELLO. -/
def helloHead : ChpHead := { blankHead with type := 1, len := 146, session := 0xFF, version := 1 }

/-- HostSessions: a HELLO and a FINISH are taken in. -/
theorem test_meets_handshake (s : State) (h : takesChp s) :
    ChpTaken s helloHead 1 (List.replicate 146 0) ∧ helloHead.session = 0xFF ∧
    ChpTaken s { blankHead with type := 3, len := 114 } 3 (List.replicate 114 0) :=
  ⟨chpTaken_of h rfl rfl rfl ⟨rfl, rfl, rfl, rfl, rfl, rfl⟩, rfl, chpTaken_of h rfl rfl rfl ⟨rfl, rfl, rfl, rfl, rfl, rfl⟩⟩

/-- HostSessions: a HELLO with session 0 free, and one with every session taken. -/
theorem test_meets_hello :
    let hello : List Byte := List.replicate 146 0
    let full := { ready with host := { ready.host with sessions := (List.range 64).map (fun n => (n, hostX)) } }
    (ready.portOpen = true ∧ ready.get Key.pkgState = 1 ∧ hello.length = 146 ∧ (hello.getD 88 0).toNat ≤ 3 ∧
      (∀ x ∈ ready.host.sessions, x.2.nonce ≠ (hello.drop 56).take 32) ∧ ready.session 0 = none) ∧
    (full.portOpen = true ∧ full.get Key.pkgState = 1 ∧ (∀ x ∈ full.host.sessions, x.2.nonce ≠ (hello.drop 56).take 32) ∧
      ∀ n, n < 64 → (full.session n).isSome = true) := by
  decide +kernel

/-- HostSessions: a FINISH that is right where no key is named. -/
theorem test_meets_finish :
    let s := hosted { hostX with finished := false } ready
    s.portOpen = true ∧ blankHead.version = 1 ∧ (List.replicate 114 (0 : Byte)).length = 114 ∧
    s.session blankHead.session.toNat = some { hostX with finished := false } ∧ hostX.peer = blankHead.peer ∧
    s.finishOk { hostX with finished := false } (List.replicate 114 0) = true := by
  decide +kernel

/-- HostSessions: a FINISH whose key is not the one that is named, whatever its signature. -/
theorem test_meets_finish_wrong :
    let s := withEntries [(Key.hostKeyDigest 0, 2 ^ 256)] (hosted { hostX with finished := false } ready)
    s.portOpen = true ∧ s.session 0 = some { hostX with finished := false } ∧ s.finishOk { hostX with finished := false } (List.replicate 114 1) = false := by
  refine ⟨by decide +kernel, by decide +kernel, ?_⟩
  have d : ((List.range 4).map (fun k => (withEntries [(Key.hostKeyDigest 0, 2 ^ 256)] (hosted { hostX with finished := false } ready)).get
      (Key.hostKeyDigest k))).filter (· != 0) = [2 ^ 256] := by decide +kernel
  have l : leNat (shake256 hostX.hostKey 32) < 2 ^ 256 := by
    refine Nat.lt_of_lt_of_le (leNat_lt _) ?_
    have : (shake256 hostX.hostKey 32).length ≤ 32 := by rw [shake256]; exact List.length_take_le _ _
    exact Nat.le_trans (Nat.pow_le_pow_right (by decide) this) (by decide)
  unfold State.finishOk
  simp only [d]
  have : ([2 ^ 256] : List Nat).contains (leNat (shake256 hostX.hostKey 32)) = false := by
    simp only [List.contains_cons, List.contains_nil, Bool.or_false, beq_eq_false_iff_ne]
    omega
  show (_ && ([2 ^ 256] : List Nat).contains (leNat (shake256 hostX.hostKey 32))) = false
  rw [this, Bool.and_false]

/-- HostSessions: a CLOSE and an acknowledgement taken in, one of no session, and what an acknowledgement ends. -/
theorem test_meets_close :
    Taken hostReady (headFor 4 []) 4 [] (after hostReady) ∧
    (headFor 5 []).wire = {} ∧ ready.tagged (headFor 5 []) [] = none ∧ hostReady.tagged (headFor 5 []) [] = some hostX :=
  ⟨taken_of (by decide +kernel) (session_set _ _) 4 [] (by decide) (by decide), rfl, rfl, tagged_of (session_set _ _) 5 []⟩

/-- A session with two packets sent and not acknowledged. -/
def waitingX : Session := { hostX with unacked := [(5, 0x11, [], 1, false), (6, 0x11, [], 9, false)], ackDue := true }

/-- HostSessions: sessions in each state that a timer asks for. -/
theorem test_meets_session_timers :
    ready.session 0 = none ∧ hostReady.session 0 = some hostX ∧ hostX.finished = true ∧ hostX.ackDue = false ∧ { hostX with finished := false }.finished = false ∧
    waitingX.ackDue = true ∧ (∃ v ∈ waitingX.unacked, v.2.2.2.2 = false ∧ ready.get Key.chpRetxLimit < v.2.2.2.1) ∧
    (¬ ∃ v ∈ hostX.unacked, v.2.2.2.2 = false ∧ ready.get Key.chpRetxLimit < v.2.2.2.1) ∧
    (1 ≤ ready.get Key.chpRetxLimit) ∧
    (let read := { hostX with unacked := [(5, 0x12, leBytes 16 3, 1, false)], reads := [(3, 64)] }
     let late := { hostX with unacked := [(5, 0x11, [], 1, false)], sentAt := [(5, 0)] }
     look 5 read.sentAt = none ∧ look 5 late.sentAt = some 0 ∧ ¬ 0 + 1000 * ready.get Key.chpRto ≤ ready.ftime ∧
      look (fld (leNat ((leBytes 16 3).take 16)) 0 32) read.reads = some 64 ∧ hostReady.controllerOpen (devSetting 64) = true) ∧
    ((6 + 2 ^ 32 - 5) % 2 ^ 32 ≤ waitingX.unacked.length ∧ waitingX.waiting = [] ∧ ∀ w ∈ waitingX.unacked, w.2.2.2.2 = false) := by
  decide +kernel

/-- A request record of an operation. -/
abbrev req (op : Nat) (l : List (Nat × Nat)) : Nat := bits ((32, op) :: l)

/-- HostTransfers: a WRITE and a READ of a line, of no line, and of the last line of a stack; DICT_READ of an entry and of none, DICT_WRITE of one byte and of
none. -/
theorem test_meets_transfers :
    let w := after hostReady
    (qOp (req 1 [(128, 64)]) = 1 ∧ w.rangeStatus (req 1 [(128, 64)]) true = 0 ∧ w.rangeStatus (req 1 []) true ≠ 0 ∧
      w.rangeStatus (req 1 [(64, (w.stack 0).usableTop - 64), (128, 128)]) true ≠ 0) ∧
    (qOp (req 2 [(128, 64)]) = 2 ∧ w.rangeStatus (req 2 [(128, 64)]) false = 0 ∧ w.rangeStatus (req 2 []) false ≠ 0 ∧
      (w.stack 0).lost = false ∧ w.controllerOpen 0 = true ∧ w.session 0 = some (hostX.received 0) ∧ 64 ≤ (hostX.received 0).maxData ∧
      (hostX.received 0).waiting = [] ∧ (hostX.received 0).unacked.length + 2 ≤ w.get Key.chpWindow ∧
      (w.hbmRead 0 (devOffset 0) 64).2 = some (List.replicate 64 0)) ∧
    (qOp (req 3 []) = 3 ∧ (w.readEntry (Key.pkgState.key / 256) (Key.pkgState.key % 256)).2.1 = 0 ∧
      (w.readEntry (Key.pkgState.key / 256) (Key.pkgState.key % 256)).2.2.length ≤ 16 ∧ (w.readEntry 0xFFFF 0).2.1 = 1 ∧
      (w.readEntry (Key.fwStageData.key / 256) (Key.fwStageData.key % 256)).2.1 = 2) ∧
    (resetsPart (req 4 [(64, Key.resetRequest.key / 256), (80, Key.resetRequest.key % 256), (88, 4), (256, 1)]) = true ∧
      resetsPart (req 4 [(64, Key.topoMode.key / 256), (80, Key.topoMode.key % 256), (88, 1), (256, 1)]) = false) ∧
    (qOp (req 4 [(88, 1)]) = 4 ∧ fld (req 4 []) 88 8 = 0 ∧ 32 < fld (req 4 [(88, 33)]) 88 8 ∧
      (w.dictWrite (Key.topoMode.key / 256) (Key.topoMode.key % 256) [1]).2.2 = none ∧
      ((w.dictWrite (Key.topoMode.key / 256) (Key.topoMode.key % 256) [1]).1.session 0).isSome = true) := by
  decide +kernel

/-- The package with a WRITE of one line begun. -/
def writing : State :=
  let s := hostReady
  { s with host := { s.host with reqs := [{ session := 0, record := req 1 [(128, 64)], landed := [], held := [], claim := none, detail1 := 0 }] } }

/-- HostTransfers: the data of that WRITE. -/
theorem test_meets_write_data :
    let payload : List Byte := List.replicate 16 0 ++ List.replicate 64 9
    let q : HostReq := { session := 0, record := req 1 [(128, 64)], landed := [], held := [], claim := none, detail1 := 0 }
    let u := after writing
    Taken writing (headFor 0x12 payload) 0x12 payload u ∧
    (u.host.recording.st = 0 ∧ u.dataReq 0 (leNat (payload.take 4)) = some q ∧ qFlush q.record = false ∧
      leNat ((payload.drop 8).take 8) = 0 ∧ payload.length = 16 + qLen q.record ∧ qLen q.record ≤ writing.maxData 0 ∧
      u.maxData 0 = writing.maxData 0 ∧ (u.stack 0).lost = false ∧ u.controllerOpen 0 = true) :=
  ⟨taken_of (by decide +kernel) (by decide +kernel) _ _ (by decide) (by decide), by decide +kernel⟩

/-- A LOAD of the primaries or the companions of core 0: one line of image, one of data. -/
def rLoad (companion : Nat) : Nat :=
  req 5 [(64, 1), (88, 1), (91, 1), (95, companion), (96, 1), (128, 0), (192, 64), (224, 0), (240, 0), (256, 64), (320, 64), (352, 0)]

/-- HostQueuesAndRings: the two LOADs. -/
theorem test_meets_loads_of_programs :
    let w := after hostReady
    (∀ k ∈ [0, 1], let v := rLoad k
      qOp v = 5 ∧ bit v 95 = (k == 1) ∧ lImage v % 64 = 0 ∧ lImageLen v % 4 = 0 ∧ lImageLen v ≠ 0 ∧ lImageLen v ≤ 65536 ∧ fld v 224 16 % 4 = 0 ∧
      fld v 240 16 % 4 = 0 ∧ lData v % 64 = 0 ∧ lDataLen v % 64 = 0 ∧ lDataLen v ≤ 0x200000 ∧ fld v 352 21 % 64 = 0 ∧
      fld v 224 16 + lImageLen v ≤ 65536 ∧ fld v 352 21 + lDataLen v ≤ 0x200000) ∧
    (devSetting (lImage (rLoad 0)) < 24 ∧ (w.stack 0).readable 0 64 = true ∧ (w.stack 0).readable 64 64 = true ∧ (w.stack 0).lost = false ∧
      w.controllerOpen 0 = true ∧ (w.stack 0).errors = [] ∧ (w.stack 0).down = []) ∧ w.physOf 0 = some 0 ∧ w.resets = [] := by
  decide +kernel

/-- HostQueuesAndRings: core 0 is a target of those LOADs. -/
theorem test_meets_load_targets : 0 ∈ loadTargets (rLoad 0) ∧ 0 ∈ loadTargets (rLoad 1) := by
  constructor <;> (rw [loadTargets, List.mem_filter]; exact ⟨List.mem_range.mpr (by decide), by decide +kernel⟩)

/-- HostQueuesAndRings: nothing is in progress at those LOADs, their bytes are read, and the companion of core 0 is free. -/
theorem test_meets_load_bytes :
    let w := after hostReady
    w.swaps = [] ∧ w.host.cmdqs = [] ∧ (w.core 0).companionFree = true ∧
    ∀ k ∈ [0, 1], (w.loadBytes (rLoad k)).2 = some (List.replicate 64 0, List.replicate 64 0) := by
  decide +kernel

/-- The package with command queue 3 bound by session 0 to core 0, channel 2. -/
def bound : State :=
  let s := hostReady
  { s with host := { s.host with cmdqs := [(3, { session := 0, core := 0, channel := 2, credits := none, pushes := [] })] } }

/-- HostQueuesAndRings: a bind to no core, of a free queue, and of a channel in use. -/
theorem test_meets_binds :
    (qOp (req 6 [(64, 3), (96, 0x1FFF)]) = 6 ∧ (after hostReady).physOf (fld (req 6 [(64, 3), (96, 0x1FFF)]) 96 13) = none) ∧
    ((after hostReady).physOf 0 ≠ none ∧ (after hostReady).host.cmdqs = []) ∧
    (let v := req 6 [(64, 4), (112, 2)]
     (after bound).host.cmdqs.any (fun x => x.1 != fld v 64 4 && x.2.channel == fld v 112 4) = true) := by
  decide +kernel

/-- HostQueuesAndRings: an unbind, and a push. -/
theorem test_meets_pushes :
    (bit (req 6 [(64, 3), (80, 1)]) 80 = true ∧ (look 3 (after bound).host.cmdqs).map (fun x => (x.session, x.pushes)) = some (0, [])) ∧
    (let v := req 7 [(64, 3)]
     qOp v = 7 ∧ 64 ≤ (after bound).maxData 0 - 64 ∧ (look (fld v 64 4) (after bound).host.cmdqs).map (·.credits) = some none ∧
      (∀ y ∈ (after bound).host.cmdqs, y.2.pushes = []) ∧ (after bound).outstanding < 65536 ∧ (after bound).nextId = some 0) := by
  decide +kernel

/-- The package with input ring 1 of two 64-byte entries enabled, `n` of them claimed. -/
def ringed (n : Nat) : State :=
  let s := hostReady
  { s with host := { s.host with rings := [(1, { Ring.fresh with enabled := true, entryLog2 := 6, countLog2 := 1, claims := List.replicate n (0, false) })] } }

/-- HostQueuesAndRings: a ring configured and turned off, a put with the last entry free, and one with none. -/
theorem test_meets_rings :
    (∀ on ∈ [0, 1], let v := req 8 [(64, 1), (70, on), (104, 64), (144, 6), (152, 1)]
      qOp v = 8 ∧ bit v 70 = (on == 1) ∧ ((after hostReady).ring (qRing v)).claims = [] ∧ qBase v % 64 = 0 ∧ 6 ≤ fld v 144 5 ∧ fld v 144 5 ≤ 16 ∧
      fld v 152 4 ≠ 0 ∧ (after hostReady).physOf (fld v 160 13) ≠ none ∧ devSetting (qBase v) < 24 ∧
      ((after hostReady).stack 0).writable (devOffset (qBase v)) (64 + 2 ^ (fld v 144 5 + fld v 152 4)) = true) ∧
    (let v := req 9 [(64, 1), (128, 64)]
     qOp v = 9 ∧ qLen v % 64 = 0 ∧ 0 < qLen v ∧
      (∀ n ∈ [1, 2], let x := (after (ringed n)).ring (qRing v)
        x.enabled = true ∧ qLen v ≤ 2 ^ x.entryLog2 ∧ ((after (ringed n)).devRead (x.base + 8) 8).2 = some (List.replicate 8 0) ∧
        ((x.produced + x.claims.length + 2 ^ 64 - 0) % 2 ^ 64 < 2 ^ x.countLog2 ↔ n = 1))) := by
  decide +kernel

/-- The package with recording in a state with its records, and a replay. -/
def recorded (st : Nat) (records : List (Nat × Nat × Nat × Nat)) (replay : Option Replay) : State :=
  let s := hostReady
  { s with host := { s.host with recording := { st := st, records := records, next := 0, number := 0 }, replay := replay } }

/-- HostControlRequests: warm and cold resets, the four RECORDs, REPLAYs while recording, of no record and of one, and stops. -/
theorem test_meets_control :
    (qOp (req 10 []) = 10 ∧ bit (req 10 []) 64 = false ∧ bit (req 10 [(64, 1)]) 64 = true ∧ (after hostReady).get Key.pkgState = 1 ∧
      (after { hostReady with startup := { hostReady.startup with everReady := true } }).startup.everReady = true ∧
      (after hostReady).resets = [] ∧ (after hostReady).pins.bootStrap = 0) ∧
    (∀ m ∈ [0, 1, 2, 3], qOp (req 11 [(64, m)]) = 11 ∧ fld (req 11 [(64, m)]) 64 2 = m) ∧
    (qOp (req 12 []) = 12 ∧ bit (req 12 []) 65 = false ∧ bit (req 12 [(65, 1)]) 65 = true) ∧
    ((after (recorded 1 [] none)).host.recording.st ≠ 0 ∧ (after (recorded 0 [] none)).host.recording.records = [] ∧
      (after (recorded 0 [(0, 64, 0, 0)] none)).host.recording.records ≠ [] ∧ (after hostReady).host.replay = none) := by
  decide +kernel

/-- A replay with records left. -/
def replaying (left : List (Nat × Nat × Nat × Nat)) (paced : Bool) : Replay :=
  { left := left, paced := paced, start := 0, first := 0, count := 0, session := 0, reqId := 0 }

/-- HostControlRequests: requests reach a package that replays; no replay, one at its end, one that waits, and one whose next record cannot be read. -/
theorem test_meets_replay :
    (let s := recorded 3 [] (some (replaying [] false))
     takesChp s ∧ s.session 0 = some hostX ∧ replayFree (req 12 [(65, 1)]) = true) ∧
    ready.host.replay = none ∧ (recorded 3 [] (some (replaying [] false))).host.replay = some (replaying [] false) ∧
    (let s := recorded 3 [] (some (replaying [(0, 64, 0, 5), (64, 64, 1, 6)] true))
     s.portOpen = true ∧ s.ftime < 0 + (5 - 0)) ∧
    (let s := recorded 3 [] (some (replaying [(0, 64, 0, 0), (64, 64, 1, 1)] false))
     s.portOpen = true ∧ (s.recordBytes 0 64).2 = none) := by
  decide +kernel

/-- A recorded request packet of session 0 (R449). -/
def recordOf (v : Nat) : List Byte := leBytes 64 (bits [(16, 0x10), (32, 112)]) ++ List.replicate 48 0 ++ leBytes 64 v

/-- The package that replays that packet, with one more record after it. -/
def replays (v : Nat) : State :=
  let x := { Stack.fresh with accepting := true, training := false, ring := 1 }
  let s := recorded 3 [] (some (replaying [(0, 176, 0, 0), (192, 176, 1, 1)] false))
  { s with hbms := [(0, { x with mem := Mem.zero.writeN x.recordBase (recordOf v) })] }

/-- HostControlRequests: a replay whose next record is a WRITE of a line, and one whose next record writes an entry. -/
theorem test_meets_replayed :
    (∀ v ∈ [req 1 [(128, 64)], req 4 [(64, Key.topoMode.key / 256), (80, Key.topoMode.key % 256), (88, 1), (256, 1)]],
      (replays v).portOpen = true ∧ ((replays v).recordBytes 0 176).2 = some (recordOf v) ∧ fld (leNat ((recordOf v).take 64)) 16 8 = 0x10 ∧
      leNat ((((recordOf v).drop 112).take (fld (leNat ((recordOf v).take 64)) 32 32 - 48)).take 64) = v) ∧
    (let v := req 1 [(128, 64)]
     qOp v = 1 ∧ (replays v).rangeStatus v true = 0) ∧
    (let v := req 4 [(64, Key.topoMode.key / 256), (80, Key.topoMode.key % 256), (88, 1), (256, 1)]
     qOp v = 4 ∧ fld v 88 8 = 1 ∧ resetsPart v = false ∧ ((replays v).dictWrite (fld v 64 16) (fld v 80 8) [1]).2.2 = none) := by
  decide +kernel

/-- The requests of the witnesses above reach the states they are about. -/
theorem test_meets_requests (record : BitVec 512) (extra : List Byte) (l : extra.length < 65000) :
    (∀ s ∈ [bound, ringed 1, ringed 2, recorded 0 [] none, recorded 0 [(0, 64, 0, 0)] none],
      Requested s (headFor 0x10 (leBytes 64 record.toNat ++ extra)) record extra (after s)) ∧
    Requested (recorded 1 [] none) (headFor 0x10 (leBytes 64 (BitVec.ofNat 512 (req 12 [])).toNat)) (BitVec.ofNat 512 (req 12 [])) []
      (after (recorded 1 [] none)) ∧
    (let s := recorded 3 [] (some (replaying [] false))
     let r := BitVec.ofNat 512 (req 12 [(65, 1)])
     Requested s (headFor 0x10 (leBytes 64 r.toNat)) r [] (after s)) := by
  refine ⟨?_, ?_, ?_⟩
  · intro s h
    have all : ∀ s ∈ [bound, ringed 1, ringed 2, recorded 0 [] none, recorded 0 [(0, 64, 0, 0)] none],
        takesChp s ∧ s.session 0 = some hostX ∧ s.host.recording.st = 0 ∧ s.host.replay = none := by decide +kernel
    obtain ⟨a, b, c, d⟩ := all s h
    exact requested_of a b record extra l (.inr c) (.inl d)
  · have := requested_of (s := recorded 1 [] none) (by decide +kernel) (by decide +kernel) (BitVec.ofNat 512 (req 12 [])) [] (by decide)
      (.inl (by decide +kernel)) (.inl rfl)
    rw [List.append_nil] at this
    exact this
  · have := requested_of (s := recorded 3 [] (some (replaying [] false))) (by decide +kernel) (by decide +kernel)
      (BitVec.ofNat 512 (req 12 [(65, 1)])) [] (by decide) (.inl (by decide +kernel)) (.inr (by decide +kernel))
    rw [List.append_nil] at this
    exact this

/-- SHAKE256 of nothing begins with the octets of the published example of FIPS 202. -/
theorem test_shake_of_nothing : shake256 [] 4 = [0x46, 0xB9, 0xDD, 0x2B] := by decide +kernel

/-- `n` octets written as one hexadecimal number, the first octet first. -/
def octets (n v : Nat) : List Byte := (leBytes n v).reverse

/-- The first Ed448 example of RFC 8032 (section 7.4), whose message is empty. -/
theorem test_ed448_example :
    ed448Valid (octets 57 0x5fd7449b59b461fd2ce787ec616ad46a1da1342485a70e1f8a0ea75d80e96778edf124769b46c7061bd6783df1e50f6cd1fa1abeafe8256180) []
      (octets 57 0x533a37f6bbe457251f023c0d88f976ae2dfb504a843e34d2074fd823d41a591f2b233f034f628281f2fd7a22ddd47d7828c59bd0a21bfd3980
        ++ octets 57 0xff0d2028d4b18a9df63e006c5d1c2d345b925d8dc00b4104852db99ac5c7cdda8530a113a0f4dbb61149f05a7363268c71d95808ff2e652600) = true := by
  decide +kernel

/-- The first X448 example of RFC 7748 (section 5.2). -/
theorem test_x448_example :
    x448Shared (octets 56 0x3d262fddf9ec8e88495266fea19a34d28882acef045104d0d1aae121700a779c984c24f8cdd78fbff44943eba368f54b29259a4f1c600ad3)
      (octets 56 0x06fce640fa3487bfda5f6cf2d5263f8aad88334cbd07437f020f08f9814dc031ddbdc38c19c6da2583fa5429db94ada18aa7a7fb4ef8a086) =
      octets 56 0xce3e4ff95a60dc6697da1db1d85e6afbdf79b50a2412d7546d5f239fe14fbaadeb445fc66a01b0779d98223961111e21766282f73dd96b6f := by
  decide +kernel

/-- The package with addresses of its own, a clock that follows PTP, and the Chain with a claim. -/
def networked (id source : Nat) (claim : ClaimState) : State :=
  withEntries [(Key.hostIpv4, 0x0A000001), (Key.hostIpv6, 1), (Key.timeRole, 2), (Key.chainId, id), (Key.chainIdSource, source)]
    { ready with chain := { Chain.fresh with answers := true, claim := claim } }

/-- NetworkAndChain: frames that are taken, and ones that MACsec or the port turns away. -/
theorem test_meets_frames_taken :
    (∀ bytes, FrameTaken (networked 0 0 .held) {} bytes) ∧
    (let s := withEntries [(Key.macsecEnable, 1)] (networked 0 0 .held)
     s.portOpen = true ∧ s.flag Key.macsecEnable = true ∧ s.secGood {} [] = false) ∧
    (wireGood { pause := true } = false ∧ (networked 0 0 .held).secGood { pause := true } [] = true) :=
  ⟨frameTaken_of (by decide +kernel) (by decide +kernel) rfl rfl, by decide +kernel, by decide +kernel⟩

/-- NetworkAndChain: own addresses and others, the own PTP domain before and after the first time, its delay known and not, and a clock not
heard. -/
theorem test_meets_network :
    let s := networked 0 0 .held
    (s.portOpen = true ∧ s.get Key.hostIpv4 ≠ 0 ∧ (0x0A000001 : BitVec 32).toNat = s.get Key.hostIpv4 ∧ s.get Key.hostIpv6 ≠ 0 ∧
      (1 : BitVec 128).toNat = s.get Key.hostIpv6 ∧ (2 : BitVec 128).toNat ≠ s.get Key.hostIpv6 ∧ (2 : BitVec 32).toNat ≠ s.get Key.hostIpv4) ∧
    (s.get Key.timeRole = 2 ∧ (0 : BitVec 8).toNat = s.get Key.ptpDomain ∧ s.everLocked = false ∧ s.host.ptp.delay = none) ∧
    (let u := { s with everLocked := true, host := { s.host with ptp := { sync := some (5, 7), request := some (0, 9), delay := some 2 } } }
     u.everLocked = true ∧ u.host.ptp.delay = some 2 ∧ u.host.ptp.sync = some (5, 7) ∧ u.host.ptp.request = some ((0 : BitVec 16).toNat, 9) ∧
      ((0 : Int) + 0 + 2 - u.ftime).natAbs ≤ u.get Key.timeUnsyncLimit) ∧
    ready.get Key.timeRole ≠ 2 ∧ s.host.ptpHeard = none ∧
    ((BitVec.ofNat 128 s.chainAddr).toNat = s.chainAddr ∧ s.chainOn = true ∧ (0 : BitVec 128).toNat ≠ s.chainAddr) := by
  decide +kernel

/-- NetworkAndChain: an opportunity that a reset waits for, and one that it does not end. -/
theorem test_meets_opportunity :
    let s := networked 3 0 .held
    let due := fun m : Nat => { s with chain := { s.chain with resetsDue := [(m, (6, false))], tx := List.replicate m (0, 0, [], 0) } }
    s.chainOn = true ∧ s.get Key.chainId ≠ 0 ∧ s.chain.claim = .held ∧ s.chain.resetsDue = [] ∧ s.packageHeld = false ∧
    1 ≤ min (1 + (due 1).get Key.plcaMaxBurst) (due 1).chain.tx.length ∧
    ¬ 200 ≤ min (1 + (due 200).get Key.plcaMaxBurst) (due 200).chain.tx.length := by
  decide +kernel

/-- NetworkAndChain: the Chain in each state of its claim, a repeated collision, and assignments of and to this package. -/
theorem test_meets_chain :
    (∀ c ∈ [ClaimState.held, .listening 0, .listening 1, .backoff 0, .backoff 1, .claiming, .watching 3 4 5 false, .watching 3 4 5 true],
      (networked 0 0 c).chainOn = true ∧ (networked 0 0 c).get Key.chainId = 0 ∧ (networked 0 0 c).chain.claim = c) ∧
    ((networked 3 0 .held).get Key.chainId ≠ 0 ∧ (networked 3 0 .held).get Key.chainIdSource = 0 ∧ ready.chainOn = false) ∧
    (let s := { networked 3 0 .held with chain := { (networked 3 0 .held).chain with collisions := 16 } }
     s.chainOn = true ∧ 16 ≤ s.chain.collisions) ∧
    (let h := { blankAhm with magic := 0xA4E1, version := 1, items := 1, serial := 5, type := 5 }
     (networked 3 0 .held).hears h = true ∧ h.serial.toNat = ready.fuses.serial ∧ { h with serial := 6 }.serial.toNat ≠ ready.fuses.serial ∧
      (networked 3 0 .held).repeated h = none ∧ (networked 3 0 .held).get Key.chainId = (3 : BitVec 8).toNat ∧
      (networked 3 0 .held).get Key.chainId ≠ (30 : BitVec 8).toNat) := by
  decide +kernel

/-- An AHM request of `n` items. -/
def ahmOf (n : BitVec 8) : AhmHead := { blankAhm with magic := 0xA4E1, version := 1, items := n }

/-- DictionaryRequests: a wrong magic, a reserved type, a repeat, and requests of one item. -/
theorem test_meets_requests_of_ahm :
    let s := networked 3 0 .held
    let seen := { s with chain := { s.chain with answered := [(0, 0, [1])] } }
    (s.hears blankAhm = true ∧ blankAhm.magic ≠ 0xA4E1 ∧ ahmTypes.contains { ahmOf 1 with type := 7 }.type = false) ∧
    (seen.hears (ahmOf 1) = true ∧ (ahmOf 1).magic = 0xA4E1 ∧ (ahmOf 1).version = 1 ∧ (ahmOf 1).serial = 0 ∧ (ahmOf 1).type = 1 ∧
      seen.repeated (ahmOf 1) = some [1] ∧ s.repeated (ahmOf 1) = none) ∧
    (4 * (ahmOf 1).items.toNat ≤ (leBytes 4 0xFFFF).length ∧ s.get Key.locketWindowSetting < 24 ∧ readItems 1 (leBytes 4 0xFFFF) = [(0xFFFF, 0)] ∧ s.entryRow 0xFFFF 0 = none) ∧
    (s.entryRow (Key.fwStageData.key / 256) (Key.fwStageData.key % 256)).map (·.access) = some 2 ∧
    ((s.entryRow (Key.topoMode.key / 256) (Key.topoMode.key % 256)).map (fun r => decide (r.access = 2)) = some false ∧
      Key.topoMode.key ≠ Key.locketWindowData.key) := by
  decide +kernel

/-- DictionaryRequests: writes of an entry and of PACKAGE_COMMAND by the Chain, and an enumeration. -/
theorem test_meets_writes_of_ahm :
    let s := networked 3 0 .held
    writeItems 1 (leBytes 16 (bits [(0, Key.topoMode.key / 256), (16, Key.topoMode.key % 256), (48, 1), (64, 1)])) =
      some [(Key.topoMode.key / 256, Key.topoMode.key % 256, [1])] ∧ Key.topoMode.key / 256 ≠ 0x8010 ∧
    writeItems 1 (leBytes 16 (bits [(0, 0x8010), (16, 1), (48, 4), (64, 6)])) = some [(0x8010, 1, leBytes 4 6)] ∧ s.get Key.pkgState ≠ 2 ∧
    (1 ≤ (ahmOf 1).items.toNat ∧ 4 ≤ (leBytes 4 0).length) := by
  decide +kernel

/-- DictionaryRequests: a write of no entry, of one that may not be written, of a wrong length, of a value out of range, and a good one; and a
window of a stack that answers. -/
theorem test_meets_entry_writes :
    let s := serving (core3 0 0 0)
    let i := Key.topoMode.key / 256
    let k := Key.topoMode.key % 256
    s.leadAnswers = true ∧ (s.entryRow 0x0F00 0 = none) ∧
    (s.entryRow (Key.pkgState.key / 256) (Key.pkgState.key % 256)).map
      (fun r => s.admits r (Key.pkgState.key / 256) (Key.pkgState.key % 256)) = some false ∧
    (s.entryRow i k).map (fun r => decide (s.admits r i k = true ∧ r.size = 1 ∧ r.ty ≠ 8 ∧ s.inRange r i k 2 = false ∧ s.inRange r i k 1 = true ∧
      r.access ≠ 2)) = some true ∧
    (s.get Key.pkgState ≠ 2 ∧ (s.stack (s.get Key.locketWindowSetting)).lost = false ∧ s.controllerOpen (s.get Key.locketWindowSetting) = true ∧
      (s.hbmRead 0 ((s.stack 0).locketBase + s.get Key.locketWindowOffset) 64).2 = some (List.replicate 64 0)) := by
  decide +kernel

/-- A public key of Ed448, of the seed whose first byte is 1 (RFC 8032). -/
def signer : List Byte := leBytes 57 0x804b83f093431a9d66a58801bd6007c7859af8fa1413061f4927010e70dc4953549d9dd871c4ff20bbab3996f937382fb9447730b14cc17205

/-- A 192-byte signature block of key slot 0 in a domain, with that key and a signature (R517, R518). -/
def sigBlock (domain : Nat) (sig : List Byte) : List Byte :=
  leBytes 8 (bits [(0, 0x516E), (24, domain)]) ++ signer ++ [0] ++ sig ++ List.replicate 12 0

/-- The header of a firmware image of 256 bytes with a security version (R522). -/
def imageHead (svn : Nat) : List Byte := leBytes 64 (bits [(0, 0xF1B0), (16, 1), (64, svn), (80, 256)])

/-- An image that is not signed. -/
def image (svn : Nat) : List Byte := imageHead svn ++ sigBlock 1 (List.replicate 114 0)

/-- The image of security version 1 with that key's signature of it. -/
def signedImage : List Byte :=
  imageHead 1 ++ sigBlock 1 (
    leBytes 57 0x80fa506713434b455ebfc1676767dc0c1040987c8bb1cdf9afe103f26379237ba9b07171db349955549bc04fdb337f45fa5be4a2034a08ce89
      ++ leBytes 57 0x6ce3bf54bb4fb6ea72a568d7cdf098e4bd0b42b64021584ae906a266b1470947d12f68a91a3aeb5fd5266078bbe16b247956f0807aa06e9)

/-- Fuses that name that key, perhaps revoked, with a security version. -/
def keyed (revoked svn : Nat) : Fuses :=
  { ready.fuses with digests := [shake256 signer 32], revoked := revoked, svn := svn }

/-- A package with fuses, whose other slot holds an image, with an update to it in progress. -/
def updating (f : Fuses) (bs : List Byte) (src len : Nat) : State :=
  withEntries [(Key.fwUpdateStatus, 1)] { serving (core3 0 0 0) with
    fuses := f
    fw := { ready.fw with slotB := Mem.zero.writeN 0 bs, update := some (src, len, 1) } }

/-- KeysImagesAndDebug and HallmarkManagement: a package that answers, with an update or an install in progress and with none. -/
theorem test_meets_images :
    (ready.leadAnswers = true ∧ ready.get Key.pkgState = 1 ∧ ready.get Key.fwUpdateStatus ≠ 1 ∧ ready.get Key.hallmarkInstallStatus ≠ 1) ∧
    (let s := updating ready.fuses [] 0 0
     s.leadAnswers = true ∧ s.get Key.pkgState = 1 ∧ ¬ s.get Key.fwUpdateStatus ≠ 1) ∧
    (ready.fw.committing = false ∧ { ready with fw := { ready.fw with committing := true } }.fw.committing = true) ∧
    (ready.get Key.fwStageOffset + 32 ≤ 0x1000000) ∧ (3 : BitVec 360).toNat % 256 ≤ 3 ∧ ready.fw.update = none := by
  decide +kernel

/-- KeysImagesAndDebug: an update whose source is too long or empty, one read from a stack, and one of the slot itself. -/
theorem test_meets_update_sources :
    let s := updating ready.fuses [] 0 0
    s.fw.update = some (0, 0, 1) ∧ devSetting 0 < 24 ∧ s.controllerOpen 0 = true ∧ (s.fetchObject 0 0).2 = none ∧
    (s.fetchObject 0 64).2 = some (List.replicate 64 0) ∧ ¬ devSetting 0xFFFFFFFFFF < 24 ∧
    (0x1000000 : Nat) < 0x1000001 ∧ (0 : Nat) ≠ 0xFFFFFFFFFF := by
  decide +kernel

/-- KeysImagesAndDebug: an image that is none, one of an unknown key and one of a revoked key. -/
theorem test_meets_bad_images :
    let check := fun f bs => (updating f bs 0xFFFFFFFFFF 0).imageCheck 1
    check ready.fuses [] = 1 ∧ check ready.fuses (image 0) = 2 ∧ check (keyed 1 0) (image 0) = 3 := by
  decide +kernel

/-- The check of a signature depends on the digests and the revoked keys of the fuses alone, the bytes of an image on its slot. -/
theorem sigCheck_congr {s t : State} {domain : Nat} {a b : List Byte} (d : s.fuses.digests = t.fuses.digests) (r : s.fuses.revoked = t.fuses.revoked)
    (o : a = b) : s.sigCheck domain a = t.sigCheck domain b := by
  unfold State.sigCheck
  rw [d, r, o]

theorem imageOf_congr {s t : State} {j k : Nat} (m : s.fw.slot j = t.fw.slot k) : s.imageOf j = t.imageOf k := by
  unfold State.imageOf
  rw [m]

/-- Its signature verifies. -/
theorem signedImage_verifies :
    (updating (keyed 0 1) signedImage 0xFFFFFFFFFF 0).sigCheck 1 ((updating (keyed 0 1) signedImage 0xFFFFFFFFFF 0).imageOf 1) = 0 := by decide +kernel

/-- KeysImagesAndDebug: a signed image of the fused security version, which may run, and one below it. -/
theorem test_meets_good_images :
    (updating (keyed 0 1) signedImage 0xFFFFFFFFFF 0).imageCheck 1 = 0 ∧ (updating (keyed 0 2) signedImage 0xFFFFFFFFFF 0).imageCheck 1 = 4 := by
  have formed : let h := ((updating (keyed 0 1) signedImage 0xFFFFFFFFFF 0).fw.slot 1).num 0 64
      ¬ (fld h 0 16 ≠ 0xF1B0 ∨ fld h 16 8 ≠ 1 ∨ 64 < fld h 64 8 ∨ fld h 80 32 % 64 ≠ 0 ∨ fld h 80 32 < 256 ∨ 0x1000000 < fld h 80 32) ∧
        fld h 64 8 = 1 := by decide +kernel
  have rule : ∀ {s : State}, s.fw.slot 1 = (updating (keyed 0 1) signedImage 0xFFFFFFFFFF 0).fw.slot 1 → s.sigCheck 1 (s.imageOf 1) = 0 →
      s.imageCheck 1 = if 1 < s.fuses.svn then 4 else 0 := by
    intro s m v
    unfold State.imageCheck
    rw [v, m, if_neg formed.1]
    exact congrArg (fun n => if n < s.fuses.svn then 4 else 0) formed.2
  have same : ∀ f g : Fuses, (updating f signedImage 0xFFFFFFFFFF 0).fw.slot 1 = (updating g signedImage 0xFFFFFFFFFF 0).fw.slot 1 := fun _ _ => rfl
  exact ⟨rule (same _ _) signedImage_verifies, rule (same _ _) ((sigCheck_congr rfl rfl (imageOf_congr (same _ _))).trans signedImage_verifies)⟩

/-- KeysImagesAndDebug: three parts of an authorisation staged; the check of the four is an alternative, each side of which the statement
takes. -/
theorem test_meets_debug :
    { ready with dbg := { parts := [(0, [1]), (1, [2]), (2, [3])] } }.dbg.parts = [(0, [1]), (1, [2]), (2, [3])] ∧
    ready.authCheck [] = false := by
  decide +kernel

/-- A Hallmark bundle of one piece, 320 bytes, with an identifier (R500); that of identifier 9 is signed. -/
def bundle (id : Nat) : List Byte :=
  leBytes 64 (bits [(0, 0x11A7), (16, 1), (24, 1), (32, id), (96, 320)])
    ++ leBytes 64 (bits [(0, 64), (32, 4), (112, 1), (128, 0x100000), (160, 64)])
    ++ sigBlock 2 (if id = 9 then
      leBytes 57 0x8013d0261cc68171afef28b1eab7eb60e7ee9531621f06c3c532518084475f9d6e54d8d5e8dcebaa22910c6462c6e634b2ef8e98834c0188dc
        ++ leBytes 57 0x15bcfd58fd5700b877e1e85200cd0364dbe8f117524c5fcce9f8a345d78726a0631bbc92301294f2def2a1b5937213ca160d3640b6179186
    else List.replicate 114 0)

/-- A package with fuses and bundles, and an install of an object of stack 0 in progress. -/
def installing (f : Fuses) (slots : List (Nat × List Byte)) (bs : List Byte) (len : Nat) : State :=
  { serving (core3 0 0 0) with
    fuses := f
    hbms := [(0, { Stack.fresh with accepting := true, training := false, mem := Mem.zero.writeN 0 bs })]
    hall := { ready.hall with slots := slots, install := some (0, len) } }

/-- HallmarkManagement: masks and identifiers that are there and that are not, an install with nothing to read, one that is no bundle, and one
of an unknown key. -/
theorem test_meets_hallmark :
    (let s := withEntries [(Key.failedMask 0, 2)] ready
     (2 &&& s.get (Key.failedMask 0) = 2 ∧ 3 &&& s.get (Key.failedMask 0) ≠ 3)) ∧
    (¬ (withEntries [(Key.hallmarkInstallStatus, 1)] ready).get Key.hallmarkInstallStatus ≠ 1) ∧
    ((∃ b ∈ (installing ready.fuses [(0, bundle 9)] [] 0).hall.slots, fld (leNat (b.2.take 64)) 32 32 = (9 : BitVec 32).toNat) ∧
      ∀ b ∈ (installing ready.fuses [(0, bundle 9)] [] 0).hall.slots, fld (leNat (b.2.take 64)) 32 32 ≠ (8 : BitVec 32).toNat) ∧
    ready.hall.install = none ∧
    ((installing ready.fuses [] [] 0).hall.install = some (0, 0) ∧ (installing ready.fuses [] [] 0).controllerOpen (devSetting 0) = true ∧
      ((installing ready.fuses [] [] 0).fetchObject 0 0).2 = none) ∧
    (((installing ready.fuses [] [] 64).fetchObject 0 64).2 = some (List.replicate 64 0) ∧ bundleOk [] = false) ∧
    (((installing ready.fuses [] (bundle 9) 320).fetchObject 0 320).2 = some (bundle 9) ∧ bundleOk (bundle 9) = true ∧
      (bundle 9).length = fld (leNat ((bundle 9).take 64)) 96 32 ∧ (installing ready.fuses [] (bundle 9) 320).sigCheck 2 (bundle 9) ≠ 0) := by
  decide +kernel

/-- HallmarkManagement: a bundle that verifies, with a slot for it and with none. -/
theorem test_meets_bundles :
    (installing (keyed 0 0) [] (bundle 9) 320).sigCheck 2 (bundle 9) = 0 ∧
    (installing (keyed 0 0) [] (bundle 9) 320).bundleSlot 9 = some 0 ∧ 0 + 320 ≤ 16777216 ∧
    (installing (keyed 0 0) ((List.range 8).map (fun k => (k, bundle (k + 10)))) (bundle 9) 320).bundleSlot 9 = none :=
  ⟨by decide +kernel, by decide +kernel, by decide, by decide +kernel⟩

/-- HallmarkManagement: a piece that times out, and none in the cluster. -/
theorem test_meets_pieces :
    let e := leBytes 64 (bits [(0, 64), (32, 4), (112, 1), (128, 0x100000), (160, 64)])
    let x : HallTest := { cluster := 0, core := 16, pieces := [(0, 0, e)], step := 0 }
    let s := { ready with ftime := 1000000, hall := { ready.hall with tests := [x] } }
    s.leadAnswers = true ∧ s.get Key.pkgState = 1 ∧ s.hall.tests = [x] ∧ x.quick = false ∧ s.packageHeld = false ∧ x.core < 17 ∧
    s.dieFenced (0 / 4) = false ∧ s.resets = [] ∧ x.pieces.head? = some (0, 0, e) ∧ x.began + 1000000 * fld (leNat (e.take 64)) 112 16 ≤ s.ftime ∧
    ¬ x.began + 1000000 * fld (leNat (e.take 64)) 112 16 ≤ 999999 ∧ Quiet s :=
  ⟨by decide +kernel, by decide +kernel, rfl, rfl, by decide +kernel, by decide, by decide +kernel, rfl, rfl, by decide +kernel, by decide +kernel,
    ⟨rfl, rfl, rfl, rfl, fun _ => rfl⟩⟩


/-- Nothing waits in a state with no contexts of messages or collectives whose cores other than core 0 are fresh. -/
theorem quiet_of {s : State} {k : Core} (c : s.cores = [(0, k)]) (o : k.ops = []) (h : s.colls = [] ∧ s.msgs = [] ∧ s.ctxWaiters = [] ∧ s.host.reqs = []) :
    Quiet s := by
  refine ⟨h.1, h.2.1, h.2.2.1, h.2.2.2, fun q => ?_⟩
  unfold State.core
  rw [c]
  by_cases e : q = 0
  · subst e; exact o
  · unfold look look
    rw [if_neg (Ne.symm e)]
    show (s.blankCore q).ops = []
    unfold State.blankCore
    split <;> rfl

/-- The package with a job in progress. -/
def resetting (j : ResetJob) : State := { run3 0 0 0 with resets := [j] }

/-- ResetRequests, WatchdogsAndEscalation: the core, and nothing that waits. -/
theorem test_meets_quiet_core : Holds (run3 0 0 0) 0 0 ∧ Quiet (run3 0 0 0) ∧ Quiet ready :=
  ⟨by unfold Holds; decide +kernel, quiet_of rfl rfl (by decide +kernel), ⟨rfl, rfl, rfl, rfl, fun _ => rfl⟩⟩

/-- ResetRequests: units that are not fenced and one that is, no reset in progress and one that covers a request. -/
theorem test_meets_reset_requests :
    let s := run3 0 0 0
    s.leadAnswers = true ∧ s.get Key.pkgState = 1 ∧ s.resets = [] ∧ s.startup.everReady = false ∧ s.pins.bootStrap = 0 ∧ s.troys = [] ∧
    s.fw.committing = false ∧ s.rimFenced 0 = false ∧ s.rimFenced 3 = false ∧
    (∀ d ∈ [((0, 2, 0) : Domain), (1, 0, 0), (2, 0, 287), (3, 0, 71), (4, 0, 23)], s.domFenced d = false) ∧ (s.troy 0).queue = [] ∧
    { s with startup := { s.startup with everReady := true } }.startup.everReady = true ∧
    (∃ j ∈ (resetting (newJob 3 0 0 4 .running 0)).resets, domCovers j.dom (0, 2, 0) = true) := by
  decide +kernel

/-- ResetRequests: a fenced die. -/
theorem test_meets_fenced : (withEntries [(Key.fencedDies, 1)] (run3 0 0 0)).domFenced (1, 0, 0) = true := by decide +kernel

/-- WatchdogsAndEscalation: watchdogs that run and that do not, and heartbeats on either side of the limit. -/
theorem test_meets_watchdogs :
    let s := run3 0 0 0
    let b := at0 ((core3 0 0 0).setEngine 2 { Engine.fresh with stopped := true })
    let off := withEntries [(Key.wdtEnable, 0)] s
    let limit := s.get Key.heartbeatMissLimit
    (s.packageHeld = false ∧ s.dieFenced (0 / 68) = false ∧ s.resets = [] ∧ s.get Key.pkgState = 1) ∧
    (b.watched 0 = true ∧ b.engineBusy 0 2 = true ∧ b.engineHeld 0 2 = false ∧ s.engineBusy 0 0 = false ∧ off.watched 0 = false) ∧
    (s.watched 0 = true ∧ s.coreBusy 0 = true ∧ s.coreHeld 0 = false ∧ (at0 Core.fresh).coreBusy 0 = false) ∧
    (s.flag Key.wdtEnable = true ∧ off.flag Key.wdtEnable = false ∧ s.dieFenced 71 = false ∧ 0 < limit ∧ limit ≠ limit - 1 ∧
      s.watches (71 / 3) = true ∧ { s with missed := [(71, limit - 1)] }.missed = [(71, limit - 1)]) := by
  decide +kernel

/-- WatchdogsAndEscalation: a reset of each domain that runs, and a reset of a setting whose stack answers and one whose stack trains. -/
theorem test_meets_escalation :
    (∀ d ≤ 6, (resetting (newJob d 0 0 4 .running 0)).resets = [newJob d 0 0 4 .running 0] ∧ (newJob d 0 0 4 .running 0).next = none ∧
      (newJob d 0 0 4 .running 0).domain = d) ∧
    (let j := newJob 4 0 0 4 .running 0
     { serving (core3 0 0 0) with resets := [j] }.resetDone j = true ∧
     { resetting j with hbms := [(0, Stack.fresh)] }.resetDone j = false) := by
  decide +kernel

/-- WatchdogsAndEscalation: a capture of core 0, whose record goes to the beginning of the ring. -/
theorem test_meets_capture :
    let j := newJob 1 0 0 2 .capture 0
    let s := { serving (core3 0 0 0) with resets := [j] }
    j.phase = .capture ∧ j.domain = 1 ∧ j.target = 0 ∧
    (∀ n < 24, s.capturedIn (1, 0, 0) n = if n = 0 / 204 then [((0 : CoreId).toNat, 0)] else []) ∧
    (s.stack 0).lost = false ∧ (s.stack 0).down = [] ∧ (s.stack 0).mem.wf = true ∧ s.locketPlace 0 1 % 64 = 0 := by
  decide +kernel

/-- WatchdogsAndEscalation: lines of a capture at the edges of its segments, after no line, after fifteen and after three in a row. -/
theorem test_meets_lines :
    let j := newJob 1 0 0 2 .capture 0
    inDomain j.dom 0 = true ∧ j.domain ≠ 0 ∧ segmentOf 4 = some (4, 256) ∧ segmentOf 255 = some (4, 256) ∧ segmentOf 1215 = some (960, 1216) ∧
    (0, 255) ∉ j.bad ∧ (∀ r ∈ j.runs, r.1 ≠ 0) ∧ { j with runs := [(0, 254, 15)] }.runs = [(0, 255 - 1, 15)] ∧ (4 : Nat) < 255 ∧
    { j with runs := [(0, 254, 3)] }.runs = [(0, 255 - 1, 3)] := by
  decide +kernel

/-- The package with the supply of setting 0 as named. -/
def supplied (y : Supply) : State := { run3 0 0 0 with supplies := [(0, y)] }

/-- SupplyPowerAndThermal: a supply in each of its states, and regulators that are present and that are not. -/
theorem test_meets_supply :
    let s := run3 0 0 0
    let v := withEntries [(Key.railVr 0, 0x280), (Key.railVr 49, 0x080)] s
    (s.packageHeld = false ∧ s.settingFenced 0 = false ∧ (s.supply 0).stretched = false ∧ (s.supply 0).powerFail = false ∧ s.resets = [] ∧
      (s.troy 0).queue = [] ∧ s.get Key.pkgState = 1) ∧
    { s with startup := { s.startup with running := false } }.startup.running = false ∧
    ((supplied { stretched := true, powerFail := false }).supply 0).stretched = true ∧
    ((supplied { stretched := false, powerFail := true }).supply 0).powerFail = true ∧
    (s.watches 0 = true ∧ s.watches (287 / 12) = true ∧ v.rimWorks (v.railHost 0) = true ∧ v.rimWorks (v.railHost 49) = true ∧
      v.rimWorks 2 = true ∧ (withEntries [(Key.fencedRims, 1)] s).rimWorks 0 = false ∧ (withEntries [(Key.fencedRims, 1)] s).watches 0 = false) ∧
    look 0 [(0, some goodReading)] = some (some goodReading) ∧
    (s.railPresent 0 = false ∧ v.railPresent 0 = true ∧ v.railPresent 49 = true ∧ v.railBus 0 = 2 ∧ v.railBus 49 = 0) := by
  decide +kernel

/-- SupplyPowerAndThermal: clusters that are presented, and a sensor of cluster 0 above its trip point. -/
theorem test_meets_sensors :
    let s := run3 0 0 0
    0 ∈ s.liveClusters ∧ (∃ i, i < 344 ∧ i ∈ clusterSensors 0 ∧ (sensorPoints i).2.1 ≤ 200000 ∧ (sensorPoints i).2.2 ≤ 200000) ∧
    ¬ (sensorPoints 343).2.1 ≤ 0 ∧ s.drivesProchot = false ∧ s.pins.prochotIn = false ∧ s.pins.refclk100 = true := by
  decide +kernel

/-- SupplyPowerAndThermal: a unit that is hot, one that has been cool for a millisecond, and one that is neither. -/
theorem test_meets_steps :
    let hot := withEntries ((unitSensors 0).map (fun i => (Key.temp i, 200000))) (run3 0 0 0)
    let cool := { run3 0 0 0 with ftime := 1000000, thermal := { coolAt := (List.range 344).map (fun i => (i, 0)), tripped := none } }
    (∃ i ∈ unitSensors 0, (sensorPoints i).1 ≤ hot.sensorTemp i) ∧
    (¬ ∃ i ∈ unitSensors 311, (sensorPoints i).1 ≤ hot.sensorTemp i) ∧
    (∀ i ∈ unitSensors 311, look i cool.thermal.coolAt = some 0 ∧ 0 + 1000000 ≤ cool.ftime) ∧
    ∃ i ∈ unitSensors 311, look i hot.thermal.coolAt = none := by
  decide +kernel

/-- The package with a start that runs. -/
def starting (cold verified : Bool) : State :=
  { run3 0 0 0 with startup := { Startup.fresh with running := true, cold := cold, verified := verified } }

/-- StartUpSequence: the pins in each of their states, and a package that was READY before. -/
theorem test_meets_pins :
    let s := run3 0 0 0
    let low := fun (n : Nat) (held : Bool) => { s with pins := { s.pins with prstN := false, lowNs := n, asserted := held } }
    (s.pins.pwrok = true ∧ s.pins.prstN = true ∧ s.thermal.tripped = none ∧ s.resets = [] ∧ s.fw.committing = false) ∧
    ((low 9998 false).pins.prstN = false ∧ (low 9998 false).pins.asserted = false ∧ (low 9998 false).pins.lowNs < 9999) ∧
    (9999 ≤ (low 9999 false).pins.lowNs ∧ (low 9999 false).pins.asserted = false) ∧ (low 0 true).pins.asserted = true ∧
    { s with pins := { s.pins with pwrok := false } }.pins.pwrok = false ∧ { s with pins := { s.pins with prstN := false } }.pins.prstN = false ∧
    { s with startup := { s.startup with everReady := true }, pins := { s.pins with prstN := false } }.startup.everReady = true := by
  decide +kernel

/-- StartUpSequence: boots with no slot tried and with one, warm and cold, and a boot that has ended. -/
theorem test_meets_boots :
    let b := { State.reset with startup := { Startup.fresh with running := true, cold := false } }
    (b.packageHeld = false ∧ b.startup.running = true ∧ b.startup.verified = false ∧ b.get Key.pkgState = 0 ∧ b.resets = [] ∧ b.fw.tried = [] ∧
      b.startup.cold = false) ∧
    { b with fw := { b.fw with tried := [true] } }.fw.tried = [true] ∧ (starting true true).supplyHeld 0 = false ∧
    ((starting true true).packageHeld = false ∧ (starting true true).startup.running = true ∧ (starting true true).startup.verified = true ∧
      (starting true true).startup.quickDone = false ∧ (starting true true).startup.cold = true) ∧
    { starting true true with startup := { (starting true true).startup with quickDone := true } }.startup.quickDone = true ∧
    (let q := starting true true
     q.supplyHeld (physSetting 4895) = false ∧ (q.hall.quickBad.contains 4895 || q.hall.tests.any (fun x => x.quick && 17 * x.cluster + x.core == 4895)) = false ∧
      { q with hall := { q.hall with quickBad := [4895] } }.hall.quickBad.contains 4895 = true) ∧
    (ready.dieFenced (4895 / 68) = false ∧ (∀ n ∈ ([3] : List Cluster), n.val / 4 ≠ 4895 / 68) ∧ ready.badCore (4895 / 17) (4895 % 17) = false) := by
  decide +kernel

/-- A boot whose slot holds an image, with fuses. -/
def booting (f : Fuses) (bs : List Byte) : State :=
  let s := starting true false
  { s with dict := put Key.pkgState.key 0 s.dict, fuses := f, fw := { s.fw with slotA := Mem.zero.writeN 0 bs } }

/-- What the four instances find there. -/
def verdicts (s : State) (seen : List (Option Bool)) : List (Option Nat) :=
  seen.map (fun x => x.map (fun whole => if whole then s.imageCheck s.attemptSlot else 1))

/-- The image came to all four whole. -/
abbrev allWhole : List (Option Bool) := [some true, some true, some true, some true]

/-- The check of an image depends on the bytes of its slot and the fuses alone. -/
theorem imageCheck_congr {s t : State} {j k : Nat} (m : s.fw.slot j = t.fw.slot k) (f : s.fuses = t.fuses) : s.imageCheck j = t.imageCheck k := by
  unfold State.imageCheck
  rw [sigCheck_congr (congrArg Fuses.digests f) (congrArg Fuses.revoked f) (imageOf_congr m), m, f]

/-- What the instances find in a slot whose image the update tests have checked. -/
theorem verdicts_of {f : Fuses} {bs : List Byte} {v : Nat} (h : (updating f bs 0xFFFFFFFFFF 0).imageCheck 1 = v) (seen : List (Option Bool)) :
    verdicts (booting f bs) seen = seen.map (fun x => x.map (fun whole => if whole then v else 1)) := by
  have a : (booting f bs).attemptSlot = 0 := rfl
  have c : (booting f bs).imageCheck 0 = (updating f bs 0xFFFFFFFFFF 0).imageCheck 1 := imageCheck_congr rfl rfl
  unfold verdicts
  rw [a, c, h]

/-- StartUpSequence: a boot whose image may run. -/
theorem test_meets_boot :
    (let s := booting (keyed 0 1) signedImage
     s.packageHeld = false ∧ s.startup.running = true ∧ s.startup.verified = false ∧ s.get Key.pkgState = 0 ∧ s.resets = []) ∧
    verdicts (booting (keyed 0 1) signedImage) allWhole = [some 0, some 0, some 0, some 0] :=
  ⟨by decide +kernel, verdicts_of test_meets_good_images.1 _⟩

/-- StartUpSequence: an image for each counter, instances that disagree, and one that is silent. -/
theorem test_meets_verdicts :
    verdicts (booting ready.fuses []) allWhole = [some 1, some 1, some 1, some 1] ∧
    verdicts (booting ready.fuses (image 0)) allWhole = [some 2, some 2, some 2, some 2] ∧
    verdicts (booting (keyed 1 0) (image 0)) allWhole = [some 3, some 3, some 3, some 3] ∧
    verdicts (booting (keyed 0 2) signedImage) allWhole = [some 4, some 4, some 4, some 4] ∧
    verdicts (booting ready.fuses (image 0)) [some true, some false, some true, some true] = [some 2, some 1, some 2, some 2] ∧
    verdicts (booting ready.fuses []) [some true, none, some true, some true] = [some 1, none, some 1, some 1] :=
  ⟨verdicts_of test_meets_bad_images.1 _, verdicts_of test_meets_bad_images.2.1 _, verdicts_of test_meets_bad_images.2.2 _,
    verdicts_of test_meets_good_images.2 _, verdicts_of test_meets_bad_images.2.1 _, verdicts_of test_meets_bad_images.1 _⟩

/-- The package in a start or after it, with a stack that trains. -/
def trains (run : Bool) : State :=
  { starting true true with startup := { (starting true true).startup with running := run }, hbms := [(23, { Stack.fresh with training := true })] }

/-- StartUpSequence: a stack that trains in a cold start and one after it, and one that does not train. -/
theorem test_meets_training (run : Bool) :
    let x := (trains run).stack 23
    (trains run).packageHeld = false ∧ x.training = true ∧ x.off = false ∧ (trains run).supplyHeld 23 = false ∧
    (trains run).get Key.pkgState ≠ 2 ∧ (trains run).startup.running = run ∧ (trains run).startup.verified = true ∧ (trains run).startup.cold = true ∧
    23 ∉ (trains run).startup.hbmDone ∧ x.failed = false ∧ 31 ∈ x.active ∧ ((trains run).stack 0).training = ((trains run).stack 1).training ∧
    ((serving Core.fresh).stack 0).training = false := by
  revert run; decide +kernel

theorem test_meets_training_quiet (run : Bool) : Quiet (trains run) ∧ Quiet (starting true true) :=
  ⟨quiet_of rfl rfl ⟨rfl, rfl, rfl, rfl⟩, quiet_of rfl rfl ⟨rfl, rfl, rfl, rfl⟩⟩

/-- StartUpSequence: a start that is ready, one that is not, and starts that have run out of time, once more and for good. -/
theorem test_meets_ready :
    let r := withEntries [(Key.fencedSettings, 0xFFFFFF)] { starting true true with
      startup := { (starting true true).startup with quickDone := true, linksOut := List.range 32 }, resets := [newJob 6 0 0 4 .running 0] }
    let s := starting true true
    r.isReady = true ∧ s.isReady = false ∧ (∀ j ∈ r.resets, j.domain = 6 → j.next = none) ∧
    (s.startup.repeats < 3 ∧ s.pins.bootStrap = 0 ∧ s.flashRestore = false) ∧
    3 ≤ { s with startup := { s.startup with repeats := 3 } }.startup.repeats ∧ ready.startup.cold = true := by
  decide +kernel

/-- CtuWordsRoundTrip: an instruction that has a word, and a word that is one. -/
theorem test_meets_round_trip :
    (encodeCtu (.halt 0)).isSome = true ∧ ((encodeCtu (.halt 0)).bind (decodeCtu 5)).isSome = true := by
  decide +kernel

/-- FusesOnlyGrow: the fuses hold what they hold, and a package with nothing to do takes a step. -/
theorem test_meets_fuses : Fuses.made.Extends State.reset.fuses ∧ ∃ t, step State.reset = .next t :=
  ⟨⟨rfl, rfl, rfl, rfl, Nat.le_refl _, fun _ h => h⟩, ⟨_, rfl⟩⟩

/-- MemoriesStayCanonical: the memories are in canonical form after reset, and a package with nothing to do takes a step. -/
theorem test_meets_canonical : MemsWf State.reset ∧ ∃ t, step State.reset = .next t :=
  ⟨⟨fun _ => ⟨rfl, rfl⟩, fun _ => rfl⟩, ⟨_, rfl⟩⟩

end Sys2Proof.Tests
end

section
/-!
PROOFS. Lists: folds that keep something, and a list taken apart at one of its elements.
-/
namespace Sys2Proof.Machine

/-- A fold over elements of which none changes the state leaves it. -/
theorem foldl_fixed_of_mem {α β : Type} {f : α → β → α} {s : α} {l : List β} (h : ∀ b ∈ l, f s b = s) : l.foldl f s = s := by
  induction l with
  | nil => rfl
  | cons b l ih =>
    rw [List.foldl_cons, h b (by simp)]
    exact ih fun c hc => h c (by simp [hc])

/-- What every step of a fold keeps, the fold keeps. -/
theorem foldl_keeps {α β γ : Type} (π : α → γ) {f : α → β → α} (h : ∀ s b, π (f s b) = π s) (l : List β) (s : α) :
    π (l.foldl f s) = π s := by
  induction l generalizing s with
  | nil => rfl
  | cons b l ih => rw [List.foldl_cons, ih, h]

/-- A list without repetition, taken apart at one of its elements. -/
theorem exists_split_of_nodup {α : Type} {a : α} {l : List α} (h : a ∈ l) (nd : l.Nodup) :
    ∃ u v, l = u ++ a :: v ∧ (∀ b ∈ u, b ≠ a) ∧ ∀ b ∈ v, b ≠ a := by
  obtain ⟨u, v, rfl⟩ := List.append_of_mem h
  obtain ⟨-, tail, apart⟩ := List.nodup_append.mp nd
  exact ⟨u, v, rfl, fun b hb => apart b hb a (by simp), fun b hb e => (List.nodup_cons.mp tail).1 (e ▸ hb)⟩

end Sys2Proof.Machine
end

section
/-!
PROOFS. Packages in transit (R341, R371, R386): why `TransitPackets` fails, in a state whose list of links names one link twice.
-/
namespace Sys2Proof.Machine

/-- A packet for the neighbour at coordinate 1 of axis 0, with one hop left. -/
def hopPacket : Packet := { Packet.blank with destNode := 1, hopsLeft := 1 }

/-- A package with a route to that neighbour over port 0, whose list of links holds two entries of link 0: the one that counts says that it is
ACTIVE, and the one behind it, DISABLED, holds the packet. -/
def doubledLink : State :=
  { State.reset with
    dict := [(Key.axisSizes.key, 0x01010102), ((Key.axisRoute 0 0 1).key, 5)]
    links := [(0, { LinkState.fresh with st := 5 }), (0, { LinkState.fresh with parked := [(0, hopPacket)] })] }

/-- The packet may go on over port 0: its port is not fenced, its table is in use, and the route of axis 0 leads there. -/
theorem doubledLink_routes :
    let s := doubledLink
    let e := s.get (Key.axisRoute 0 0 (coord 1 0))
    s.packageHeld = false ∧ s.fenced 0 1 = false ∧ s.tableState 0 ≠ 0 ∧ s.upDown = false ∧ s.exceptionFor 0 1 = none ∧
      coord 1 0 ≠ coord s.node 0 ∧ bit e 2 = true ∧ coord 1 0 < s.axisSize 0 ∧ fld e 0 2 = 0 + 1 ∧ s.portFor 0 0 0 = some 0 ∧
      s.usable 0 0 = true := by
  decide +kernel

/-- The buffer space that frees puts the DISABLED entry of link 0 in front, so port 0 is no longer usable. -/
theorem doubledLink_freeSpace : ((doubledLink.takeIn (some 1) hopPacket).freeSpace hopPacket).usable 0 0 = false := by
  decide +kernel

/-- So the packet is dropped, and nothing is put out. -/
theorem doubledLink_drops : ∃ t, exec (.packetForward (some 1) hopPacket) doubledLink = .next t ∧ t.out = [] :=
  ⟨_, rfl, by decide +kernel⟩

end Sys2Proof.Machine

open Sys2Proof Sys2Proof.Machine

/-- Refutes O38: where the list of links holds two entries of one link, the buffer space of a packet is freed in the entry that holds it, which
then stands for the link in place of the ACTIVE one, and a packet whose port was usable when it came is dropped. -/
theorem not_transitPackets : ¬ Obligations.TransitPackets := by
  unfold Obligations.TransitPackets
  intro h
  obtain ⟨held, fence, table, mode, exc, differs, set, size, dir, port, usable⟩ := doubledLink_routes
  obtain ⟨t, ht, out⟩ := doubledLink_drops
  obtain ⟨-, -, -, -, transit, -⟩ := h 1 hopPacket doubledLink held
  obtain ⟨-, -, hops⟩ := transit ⟨fence, table⟩ mode rfl rfl
  obtain ⟨-, sends⟩ := hops 0 (fun b hb => absurd hb (by omega)) differs (by decide) exc
  obtain ⟨u, y, hu, sent, -⟩ := sends 0 0 set size dir port usable
  rw [ht] at hu
  cases hu
  rw [out] at sent
  cases sent
end

section
/-!
PROOFS. The dictionary (R399, R469): why `DictionaryRequests` fails, in a state whose waiting packet names a port that the package does not have.
-/
namespace Sys2Proof.Machine

/-- With nothing buffered on a link, offering them again leaves the packets that wait, one after another. -/
theorem State.pump_idle {s : State} (h : ∀ l, (s.link l).txq = []) : s.pump = s.waiting.foldl State.retryPort { s with waiting := [] } := by
  have idle : ∀ ls : List Nat, ls.foldl (fun (s : State) l => if (s.link l).txq.isEmpty then s else s.pumpLink l) s = s :=
    fun ls => foldl_fixed_of_mem fun l _ => if_pos (by simp [h l])
  unfold State.pump
  rw [idle]

/-- A write after which every ACTIVE link has the record it had is not announced. -/
theorem State.announce_same {s old : State}
    (h : ∀ l p, s.portOf l = some p → (s.link l).st = 5 → s.nbRecord p l = old.nbRecord p l) : s.announce old = s := by
  refine foldl_fixed_of_mem fun l _ => ?_
  split
  · rfl
  · next p port => exact if_neg fun ⟨active, differs⟩ => differs (h l p port active)

/-- A packet that waits for a port with one link that carries takes that link, if it has credit and holds no other of its virtual channel. -/
theorem State.tryPort_single {s : State} {port vc l : Nat} {p was : Packet} {r : Route}
    (one : (s.portLinks port).filter (fun l => (s.link l).carries) = [l]) (cls : ¬ p.cls = 1#2) (credit : (s.link l).credit vc ≠ 0)
    (free : (s.link l).txq = []) :
    s.tryPort (port, vc, p, was, r) =
      ((s.setLink l { s.link l with txq := [(vc, b2n p.epoch, packetBytes p)] }).countTransit port p).pumpLink l := by
  unfold State.tryPort
  simp [one, cls, credit, free, Nat.mod_one]

/-- A packet of another package. -/
def foreignPacket : Packet := { Packet.blank with srcNode := 1 }

/-- A package in which a packet waits for port 244, which there is not: the key of its TRANSIT_BYTES is that of AXIS_ROUTE version 1, axis 0,
coordinate 16. By the keys of the dictionary that port has link 0, which carries; port 0, to which the link belongs, is fenced. -/
def strayPort : State :=
  { State.reset with
    dict := [((Key.portLinkMask 244).key, 1), ((Key.portFence 0).key, 1)]
    waiting := [(244, 0, foreignPacket, foreignPacket, .none)]
    links := [(0, { LinkState.fresh with st := 5, nbState := 5, credits := [(0, 4096)] })] }

/-- The row of AXIS_ROUTE. -/
def axisRouteRow : EntryRow := ⟨"AXIS_ROUTE", 0x5900, 8, 0x00, 256, 1, 2, 1, true, 1, 0, 0, 65535, 1⟩

/-- A write of AXIS_ROUTE version 1, axis 0, coordinate 16 is admitted. -/
theorem strayPort_admits :
    let s := strayPort
    s.leadAnswers = true ∧ s.entryRow 0x5904 16 = some axisRouteRow ∧ s.admits axisRouteRow 0x5904 16 = true ∧
      s.inRange axisRouteRow 0x5904 16 (leNat [0, 0]) = true := by
  decide +kernel

/-- The package once the entry is set to 0. -/
def strayWritten : State := strayPort.set ⟨0x590410, 0⟩ 0

theorem strayPort_takeValue : strayPort.takeValue axisRouteRow 0x5904 16 [0, 0] = some (strayWritten, none) := rfl

/-- Link 0, which alone is ACTIVE, has the record it had. -/
theorem strayWritten_announce : strayWritten.announce strayPort = strayWritten := by
  refine State.announce_same fun l p port active => ?_
  cases l with
  | succ l => exact absurd active (show (0 : Nat) ≠ 5 by decide)
  | zero =>
    have zero : strayWritten.portOf 0 = some 0 := by decide +kernel
    rw [zero] at port
    cases port
    rfl

theorem strayWritten_idle (l : Nat) : (strayWritten.link l).txq = [] := by
  cases l <;> rfl

/-- The waiting packet leaves over link 0, and its 40 bytes count at the key of the entry. -/
theorem strayWritten_pump : strayWritten.pump.get ⟨0x590410, 0⟩ = 40 := by
  rw [State.pump_idle strayWritten_idle]
  show (State.retryPort { strayWritten with waiting := [] } (244, 0, foreignPacket, foreignPacket, .none)).get _ = 40
  unfold State.retryPort
  rw [if_pos (by decide +kernel), State.tryPort_single (l := 0) (by decide +kernel) (by decide) (by decide +kernel) (by decide +kernel)]
  decide +kernel

/-- So after the write the entry holds 40. -/
theorem strayPort_write : ∃ t, exec (.entryWrite 0x5904 16 [0, 0]) strayPort = .next t ∧ t.get ⟨0x590410, 0⟩ = 40 := by
  obtain ⟨lead, row, admits, range⟩ := strayPort_admits
  have whole := (State.checkedWrite_whole row admits rfl).trans (State.writeWhole_takes range strayPort_takeValue)
  refine ⟨_, congrArg Host.Outcome.next (State.manage_accepts lead whole), ?_⟩
  rw [State.get_emit, State.get_count_other _ _ (by decide), strayWritten_announce]
  exact strayWritten_pump

end Sys2Proof.Machine

open Sys2Proof Sys2Proof.Machine

/-- Refutes O50: after a write of an entry what waits is offered again, and a packet that waits for a port number above 239 counts its bytes
at the key of an entry that can be written (here AXIS_ROUTE), which then does not hold the value written. -/
theorem not_dictionaryRequests : ¬ Obligations.DictionaryRequests := by
  unfold Obligations.DictionaryRequests
  intro h
  obtain ⟨lead, row, admits, range⟩ := strayPort_admits
  obtain ⟨t, ht, value⟩ := strayPort_write
  obtain ⟨-, writes, -⟩ := h { src := 0, magic := 0, version := 0, seq := 0, items := 0, serial := 0 } [] strayPort
  obtain ⟨-, answers⟩ := writes 0x5904 16 [0, 0]
  obtain ⟨-, entry⟩ := answers lead
  obtain ⟨-, -, -, sets⟩ := entry axisRouteRow row
  obtain ⟨u, hu, holds, -⟩ := sets admits rfl range (by decide)
  rw [ht] at hu
  cases hu
  exact absurd (value.symm.trans holds) (by decide +kernel)
end

section
/-!
PROOFS. Counters and captures (R474, R485, R490): what a counter holds once other entries have changed, and the request of a reset that captures.
-/
namespace Sys2Proof.Machine

/-! ## Counters -/

theorem counted_count (s : State) (e : Ent) (n : Nat) : Counted s (s.count e n) e n := by
  unfold Counted State.count
  split <;> simp

/-- A count stands while other entries change after it. -/
theorem Counted.then {s t u : State} {e : Ent} {n : Nat} (h : Counted s t e n) (g : u.get e = t.get e) : Counted s u e n := g.trans h

/-- A count stands though other entries changed before it. -/
theorem Counted.from {s t u : State} {e : Ent} {n : Nat} (h : Counted t u e n) (g : t.get e = s.get e) : Counted s u e n := by
  unfold Counted at h ⊢
  rw [h, g]

/-! ## Captures (R485, R490) -/

/-- A capture of a domain for a cause has begun and counts; nothing else of the package's cores and stacks has changed. -/
def Captured (s t : State) (d : Domain) (cause : Nat) (count : Ent) : Prop :=
  t.resets = [{ newJob d.1 d.2.1 d.2.2 cause .capture s.ftime with seq := satAdd64 (s.get Key.locketsCaptured) 1 }] ∧ t.cores = s.cores ∧
    t.hbms = s.hbms ∧ Counted s t count 1 ∧ Counted s t Key.locketsCaptured 1

/-- The request of a reset with capture, of a unit below the package that is not fenced, begins its capture where no reset is in progress. -/
theorem State.requestReset_captures {s : State} {d : Domain} (idle : s.resets = []) (ready : s.get Key.pkgState ≠ 0)
    (open' : s.domFenced d = false) (below : d.1 < 5) (cause : Nat) :
    s.requestReset d cause true =
      { s.count Key.locketsCaptured 1 with
        resets := [{ newJob d.1 d.2.1 d.2.2 cause .capture s.ftime with seq := satAdd64 (s.get Key.locketsCaptured) 1 }] } := by
  rw [State.requestReset_starts idle ready open' (.inl (by omega))]
  have seq : (s.count Key.locketsCaptured 1).get Key.locketsCaptured = satAdd64 (s.get Key.locketsCaptured) 1 :=
    counted_count s Key.locketsCaptured 1
  unfold State.startReset State.startCapture
  simp [show d.1 ≠ 6 by omega, show d.1 ≠ 5 by omega, seq, idle, newJob]

/-- A request made once the cause has been counted leaves the state captured. -/
theorem captured_requestReset {s u : State} {d : Domain} {count : Ent} (idle : u.resets = []) (ready : u.get Key.pkgState ≠ 0)
    (open' : u.domFenced d = false) (below : d.1 < 5) (cause : Nat) (time : u.ftime = s.ftime) (cores : u.cores = s.cores)
    (hbms : u.hbms = s.hbms) (counts : Counted s u count 1) (seq : u.get Key.locketsCaptured = s.get Key.locketsCaptured)
    (other : count.key ≠ Key.locketsCaptured.key) : Captured s (u.requestReset d cause true) d cause count := by
  rw [State.requestReset_captures idle ready open' below]
  refine ⟨by rw [seq, time], by simpa using cores, by simpa using hbms, counts.then (u.get_count_other 1 other), ?_⟩
  exact (counted_count u Key.locketsCaptured 1).from seq

end Sys2Proof.Machine
end
section
/-!
PROOFS. Watchdogs and heartbeats (R481–R484): when an expiry asks for a capture, and what a heartbeat check notes.
-/
namespace Sys2Proof.Machine

theorem State.dieFenced_count (s : State) {e : Ent} (n : Nat) (a : e.key ≠ Key.fencedDies.key) (b : e.key ≠ Key.fencedSettings.key)
    (d : Nat) : (s.count e n).dieFenced d = s.dieFenced d := by
  unfold State.dieFenced
  rw [s.get_count_other n a.symm, s.get_count_other n b.symm]

/-! ## Watchdogs (R481, R482) -/

theorem engineWdtExpiry_idle {core : CoreId} {p : Nat} {e : Fin 3} {s : State} (h : Holds s core p)
    (quiet : s.watched p = false ∨ s.engineBusy p e.val = false) : exec (.engineWdtExpiry core e) s = .next s := by
  show execEngineWdtExpiry core e s = _
  unfold execEngineWdtExpiry
  rw [show s.physOf core.toNat = some p from h]
  exact if_neg fun ⟨a, b, _⟩ => by rcases quiet with g | g <;> simp_all

theorem coreWdtExpiry_idle {core : CoreId} {p : Nat} {s : State} (h : Holds s core p)
    (quiet : s.watched p = false ∨ s.coreBusy p = false) : exec (.coreWdtExpiry core) s = .next s := by
  show execCoreWdtExpiry core s = _
  unfold execCoreWdtExpiry
  rw [show s.physOf core.toNat = some p from h]
  exact if_neg fun ⟨a, b, _⟩ => by rcases quiet with g | g <;> simp_all

/-- A unit of a core asks for a capture once its watchdog has counted. -/
theorem captured_watchdog {s : State} {p : Nat} {d : Domain} {count : Ent} (idle : s.resets = []) (ready : s.get Key.pkgState = 1)
    (die : s.dieFenced (p / 68) = false) (small : d.1 ≤ 1) (target : d.2.2 = p) (cause : Nat) (apart : 0x8400 * 256 ≤ count.key) :
    Captured s ((s.count count 1).requestReset d cause true) d cause count := by
  have keys : count.key ≠ Key.pkgState.key ∧ count.key ≠ Key.fencedDies.key ∧ count.key ≠ Key.fencedSettings.key ∧
      count.key ≠ Key.locketsCaptured.key := by
    simp only [Key.pkgState, Key.fencedDies, Key.fencedSettings, Key.locketsCaptured]
    omega
  obtain ⟨pkg, dies, settings, lockets⟩ := keys
  obtain ⟨k, e, q⟩ := d
  simp only at small target
  subst target
  refine captured_requestReset (by simpa using idle) ?_ ?_ (by simp only; omega) cause (by simp) (by simp) (by simp) (counted_count s count 1)
    (s.get_count_other 1 lockets.symm) lockets
  · rw [s.get_count_other 1 pkg.symm, ready]
    decide
  · have open' := (s.dieFenced_count 1 dies settings (q / 68)).trans die
    obtain rfl | rfl : k = 0 ∨ k = 1 := by omega
    · exact open'
    · exact open'

theorem engineWdtExpiry_captures {core : CoreId} {p : Nat} {e : Fin 3} {s : State} (h : Holds s core p) (idle : s.resets = [])
    (ready : s.get Key.pkgState = 1) (die : s.dieFenced (p / 68) = false) (watched : s.watched p = true)
    (busy : s.engineBusy p e.val = true) (free : s.engineHeld p e.val = false) :
    ∃ t, exec (.engineWdtExpiry core e) s = .next t ∧ Captured s t (0, e.val, p) 1 (Key.engineWdtExpiries (physCluster p)) := by
  refine ⟨_, ?_, captured_watchdog (p := p) (d := (0, e.val, p)) idle ready die (Nat.zero_le _) rfl 1
    (by simp only [Key.engineWdtExpiries]; omega)⟩
  show execEngineWdtExpiry core e s = _
  unfold execEngineWdtExpiry
  rw [show s.physOf core.toNat = some p from h]
  exact if_pos ⟨watched, busy, free⟩

theorem coreWdtExpiry_captures {core : CoreId} {p : Nat} {s : State} (h : Holds s core p) (idle : s.resets = [])
    (ready : s.get Key.pkgState = 1) (die : s.dieFenced (p / 68) = false) (watched : s.watched p = true)
    (busy : s.coreBusy p = true) (free : s.coreHeld p = false) :
    ∃ t, exec (.coreWdtExpiry core) s = .next t ∧ Captured s t (1, 0, p) 2 (Key.coreWdtExpiries (physCluster p)) := by
  refine ⟨_, ?_, captured_watchdog (p := p) (d := (1, 0, p)) idle ready die (Nat.le_refl _) rfl 2
    (by simp only [Key.coreWdtExpiries]; omega)⟩
  show execCoreWdtExpiry core s = _
  unfold execCoreWdtExpiry
  rw [show s.physOf core.toNat = some p from h]
  exact if_pos ⟨watched, busy, free, by simp [idle]⟩

/-! ## Heartbeats (R483) -/

/-- A die that is not among those named has no misses in a row. -/
theorem State.beat_heard {s : State} {missed : List Nat} {u : Nat} (h : missed.contains u = false) :
    s.beat missed u = { s with missed := drop' u s.missed } := by
  unfold State.beat
  split
  · rfl
  · exact if_pos (by simp only [h, Bool.not_false])

/-- Dies that are not among those named leave the misses of another. -/
theorem State.beats_heard {s : State} {missed l : List Nat} (h : ∀ v ∈ l, missed.contains v = false ∧ drop' v s.missed = s.missed) :
    l.foldl (fun s u => s.beat missed u) s = s :=
  foldl_fixed_of_mem fun v hv => by rw [State.beat_heard (h v hv).1, (h v hv).2]

theorem drop_single_other {α : Type} {u v : Nat} (k : α) (h : v ≠ u) : drop' v [(u, k)] = [(u, k)] := by
  simp [drop', Ne.symm h]

/-- A check that names no die but `u`, the only one whose misses are noted before it and after: it is as if die `u` alone were checked. -/
theorem heartbeatCheck_at {s t : State} {missed : List Nat} {u k : Nat} (hu : u < 100) (wdt : s.flag Key.wdtEnable = true)
    (up : s.packageHeld = false) (ready : s.get Key.pkgState = 1) (named : ∀ v, v ≠ u → missed.contains v = false)
    (before : s.missed = [(u, k)]) (beat : s.beat missed u = t) (after : ∀ v, v ≠ u → drop' v t.missed = t.missed) :
    exec (.heartbeatCheck missed) s = .next t := by
  obtain ⟨pre, post, split, apart, apart'⟩ := exists_split_of_nodup (List.mem_range.mpr hu) List.nodup_range
  show execHeartbeatCheck missed s = _
  unfold execHeartbeatCheck
  rw [if_neg (by simp [wdt, up, ready]), split, List.foldl_append, List.foldl_cons]
  rw [State.beats_heard fun v hv => ⟨named v (apart v hv), by rw [before, drop_single_other k (apart v hv)]⟩, beat]
  rw [State.beats_heard fun v hv => ⟨named v (apart' v hv), after v (apart' v hv)⟩]

/-- A check in which no die is named clears the misses. -/
theorem heartbeatCheck_none {s : State} {u k : Nat} (hu : u < 100) (wdt : s.flag Key.wdtEnable = true) (up : s.packageHeld = false)
    (ready : s.get Key.pkgState = 1) (before : s.missed = [(u, k)]) :
    exec (.heartbeatCheck []) s = .next { s with missed := [] } :=
  heartbeatCheck_at hu wdt up ready (fun _ _ => rfl) before (by rw [State.beat_heard rfl, before]; simp [drop']) fun _ _ => rfl

/-- A compute die that is supervised and has missed one more: its miss counts, and at the limit it hangs. -/
theorem State.beat_missed {s : State} {u k : Nat} (hu : u < 72) (idle : s.resets = []) (die : s.dieFenced u = false)
    (watches : s.watches (u / 3) = true) (before : s.missed = [(u, k)]) :
    s.beat [u] u =
      let v := { s with missed := [(u, k + 1)] }.count (Key.heartbeatMissesDie u) 1
      if k + 1 = s.get Key.heartbeatMissLimit then (v.count (Key.dieHangsDie u) 1).requestReset (3, 0, u) 3 true else v := by
  have beats : s.beats u = true := by simp [State.beats, hu, watches, die, idle]
  unfold State.beat
  simp [beats, before, look, put, beatCounters, hu, State.hangReset]

/-- A miss below the limit is noted and counted. -/
theorem heartbeatCheck_misses {s : State} {u k : Nat} (hu : u < 72) (wdt : s.flag Key.wdtEnable = true) (up : s.packageHeld = false)
    (ready : s.get Key.pkgState = 1) (idle : s.resets = []) (die : s.dieFenced u = false) (watches : s.watches (u / 3) = true)
    (before : s.missed = [(u, k)]) (below : k + 1 ≠ s.get Key.heartbeatMissLimit) :
    exec (.heartbeatCheck [u]) s = .next ({ s with missed := [(u, k + 1)] }.count (Key.heartbeatMissesDie u) 1) := by
  refine heartbeatCheck_at (by omega) wdt up ready (fun v h => by simpa using h) before ?_ fun v h => ?_
  · rw [State.beat_missed hu idle die watches before]
    exact if_neg below
  · rw [State.count_missed, drop_single_other _ h]

/-- The miss that reaches the limit counts the hang too, and the die is captured. -/
theorem heartbeatCheck_hangs {s : State} {u k : Nat} (hu : u < 72) (wdt : s.flag Key.wdtEnable = true) (up : s.packageHeld = false)
    (ready : s.get Key.pkgState = 1) (idle : s.resets = []) (die : s.dieFenced u = false) (watches : s.watches (u / 3) = true)
    (before : s.missed = [(u, k)]) (limit : k + 1 = s.get Key.heartbeatMissLimit) :
    ∃ t, exec (.heartbeatCheck [u]) s = .next t ∧ Captured s t (3, 0, u) 3 (Key.dieHangsDie u) := by
  have keys : ∀ e ∈ [Key.pkgState, Key.fencedDies, Key.fencedSettings, Key.locketsCaptured], e.key ≠ (Key.heartbeatMissesDie u).key ∧
      e.key ≠ (Key.dieHangsDie u).key := by
    simp only [List.forall_mem_cons, Key.pkgState, Key.fencedDies, Key.fencedSettings, Key.locketsCaptured, Key.heartbeatMissesDie,
      Key.dieHangsDie]
    refine ⟨?_, ?_, ?_, ?_, by simp⟩ <;> omega
  let w := ({ s with missed := [(u, k + 1)] }.count (Key.heartbeatMissesDie u) 1).count (Key.dieHangsDie u) 1
  have same : ∀ e ∈ [Key.pkgState, Key.fencedDies, Key.fencedSettings, Key.locketsCaptured], w.get e = s.get e := fun e he => by
    rw [State.get_count_other _ 1 (keys e he).2, State.get_count_other _ 1 (keys e he).1]
    rfl
  have none : w.resets = [] := by simp [w, idle]
  have open' : w.domFenced (3, 0, u) = false := by
    have dies : w.dieFenced u = false := by
      unfold State.dieFenced at die ⊢
      rw [same _ (by simp), same _ (by simp)]
      exact die
    simpa [State.domFenced, domCores] using dies
  have ready' : w.get Key.pkgState ≠ 0 := by
    rw [same _ (by simp), ready]
    decide
  have hang : s.beat [u] u = w.requestReset (3, 0, u) 3 true := by
    rw [State.beat_missed hu idle die watches before]
    exact if_pos limit
  have other : (Key.dieHangsDie u).key ≠ (Key.heartbeatMissesDie u).key := by
    simp only [Key.dieHangsDie, Key.heartbeatMissesDie]
    omega
  refine ⟨_, heartbeatCheck_at (by omega) wdt up ready (fun v h => by simpa using h) before hang fun v h => ?_,
    captured_requestReset none ready' open' (by simp) 3 (by simp [w]) (by simp [w]) (by simp [w]) ?_ (same _ (by simp))
      (keys Key.locketsCaptured (by simp)).2.symm⟩
  · have missed : (w.requestReset (3, 0, u) 3 true).missed = [(u, k + 1)] := by
      rw [State.requestReset_captures none ready' open' (by simp)]
      simp [w]
    rw [missed, drop_single_other _ h]
  · exact (counted_count _ (Key.dieHangsDie u) 1).from (State.get_count_other _ 1 other)

end Sys2Proof.Machine
end
section
/-!
PROOFS. Operations that leave most of the package alone (R350, R539, R542, R546): a projection that forgets what they change, and that they keep
the rest.
-/
namespace Sys2Proof.Machine

/-! ## Links (R350) -/

/-- The package without what training links changes. -/
def State.sansLinks (s : State) : State := { s with out := [], dict := [], links := [], startup := Startup.fresh }

@[simp] theorem State.sansLinks_count (s : State) (e : Ent) (n : Nat) : (s.count e n).sansLinks = s.sansLinks := by
  unfold State.count
  split <;> rfl

theorem State.sansLinks_sendFrame (s : State) (l ftype vc seq : Nat) (body : List Byte) :
    (s.sendFrame l ftype vc seq body).sansLinks = s.sansLinks := by
  unfold State.sendFrame
  dsimp only
  split <;> simp only [State.sansLinks_count] <;> rfl

theorem State.sansLinks_setLinkSt (s : State) (l st : Nat) : (s.setLinkSt l st).sansLinks = s.sansLinks := by
  unfold State.setLinkSt State.sendState
  dsimp only
  split
  · rfl
  · split
    · split <;> rfl
    · rw [State.sendControl, State.sansLinks_sendFrame]
      split <;> rfl

theorem State.sansLinks_trainLinks (s : State) : s.trainLinks.sansLinks = s.sansLinks :=
  foldl_keeps State.sansLinks (fun s l => by
    split
    · exact s.sansLinks_setLinkSt l 2
    · rfl) _ s

/-! ## The board (R539, R542, R546) -/

/-- The package without what it drives on the board: outputs, the dictionary and free values. -/
def State.sansBoard (s : State) : State := { s with out := [], dict := [], freeCtr := 0 }

@[simp] theorem State.sansBoard_set (s : State) (e : Ent) (v : Nat) : (s.set e v).sansBoard = s.sansBoard := rfl

@[simp] theorem State.sansBoard_tick (s : State) : s.tick.sansBoard = s.sansBoard := rfl

@[simp] theorem State.sansBoard_emit (s : State) (o : Output) : (s.emit o).sansBoard = s.sansBoard := rfl

@[simp] theorem State.sansBoard_count (s : State) (e : Ent) (n : Nat) : (s.count e n).sansBoard = s.sansBoard := by
  unfold State.count
  split <;> rfl

/-- What both a projection and the entries below 0x9000 keep. -/
def BoardOnly (s t : State) : Prop := t.sansBoard = s.sansBoard ∧ ∀ e : Ent, e.key < 0x9000 * 256 → t.get e = s.get e

theorem BoardOnly.refl (s : State) : BoardOnly s s := ⟨rfl, fun _ _ => rfl⟩

theorem BoardOnly.trans {s t u : State} (h : BoardOnly s t) (g : BoardOnly t u) : BoardOnly s u :=
  ⟨g.1.trans h.1, fun e low => (g.2 e low).trans (h.2 e low)⟩

theorem boardOnly_emit (s : State) (o : Output) : BoardOnly s (s.emit o) := ⟨rfl, fun _ _ => rfl⟩

theorem boardOnly_tick (s : State) : BoardOnly s s.tick := ⟨rfl, fun _ _ => rfl⟩

theorem boardOnly_set (s : State) {e : Ent} (v : Nat) (high : 0x9000 * 256 ≤ e.key) : BoardOnly s (s.set e v) :=
  ⟨rfl, fun _ low => s.get_set_other v (by omega)⟩

theorem boardOnly_count (s : State) {e : Ent} (n : Nat) (high : 0x9000 * 256 ≤ e.key) : BoardOnly s (s.count e n) :=
  ⟨s.sansBoard_count e n, fun _ low => s.get_count_other n (by omega)⟩

theorem boardOnly_foldl {α : Type} {f : State → α → State} (h : ∀ s a, BoardOnly s (f s a)) (l : List α) (s : State) :
    BoardOnly s (l.foldl f s) := by
  induction l generalizing s with
  | nil => exact .refl s
  | cons a l ih => exact (h s a).trans (ih _)

theorem boardOnly_setProchot (s : State) (v : Nat) : BoardOnly s (s.setProchot v) := by
  unfold State.setProchot
  generalize List.range 288 = clusters
  refine boardOnly_foldl (fun s n => ?_) clusters s
  split
  · exact .refl s
  · exact boardOnly_set s _ (by simp only [Key.clusterSteps]; omega)

theorem boardOnly_raiseVolts (s before : State) : BoardOnly s (s.raiseVolts before) := by
  unfold State.raiseVolts
  generalize List.filter _ _ = clusters
  exact boardOnly_foldl (fun s n => boardOnly_set s _ (by simp only [Key.clusterMv]; omega)) clusters s

theorem boardOnly_prochotSteps (s : State) (was held : Bool) : BoardOnly s (s.prochotSteps was held) := by
  have pin : BoardOnly s (if s.drivesProchot = was then s else s.emit (.pin 0 s.drivesProchot)) := by
    split
    · exact .refl s
    · exact boardOnly_emit s _
  unfold State.prochotSteps
  dsimp only
  refine pin.trans ?_
  generalize (if s.drivesProchot = was then s else s.emit (.pin 0 s.drivesProchot)) = u
  split
  · exact boardOnly_setProchot u 16
  · split
    · split
      · exact .refl u
      · exact (boardOnly_setProchot u _).trans (boardOnly_tick _)
    · refine BoardOnly.trans ?_ (boardOnly_setProchot _ 8)
      split
      · exact .refl u
      · exact boardOnly_count u 1 (by decide)

theorem boardOnly_prochotChanged (s before : State) : BoardOnly s (s.prochotChanged before) :=
  (boardOnly_prochotSteps s _ _).trans (boardOnly_raiseVolts _ _)

theorem boardOnly_railCommand (s : State) (k cmd : Nat) : BoardOnly s (s.railCommand k cmd) := by
  unfold State.railCommand State.railSend
  split
  · split
    · exact boardOnly_emit s _
    · exact .refl s
  · exact .refl s

end Sys2Proof.Machine
end

section
/-!
PROOFS. The ends of resets and fences (R487, R488).
-/
namespace Sys2Proof.Machine

/-! ## RESET_COMPLETE (R487) -/

theorem resetComplete_of_endReset {s t : State} (up : s.packageHeld = false) (h : s.endReset 0 = t) (quiet : Quiet t) :
    exec (.resetComplete 0) s = .next t := by
  show Host.Outcome.next (s.whileUp fun s => (s.endReset 0).resumeAll) = _
  rw [State.whileUp_runs up, h, State.resumeAll_quiet quiet]

/-- A reset that captures, or whose units are not initialised, is not over. -/
theorem resetComplete_stays {s : State} {j : ResetJob} (up : s.packageHeld = false) (quiet : Quiet s) (one : s.resets = [j])
    (h : j.phase = .capture ∨ s.resetDone j = false) : exec (.resetComplete 0) s = .next s := by
  refine resetComplete_of_endReset up ?_ quiet
  unfold State.endReset
  rw [one]
  exact if_pos h

/-- A running reset for which nothing waits is over once its units are initialised: that of a rim die lets its links train, and the Chain answer
where it is rim die 0. -/
theorem State.endReset_done {s : State} {j : ResetJob} (one : s.resets = [j]) (running : j.phase = .running) (alone : j.next = none)
    (done : s.resetDone j = true) :
    s.endReset 0 =
      let u := { s with resets := [] }
      if j.domain = 5 then (if j.target = 0 then u.startChain.trainLinks else u.trainLinks) else u := by
  unfold State.endReset State.runNext
  rw [one]
  simp [running, alone, done]

theorem resetComplete_ends {s : State} {j : ResetJob} (up : s.packageHeld = false) (quiet : Quiet s) (one : s.resets = [j])
    (running : j.phase = .running) (alone : j.next = none) (done : s.resetDone j = true) (domain : j.domain ≠ 5) :
    exec (.resetComplete 0) s = .next { s with resets := [] } :=
  resetComplete_of_endReset up ((State.endReset_done one running alone done).trans (if_neg domain)) quiet

theorem State.of_sansLinks {s t : State} (h : t.sansLinks = s.sansLinks) :
    t.resets = s.resets ∧ t.cores = s.cores ∧ t.chain = s.chain :=
  ⟨(congrArg State.resets h :), (congrArg State.cores h :), (congrArg State.chain h :)⟩

/-- Quiet is kept by what keeps all but the links. -/
theorem Quiet.of_sansLinks {s t : State} (quiet : Quiet s) (h : t.sansLinks = s.sansLinks) : Quiet t := by
  have g : Quiet t.sansLinks := by
    rw [h]
    exact quiet
  exact g

theorem resetComplete_rim {s : State} {j : ResetJob} (up : s.packageHeld = false) (quiet : Quiet s) (one : s.resets = [j])
    (running : j.phase = .running) (alone : j.next = none) (domain : j.domain = 5) :
    ∃ t, exec (.resetComplete 0) s = .next t ∧ t.resets = [] ∧ t.cores = s.cores ∧ (j.target = 0 → t.chain.answers = true) := by
  have done : s.resetDone j = true := by simp [State.resetDone, domain]
  have ends := (State.endReset_done one running alone done).trans (if_pos domain)
  by_cases lead : j.target = 0
  · rw [if_pos lead] at ends
    have same := ({ s with resets := [] } : State).startChain.sansLinks_trainLinks
    obtain ⟨resets, cores, chain⟩ := State.of_sansLinks same
    exact ⟨_, resetComplete_of_endReset up ends (Quiet.of_sansLinks (s := { s with resets := [] }.startChain) quiet same), resets, cores,
      fun _ => by rw [chain]; rfl⟩
  · rw [if_neg lead] at ends
    have same := ({ s with resets := [] } : State).sansLinks_trainLinks
    obtain ⟨resets, cores, -⟩ := State.of_sansLinks same
    exact ⟨_, resetComplete_of_endReset up ends (Quiet.of_sansLinks (s := { s with resets := [] }) quiet same), resets, cores,
      fun h => absurd h lead⟩

/-! ## ESCALATION to a fence (R488) -/

theorem escalation_of_escalate {s t : State} (up : s.packageHeld = false) (h : s.escalate 0 = t) (reqs : t.host.reqs = []) :
    exec (.escalation 0) s = .next t := by
  show Host.Outcome.next (s.whileUp fun s => (s.escalate 0).hostRetry) = _
  rw [State.whileUp_runs up, h, State.hostRetry_quiet reqs]

theorem escalation_stays {s : State} {j : ResetJob} (up : s.packageHeld = false) (quiet : Quiet s) (one : s.resets = [j])
    (capture : j.phase = .capture) : exec (.escalation 0) s = .next s := by
  obtain ⟨-, -, -, reqs, -⟩ := quiet
  refine escalation_of_escalate up ?_ reqs
  unfold State.escalate
  rw [one]
  exact if_pos capture

/-- The number of a unit is set in a mask that it has been added to. -/
theorem bit_or_two_pow (m d : Nat) : bit (m ||| 2 ^ d) d = true := by
  have h : (m ||| 2 ^ d).testBit d = true := by simp
  rw [Nat.testBit_eq_decide_div_mod_eq] at h
  unfold bit
  simpa using h

/-- A unit is noted in the mask of the fenced units of its kind, and counted among them: how every fence begins. -/
def State.noteFence (s : State) (mask total : Ent) (d : Nat) : State := (s.set mask (s.get mask ||| 2 ^ d)).count total 1

theorem State.sansBoard_noteFence (s : State) (mask total : Ent) (d : Nat) : (s.noteFence mask total d).sansBoard = s.sansBoard :=
  State.sansBoard_count _ total 1

theorem State.noteFence_mask (s : State) {mask total : Ent} (d : Nat) (apart : mask.key ≠ total.key) :
    (s.noteFence mask total d).get mask = s.get mask ||| 2 ^ d := by
  rw [State.noteFence, State.get_count_other _ 1 apart, State.get_set_self]

theorem counted_noteFence (s : State) {mask total : Ent} (d : Nat) (apart : mask.key ≠ total.key) :
    Counted s (s.noteFence mask total d) total 1 :=
  (counted_count _ total 1).from (s.get_set_other _ apart.symm)

/-- What is dropped is the whole list. -/
theorem filter_not_eq_nil {α : Type} {p : α → Bool} {l : List α} (h : ∀ a ∈ l, p a = true) : l.filter (fun a => !p a) = [] :=
  List.filter_eq_nil_iff.mpr fun a ha => by simp [h a ha]

/-- A die is fenced: its bit is set, the fence counts, and its resets are gone. -/
theorem State.fenceDie_spec {s : State} {d : Nat} (only : ∀ j ∈ s.resets, domCovers (3, 0, d) j.dom = true) :
    let t := s.fenceDie d
    t.dieFenced d = true ∧ t.resets = [] ∧ Counted s t Key.diesFencedTotal 1 ∧ t.cores = s.cores ∧ t.host = s.host := by
  intro t
  obtain ⟨rest, entries⟩ := boardOnly_prochotChanged (s.noteFence Key.fencedDies Key.diesFencedTotal d) s
  replace rest := rest.trans (s.sansBoard_noteFence _ _ d)
  have resets : ((s.noteFence Key.fencedDies Key.diesFencedTotal d).prochotChanged s).resets = s.resets :=
    (congrArg State.resets rest :)
  have mask : t.get Key.fencedDies = s.get Key.fencedDies ||| 2 ^ d :=
    (entries _ (by decide)).trans (s.noteFence_mask d (by decide))
  refine ⟨?_, ?_, ?_, (congrArg State.cores rest :), (congrArg State.host rest :)⟩
  · rw [State.dieFenced, mask, bit_or_two_pow, Bool.true_or]
  · exact (congrArg _ resets).trans (filter_not_eq_nil only)
  · exact (counted_noteFence s d (by decide)).then (entries _ (by decide))

/-- A setting is fenced: its bit is set, the fence counts, its stack cannot be reached, and its resets are gone. -/
theorem State.fenceSetting_spec {s : State} {n : Nat} (only : ∀ j ∈ s.resets, domCovers (4, 0, n) j.dom = true) :
    let t := s.fenceSetting n
    t.settingFenced n = true ∧ t.resets = [] ∧ Counted s t Key.settingsFencedTotal 1 ∧ (t.stack n).lost = true ∧ t.cores = s.cores ∧
      t.host = s.host := by
  intro t
  let v := (s.noteFence Key.fencedSettings Key.settingsFencedTotal n).prochotChanged s
  let w := v.setStack n { v.stack n with off := true, accepting := false }
  obtain ⟨rest, entries⟩ := boardOnly_prochotChanged (s.noteFence Key.fencedSettings Key.settingsFencedTotal n) s
  obtain ⟨rest', entries'⟩ := boardOnly_railCommand w n 0
  replace rest := rest.trans (s.sansBoard_noteFence _ _ n)
  have same : ∀ e : Ent, e.key < 0x9000 * 256 → t.get e = (s.noteFence Key.fencedSettings Key.settingsFencedTotal n).get e :=
    fun e low => (entries' e low).trans (entries e low)
  have off : (t.stack n).off = true := by
    have hbms : t.hbms = w.hbms := (congrArg State.hbms rest' :)
    have stack : t.stack n = { v.stack n with off := true, accepting := false } := by
      unfold State.stack
      rw [hbms]
      exact congrArg (Option.getD · _) (look_put_self n _ v.hbms)
    rw [stack]
  refine ⟨?_, ?_, ?_, ?_, ?_, ?_⟩
  · rw [State.settingFenced, same _ (by decide), s.noteFence_mask n (by decide), bit_or_two_pow]
  · exact (congrArg _ (congrArg State.resets rest :)).trans (filter_not_eq_nil only)
  · exact (counted_noteFence s n (by decide)).then (same _ (by decide))
  · rw [Stack.lost, off, Bool.or_true]
  · exact (congrArg State.cores rest' :).trans (congrArg State.cores rest :)
  · exact (congrArg State.host rest' :).trans (congrArg State.host rest :)

/-- A rim die is fenced: its bit is set, the fence counts, and its resets are gone. -/
theorem State.fenceRim_spec {s : State} {r : Nat} (only : ∀ j ∈ s.resets, domCovers (5, 0, r) j.dom = true) :
    let t := s.fenceRim r
    t.rimFenced r = true ∧ t.resets = [] ∧ Counted s t Key.rimsFencedTotal 1 ∧ t.cores = s.cores ∧ t.host.reqs = s.host.reqs := by
  intro t
  let v := s.noteFence Key.fencedRims Key.rimsFencedTotal r
  have rest : v.sansBoard = s.sansBoard := s.sansBoard_noteFence _ _ r
  have same : t.dict = v.dict ∧ t.resets = v.resets.filter (fun j => !domCovers (5, 0, r) j.dom) ∧ t.cores = v.cores ∧
      t.host.reqs = v.host.reqs := by
    simp only [t, State.fenceRim]
    split <;> exact ⟨rfl, rfl, rfl, rfl⟩
  obtain ⟨dict, resets, cores, reqs⟩ := same
  refine ⟨?_, ?_, ?_, cores.trans (congrArg State.cores rest :), reqs.trans (congrArg (·.host.reqs) rest :)⟩
  · rw [State.rimFenced, State.get_of_dict _ dict, s.noteFence_mask r (by decide), bit_or_two_pow]
  · rw [resets, show v.resets = s.resets from (congrArg State.resets rest :)]
    exact filter_not_eq_nil only
  · exact (counted_noteFence s r (by decide)).then (State.get_of_dict _ dict)

/-- A running reset of a die, a setting or a rim die for which nothing waits escalates to the fence of its unit. -/
theorem State.escalate_fence {s : State} {j : ResetJob} (one : s.resets = [j]) (running : j.phase = .running) (alone : j.next = none) :
    let u := s.count (Key.escalations j.domain) 1
    (j.domain = 3 → s.escalate 0 = u.fenceDie j.target) ∧ (j.domain = 4 → s.escalate 0 = u.fenceSetting j.target) ∧
      (j.domain = 5 → s.escalate 0 = u.fenceRim j.target) := by
  refine ⟨fun d => ?_, fun d => ?_, fun d => ?_⟩ <;>
    simp [State.escalate, one, running, alone, d, State.runNext]

end Sys2Proof.Machine
end
section
/-!
PROOFS. The reset of cores in a package in which nothing is in progress (R478, R479, R486, R487): what it leaves unchanged, and the resets that widen.
-/
namespace Sys2Proof.Machine

/-! ## What stays (R478) -/

/-- The package without what the reset of cores changes. -/
def State.sansCores (s : State) : State := { s with dict := [], cores := [], reorders := [], hall := Hallmark.fresh, swaps := [] }

/-- An entry that neither HALLMARK_ABANDONED nor TEST_TARGET of any cluster shares its key with. -/
def offTests (e : Ent) : Prop := e.key % 256 ≠ 0x0B ∧ e.key % 256 ≠ 0x24

/-- Cores of a domain have been reset in a package in which nothing is in progress, and at most tests, swaps and reorder contexts have ended with
them. -/
def CoresReset (d : Domain) (s t : State) : Prop :=
  t.sansCores = s.sansCores ∧ Quiet t ∧ (∀ q, inDomain d q = false → t.core q = s.core q) ∧ ∀ e, offTests e → t.get e = s.get e

theorem CoresReset.refl {s : State} (d : Domain) (quiet : Quiet s) : CoresReset d s s := ⟨rfl, quiet, fun _ _ => rfl, fun _ _ => rfl⟩

theorem CoresReset.quiet {d : Domain} {s t : State} (h : CoresReset d s t) : Quiet t := h.2.1

theorem mem_put {α : Type} {k : Nat} {v : α} {x : Nat × α} {l : List (Nat × α)} (h : x ∈ put k v l) : x = (k, v) ∨ x ∈ l := by
  induction l with
  | nil => exact .inl (List.mem_singleton.mp h)
  | cons y l ih =>
    obtain ⟨j, w⟩ := y
    unfold put at h
    split at h
    · exact List.mem_cons.mp h
    · split at h
      · exact (List.mem_cons.mp h).imp id (List.mem_cons_of_mem _)
      · rcases List.mem_cons.mp h with h | h
        · exact .inr (h ▸ List.mem_cons_self)
        · exact (ih h).imp id (List.mem_cons_of_mem _)

/-- A core with no started descriptor leaves the package quiet. -/
theorem Quiet.setCore {s : State} (quiet : Quiet s) (p : Nat) {c : Core} (none : c.ops = []) : Quiet (s.setCore p c) := by
  obtain ⟨colls, msgs, waiters, reqs, ops⟩ := quiet
  refine ⟨colls, msgs, List.flatMap_eq_nil_iff.mpr fun x hx => ?_, reqs, fun q => ?_⟩
  · rcases mem_put hx with rfl | hx
    · simp [none]
    · exact List.flatMap_eq_nil_iff.mp waiters x hx
  · by_cases h : q = p
    · rw [h, State.core_setCore_self, none]
    · rw [s.core_setCore_other c h, ops]

/-- One more core of the domain is left with no started descriptor. -/
theorem CoresReset.updCore {d : Domain} {s t : State} (h : CoresReset d s t) {p : Nat} (mem : inDomain d p = true) {f : Core → Core}
    (none : ∀ c, (f c).ops = []) : CoresReset d s (t.updCore p f) := by
  obtain ⟨rest, quiet, others, entries⟩ := h
  refine ⟨rest, quiet.setCore p (none _), fun q out => ?_, entries⟩
  rw [t.core_updCore_other f (fun e => by rw [e, mem] at out; cases out), others q out]

/-- With no collective and no started descriptor of the core, none is dropped. -/
theorem State.dropColls_quiet {s : State} {p : Nat} (colls : s.colls = []) (ops : (s.core p).ops = []) : s.dropColls p = s := by
  unfold State.dropColls
  simp only [colls, ops, List.filter_nil, List.foldl_nil, List.map_nil]
  rw [show s.seq.run.filter (fun b => !([] : List Nat).contains b) = s.seq.run from List.filter_eq_self.mpr fun _ _ => rfl, ← colls]

theorem State.resetMse_quiet {s : State} (quiet : Quiet s) (p : Nat) :
    s.resetMse p = s.updCore p (fun c => { c with mse := Engine.fresh, ops := [] }) := by
  obtain ⟨colls, msgs, -, -, ops⟩ := quiet
  unfold State.resetMse
  rw [State.dropColls_quiet colls (ops p)]
  simp only [msgs, List.filter_nil, List.foldl_nil]

theorem CoresReset.resetCore {d : Domain} {s t : State} (h : CoresReset d s t) {p : Nat} (mem : inDomain d p = true) :
    CoresReset d s (t.resetCore p) := by
  unfold State.resetCore
  rw [State.resetMse_quiet h.quiet]
  have idle : CoresReset d s ((t.updCore p (fun c => { c with mse := Engine.fresh, ops := [] })).dropClaims p) :=
    h.updCore (f := fun c => { c with mse := Engine.fresh, ops := [] }) mem fun _ => rfl
  exact idle.updCore mem fun _ => rfl

theorem CoresReset.resetCores {d : Domain} {s t : State} (h : CoresReset d s t) {l : List Nat} (mem : ∀ p ∈ l, inDomain d p = true) :
    CoresReset d s (l.foldl State.resetCore t) := by
  induction l generalizing t with
  | nil => exact h
  | cons p l ih => exact ih (h.resetCore (mem p (by simp))) fun q hq => mem q (by simp [hq])

/-- Tests that end change no core and no entry but those of the tests. -/
theorem CoresReset.abandonTests {d : Domain} {s : State} (quiet : Quiet s) : CoresReset d s (s.abandonTests d) := by
  unfold State.abandonTests
  dsimp only
  generalize List.filter _ s.hall.tests = left
  generalize List.filter _ s.hall.tests = ended
  have base : CoresReset d s { s with hall := { s.hall with tests := left } } := .refl d quiet
  revert base
  generalize ({ s with hall := { s.hall with tests := left } } : State) = t
  induction ended generalizing t with
  | nil => exact id
  | cons a l ih =>
    intro ⟨rest, quiet, others, entries⟩
    refine ih _ ⟨?_, ?_, fun q out => ?_, fun e off => ?_⟩
    · exact Eq.trans (by unfold State.count; split <;> rfl) rest
    · unfold State.count
      split <;> exact quiet
    · rw [State.core_count]
      exact others q out
    · obtain ⟨off1, off2⟩ := off
      rw [State.get_count_other _ 1 (by simp only [Key.hallmarkAbandoned]; omega)]
      exact (State.get_set_other _ _ (by simp only [Key.testTarget]; omega)).trans (entries e ⟨off1, off2⟩)

/-- The reset of a core, a cluster or a die resets its cores. -/
theorem CoresReset.resetEffect {d : Domain} {s : State} (quiet : Quiet s) (low : 1 ≤ d.1) (high : d.1 ≤ 3) :
    CoresReset d s (s.resetEffect d) := by
  have cores : CoresReset d s ((((s.abandonTests d).abandonSwaps d).coresIn d).foldl State.resetCore ((s.abandonTests d).abandonSwaps d)) := by
    have ended : CoresReset d s ((s.abandonTests d).abandonSwaps d) := CoresReset.abandonTests quiet
    exact ended.resetCores fun p hp => (List.mem_filter.mp hp).2
  obtain ⟨colls, -, waiters, -, ops⟩ := cores.quiet
  have effect : s.resetEffect d =
      ((((s.abandonTests d).abandonSwaps d).coresIn d).foldl State.resetCore ((s.abandonTests d).abandonSwaps d)).runColls.pumpMsgs := by
    obtain ⟨k, e, p⟩ := d
    simp only at low high
    obtain rfl | rfl | rfl : k = 1 ∨ k = 2 ∨ k = 3 := by omega
    · rfl
    · rfl
    · rfl
  rw [effect, State.runColls_quiet colls waiters, State.pumpMsgs_quiet ops]
  exact cores

/-! ## Resets begin and widen (R486, R487) -/

/-- The reset of a core, a cluster or a die begins and counts; every reset in progress lay in it and ends. -/
theorem State.beginReset_cores {d : Domain} {s : State} (quiet : Quiet s) (low : 1 ≤ d.1) (high : d.1 ≤ 3)
    (inside : ∀ k ∈ s.resets, domCovers d k.dom = true) (cause : Nat) :
    ∃ u, CoresReset d { s with resets := [] } u ∧
      s.beginReset d cause = { u.count (Key.resets d.1) 1 with resets := [newJob d.1 d.2.1 d.2.2 cause .running s.ftime] } := by
  have effect := CoresReset.resetEffect (d := d) (s := { s with resets := [] }) quiet low high
  refine ⟨_, effect, ?_⟩
  have none : (({ s with resets := [] } : State).resetEffect d).resets = [] := (congrArg State.resets effect.1 :)
  unfold State.beginReset
  rw [if_neg (by omega), filter_not_eq_nil inside]
  simp [none, newJob]

/-- A reset that widens while no other is in progress begins. -/
theorem State.widen_alone {s : State} {j : ResetJob} (one : s.resets = [j]) (d : Domain) (cause : Nat) :
    s.widen j d cause = s.beginReset d cause := by
  unfold State.widen State.takeOver
  simp [one, State.count]

/-- What the reset of an engine, a core or a cluster escalates to: domain `d` and its target (R487). -/
def Widens (j : ResetJob) (d tgt : Nat) : Prop :=
  j.domain = 0 ∧ d = 1 ∧ tgt = j.target ∨ j.domain = 1 ∧ d = 2 ∧ tgt = j.target / 17 ∨ j.domain = 2 ∧ d = 3 ∧ tgt = j.target / 4

theorem Widens.bounds {j : ResetJob} {d tgt : Nat} (h : Widens j d tgt) : j.domain + 1 = d ∧ d ≤ 3 := by
  unfold Widens at h
  omega

theorem Widens.covers {j : ResetJob} {d tgt : Nat} (h : Widens j d tgt) : domCovers (d, 0, tgt) j.dom = true := by
  unfold ResetJob.dom
  rcases h with ⟨dom, rfl, rfl⟩ | ⟨dom, rfl, rfl⟩ | ⟨dom, rfl, rfl⟩ <;> simp [domCovers, domCores, dom] <;> omega

theorem State.escalate_widens {s : State} {j : ResetJob} (one : s.resets = [j]) (running : j.phase = .running) (alone : j.next = none)
    {d tgt : Nat} (wider : Widens j d tgt) :
    s.escalate 0 = (s.count (Key.escalations j.domain) 1).beginReset (d, 0, tgt) j.cause := by
  rw [← State.widen_alone (j := j) (by simpa using one)]
  unfold State.escalate
  rcases wider with ⟨dom, rfl, rfl⟩ | ⟨dom, rfl, rfl⟩ | ⟨dom, rfl, rfl⟩ <;> simp [one, running, alone, dom]

/-- ESCALATION of the reset of an engine, a core or a cluster: the wider reset begins, and cores outside it stay as they are. -/
theorem escalation_widens {s : State} {j : ResetJob} (up : s.packageHeld = false) (quiet : Quiet s) (one : s.resets = [j])
    (running : j.phase = .running) (alone : j.next = none) {d tgt : Nat} (wider : Widens j d tgt) :
    ∃ t, exec (.escalation 0) s = .next t ∧ t.resets = [newJob d 0 tgt j.cause .running s.ftime] ∧
      Counted s t (Key.escalations j.domain) 1 ∧ Counted s t (Key.resets d) 1 ∧ ∀ q, inDomain (d, 0, tgt) q = false → t.core q = s.core q := by
  obtain ⟨up1, high⟩ := wider.bounds
  let v := s.count (Key.escalations j.domain) 1
  have quiet' : Quiet v := by
    simp only [v, State.count]
    split <;> exact quiet
  have one' : v.resets = [j] := by simpa [v] using one
  obtain ⟨u, ⟨rest, still, others, entries⟩, begins⟩ :=
    v.beginReset_cores (d := (d, 0, tgt)) quiet' (by simp only; omega) high (by simpa [one'] using wider.covers) j.cause
  have escalations : offTests (Key.escalations j.domain) := by
    simp only [offTests, Key.escalations]
    omega
  have resets : offTests (Key.resets d) := by
    simp only [offTests, Key.resets]
    omega
  have apart : (Key.resets d).key ≠ (Key.escalations j.domain).key := by
    simp only [Key.resets, Key.escalations]
    omega
  obtain ⟨-, -, -, reqs, -⟩ := still
  refine ⟨_, escalation_of_escalate up ((State.escalate_widens one running alone wider).trans begins) (by simpa using reqs), ?_, ?_, ?_,
    fun q out => ?_⟩
  · simp only [v, State.count_ftime]
  · exact (counted_count s _ 1).then ((u.get_count_other 1 apart.symm).trans (entries _ escalations))
  · exact (counted_count u _ 1).from ((entries _ resets).trans (s.get_count_other 1 apart))
  · exact (u.core_count (Key.resets d) 1 q).trans ((others q out).trans (s.core_count (Key.escalations j.domain) 1 q))

end Sys2Proof.Machine
end
section
/-!
PROOFS. ESCALATION of the reset of a die, a setting, a rim die and the package (R488, R495, R553).
-/
namespace Sys2Proof.Machine

/-! ## Fences (R488) -/

/-- The number of escalations of a domain is none of the entries of a fence. -/
theorem escalations_apart (k : Nat) {e : Ent} (h : e.key / 256 ≠ 0x8031) (small : k < 255) : e.key ≠ (Key.escalations k).key := by
  simp only [Key.escalations]
  omega

theorem escalation_fencesDie {s : State} {j : ResetJob} (up : s.packageHeld = false) (quiet : Quiet s) (one : s.resets = [j])
    (running : j.phase = .running) (alone : j.next = none) (domain : j.domain = 3) :
    ∃ t, exec (.escalation 0) s = .next t ∧ t.dieFenced j.target = true ∧ t.resets = [] ∧ Counted s t Key.diesFencedTotal 1 ∧
      t.cores = s.cores := by
  obtain ⟨-, -, -, reqs, -⟩ := quiet
  obtain ⟨effect, -, -⟩ := State.escalate_fence one running alone
  obtain ⟨fenced, none, count, cores, host⟩ := State.fenceDie_spec (s := s.count (Key.escalations j.domain) 1) (d := j.target)
    (by simp [one, domCovers, domCores, ResetJob.dom, domain])
  refine ⟨_, escalation_of_escalate up (effect domain) (by rw [host, State.count_host, reqs]), fenced, none,
    count.from (State.get_count_other _ 1 ?_), cores.trans (State.count_cores _ _ _)⟩
  exact escalations_apart _ (by decide) (by omega)

theorem escalation_fencesSetting {s : State} {j : ResetJob} (up : s.packageHeld = false) (quiet : Quiet s) (one : s.resets = [j])
    (running : j.phase = .running) (alone : j.next = none) (domain : j.domain = 4) :
    ∃ t, exec (.escalation 0) s = .next t ∧ t.settingFenced j.target = true ∧ t.resets = [] ∧ Counted s t Key.settingsFencedTotal 1 ∧
      (t.stack j.target).lost = true ∧ t.cores = s.cores := by
  obtain ⟨-, -, -, reqs, -⟩ := quiet
  obtain ⟨-, effect, -⟩ := State.escalate_fence one running alone
  obtain ⟨fenced, none, count, lost, cores, host⟩ := State.fenceSetting_spec (s := s.count (Key.escalations j.domain) 1) (n := j.target)
    (by simp [one, domCovers, domCores, ResetJob.dom, domain])
  refine ⟨_, escalation_of_escalate up (effect domain) (by rw [host, State.count_host, reqs]), fenced, none,
    count.from (State.get_count_other _ 1 ?_), lost, cores.trans (State.count_cores _ _ _)⟩
  exact escalations_apart _ (by decide) (by omega)

theorem escalation_fencesRim {s : State} {j : ResetJob} (up : s.packageHeld = false) (quiet : Quiet s) (one : s.resets = [j])
    (running : j.phase = .running) (alone : j.next = none) (domain : j.domain = 5) :
    ∃ t, exec (.escalation 0) s = .next t ∧ t.rimFenced j.target = true ∧ t.resets = [] ∧ Counted s t Key.rimsFencedTotal 1 ∧
      t.cores = s.cores := by
  obtain ⟨-, -, -, reqs, -⟩ := quiet
  obtain ⟨-, -, effect⟩ := State.escalate_fence one running alone
  obtain ⟨fenced, none, count, cores, reqs'⟩ := State.fenceRim_spec (s := s.count (Key.escalations j.domain) 1) (r := j.target)
    (by simp [one, domCovers, ResetJob.dom, domain])
  refine ⟨_, escalation_of_escalate up (effect domain) (by rw [reqs', State.count_host, reqs]), fenced, none,
    count.from (State.get_count_other _ 1 ?_), cores.trans (State.count_cores _ _ _)⟩
  exact escalations_apart _ (by decide) (by omega)

/-! ## Cold initialisation (R495, R553) -/

/-- The package just after a cold initialisation for escalations, with PKG_STATE `v`: nothing is left of cores, stacks, resets and requests. -/
def ColdWith (v : Nat) (s : State) : Prop :=
  s.startup.cause = 3 ∧ s.cores = [] ∧ s.hbms = [] ∧ s.resets = [] ∧ s.ftime = 0 ∧ s.host.reqs = [] ∧ s.get Key.pkgState = v

theorem ColdWith.boardOnly {v : Nat} {s t : State} (h : ColdWith v s) (g : BoardOnly s t) : ColdWith v t := by
  obtain ⟨cause, cores, hbms, resets, ftime, reqs, pkg⟩ := h
  obtain ⟨rest, entries⟩ := g
  exact ⟨(congrArg (·.startup.cause) rest :).trans cause, (congrArg State.cores rest :).trans cores, (congrArg State.hbms rest :).trans hbms,
    (congrArg State.resets rest :).trans resets, (congrArg State.ftime rest :).trans ftime, (congrArg (·.host.reqs) rest :).trans reqs,
    (entries _ (by decide)).trans pkg⟩

theorem ColdWith.set {v : Nat} {s : State} (h : ColdWith v s) {e : Ent} (x : Nat) (apart : Key.pkgState.key ≠ e.key) :
    ColdWith v (s.set e x) := by
  obtain ⟨cause, cores, hbms, resets, ftime, reqs, pkg⟩ := h
  exact ⟨cause, cores, hbms, resets, ftime, reqs, (s.get_set_other x apart).trans pkg⟩

theorem ColdWith.count {v : Nat} {s : State} (h : ColdWith v s) {e : Ent} (n : Nat) (apart : Key.pkgState.key ≠ e.key) :
    ColdWith v (s.count e n) := by
  unfold State.count
  split
  · exact h
  · exact h.set _ apart

theorem ColdWith.redrawChallenge {v : Nat} {s : State} (h : ColdWith v s) : ColdWith v s.redrawChallenge := by
  have dropped : ColdWith v { s with dbg := Debug.fresh } := h
  have locked := dropped.set (e := Key.debugState) 0 (by decide)
  exact locked.set (e := Key.debugChallenge) _ (by decide)

theorem ColdWith.takeStrap {v : Nat} {s : State} (h : ColdWith v s) : ColdWith v s.takeStrap := by
  have strapped : ∀ a b, ColdWith v ((s.set Key.chainId a).set Key.chainIdSource b) := fun a b =>
    (h.set (e := Key.chainId) a (by decide)).set (e := Key.chainIdSource) b (by decide)
  unfold State.takeStrap
  dsimp only
  split
  · exact (strapped _ _).count (e := Key.chainStrapInvalid) 1 (by decide)
  · exact strapped _ _

/-- Recovery ends with the Chain answering, and changes nothing more where it answered. -/
theorem ColdWith.answering {v : Nat} {s : State} (h : ColdWith v s) :
    ColdWith v (if s.chain.answers then s else (if s.startup.cold then s.takeStrap else s).startChain) := by
  split
  · exact h
  · split
    · exact h.takeStrap
    · exact h

theorem ColdWith.recovering {v : Nat} {s : State} (h : ColdWith v s) :
    ColdWith 2 (((s.set Key.pkgState 2).set Key.startFault 0).count Key.bootRecoveryEntries 1) := by
  obtain ⟨cause, cores, hbms, resets, ftime, reqs, -⟩ := h
  have entered : ColdWith 2 (s.set Key.pkgState 2) := ⟨cause, cores, hbms, resets, ftime, reqs, State.get_set_self _ _ _⟩
  exact (entered.set (e := Key.startFault) 0 (by decide)).count (e := Key.bootRecoveryEntries) 1 (by decide)

theorem ColdWith.enterRecovery {v : Nat} {s : State} (h : ColdWith v s) : ColdWith 2 (s.enterRecovery 0) := by
  obtain ⟨cause, cores, hbms, -, ftime, reqs, pkg⟩ := h
  unfold State.enterRecovery
  rw [hbms, List.map_nil, List.foldl_nil]
  refine ColdWith.answering (ColdWith.recovering (v := v) ?_)
  exact ⟨cause, cores, hbms, rfl, ftime, reqs, pkg⟩

theorem State.pins_enterRecovery {s : State} (hbms : s.hbms = []) (fault : Nat) : (s.enterRecovery fault).pins = s.pins := by
  unfold State.enterRecovery
  rw [hbms, List.map_nil, List.foldl_nil]
  dsimp only
  split
  · simp
  · split
    · unfold State.takeStrap
      dsimp only
      split <;> simp [State.startChain]
    · simp [State.startChain]

theorem ColdWith.bootSelect {s : State} (h : ColdWith 0 s) :
    ColdWith (if s.bootSelect.pins.bootStrap = 1 then 2 else 0) s.bootSelect := by
  obtain ⟨-, -, hbms, -⟩ := id h
  unfold State.bootSelect
  split
  case h_1 strap => rwa [strap]
  case h_2 strap =>
    rw [State.pins_enterRecovery hbms, strap]
    exact h.enterRecovery
  case h_3 other recovery =>
    rw [State.count_pins, if_neg recovery]
    exact h.count (e := Key.bootStrapInvalid) 1 (by decide)

/-- A key that no element of a list has is not in it. -/
theorem look_eq_none {α : Type} {k : Nat} {l : List (Nat × α)} (h : ∀ x ∈ l, x.1 ≠ k) : look k l = none := by
  induction l with
  | nil => rfl
  | cons x l ih => exact (if_neg (h x (by simp))).trans (ih fun y hy => h y (by simp [hy]))

/-- No cold initialisation keeps PKG_STATE (R472). -/
theorem State.coldDict_pkgState (s : State) (cause : Nat) : look Key.pkgState.key (s.coldDict cause) = none := by
  have owned : (List.range 288).any (fun n => Key.pkgState.key == (Key.clusterDefectMask n).key) = false := by decide +kernel
  have volatile : (rowOf 0x1000 0x10).any (fun r => r.persist == 2) = false := by decide +kernel
  refine look_eq_none fun e kept same => ?_
  obtain ⟨-, keeps⟩ := List.mem_filter.mp kept
  rw [same, show Key.pkgState.key / 256 = 0x1000 from rfl, show Key.pkgState.key % 256 = 0x10 from rfl, volatile] at keeps
  dsimp only at keeps
  rw [owned] at keeps
  simp at keeps

theorem coldWith_coldInit (s : State) : ColdWith (if (s.coldInit 3).pins.bootStrap = 1 then 2 else 0) (s.coldInit 3) := by
  unfold State.coldInit
  dsimp only
  generalize s.releaseBoard.endWork = u
  refine ColdWith.bootSelect (ColdWith.redrawChallenge ?_)
  have bare : ∀ (m : List (Nat × List (Fin 17))) (y : Startup), y.cause = 3 → ColdWith 0 { u.bare 3 with cmap := m, startup := y } :=
    fun m y cause => ⟨cause, rfl, rfl, rfl, rfl, rfl, congrArg (·.getD 0) (u.coldDict_pkgState 3)⟩
  split
  · exact (bare _ _ rfl).boardOnly (boardOnly_setProchot _ 8)
  · exact bare _ _ rfl

theorem escalation_cold {s : State} {j : ResetJob} (up : s.packageHeld = false) (one : s.resets = [j]) (running : j.phase = .running)
    (domain : j.domain = 6) : ∃ t, exec (.escalation 0) s = .next t ∧ ColdWith (if t.pins.bootStrap = 1 then 2 else 0) t := by
  have cold := coldWith_coldInit (s.count (Key.escalations 6) 1).strapsNow
  have effect : s.escalate 0 = (s.count (Key.escalations 6) 1).strapsNow.coldInit 3 := by
    unfold State.escalate
    simp [one, running, domain]
  obtain ⟨-, -, -, -, -, reqs, -⟩ := id cold
  exact ⟨_, escalation_of_escalate up effect reqs, cold⟩

end Sys2Proof.Machine
end
section
/-!
PROOFS. Records of captures in HBM (R320, R490–R493): writes of whole lines read back, and what the capture of one core leaves of the package.
-/
namespace Sys2Proof.Machine

/-! ## Writes of whole lines (R318, R320) -/

/-- The package without its stacks, the dictionary and free values. -/
def State.sansMemory (s : State) : State := { s with freeCtr := 0, dict := [], hbms := [] }

/-- The keys of the entries that a record of a capture in setting `n` changes: counters of the setting and of the side-path, and its places. -/
def recordKeys (n : Nat) : List Nat :=
  [(Key.hbmWrites n).key, Key.locketAccessTimeouts.key, Key.locketAccessesSkipped.key, (Key.locketLast n).key, (Key.locketNext n).key]

/-- Only stacks and entries that a record in setting `n` changes have changed. -/
def RecordOnly (n : Nat) (s t : State) : Prop :=
  t.sansMemory = s.sansMemory ∧ ∀ k, k ∉ recordKeys n → look k t.dict = look k s.dict

theorem RecordOnly.refl (n : Nat) (s : State) : RecordOnly n s s := ⟨rfl, fun _ _ => rfl⟩

theorem RecordOnly.trans {n : Nat} {s t u : State} (h : RecordOnly n s t) (g : RecordOnly n t u) : RecordOnly n s u :=
  ⟨g.1.trans h.1, fun k out => (g.2 k out).trans (h.2 k out)⟩

theorem recordOnly_set {n : Nat} (s : State) {e : Ent} (v : Nat) (own : e.key ∈ recordKeys n) : RecordOnly n s (s.set e v) :=
  ⟨rfl, fun _ out => look_put_other v s.dict fun h => out (h ▸ own)⟩

theorem recordOnly_count {n : Nat} (s : State) {e : Ent} (k : Nat) (own : e.key ∈ recordKeys n) : RecordOnly n s (s.count e k) := by
  unfold State.count
  split
  · exact .refl n s
  · exact recordOnly_set s _ own

theorem RecordOnly.get {n : Nat} {s t : State} (h : RecordOnly n s t) {e : Ent} (out : e.key ∉ recordKeys n) : t.get e = s.get e :=
  congrArg (·.getD e.dflt) (h.2 e.key out)

/-- Whole lines have been written to a stack that works: only it and its counter of writes have changed, and neither its size nor its canonical
form. -/
def Stored (n : Nat) (s t : State) : Prop :=
  t.sansMemory = s.sansMemory ∧ (∀ k, k ≠ (Key.hbmWrites n).key → look k t.dict = look k s.dict) ∧ (t.stack n).down = [] ∧
    (t.stack n).mem.wf = true ∧ (t.stack n).locketBase = (s.stack n).locketBase

theorem Stored.refl {n : Nat} {s : State} (down : (s.stack n).down = []) (wf : (s.stack n).mem.wf = true) : Stored n s s :=
  ⟨rfl, fun _ _ => rfl, down, wf, rfl⟩

theorem Stored.trans {n : Nat} {s t u : State} (h : Stored n s t) (g : Stored n t u) : Stored n s u := by
  obtain ⟨rest, entries, -, -, base⟩ := h
  obtain ⟨rest', entries', down, wf, base'⟩ := g
  exact ⟨rest'.trans rest, fun k out => (entries' k out).trans (entries k out), down, wf, base'.trans base⟩

theorem Stored.recordOnly {n : Nat} {s t : State} (h : Stored n s t) : RecordOnly n s t := by
  obtain ⟨rest, entries, -⟩ := h
  exact ⟨rest, fun k out => entries k fun e => out (by simp [recordKeys, e])⟩

theorem State.stack_setStack_self (s : State) (n : Nat) (x : Stack) : (s.setStack n x).stack n = x :=
  congrArg (·.getD Stack.fresh) (look_put_self n x s.hbms)

theorem State.stack_count (s : State) (e : Ent) (k n : Nat) : (s.count e k).stack n = s.stack n := by
  unfold State.stack
  rw [State.count_hbms]

/-- A whole line written to a stack that works. -/
theorem State.writeLine_whole {s : State} {n : Nat} (down : (s.stack n).down = []) (wf : (s.stack n).mem.wf = true) (who l pos : Nat)
    {bs : List Byte} (whole : bs.length = 64) :
    Stored n s (s.writeLine n who l pos bs) ∧ ((s.writeLine n who l pos bs).stack n).mem = (s.stack n).mem.writeN (64 * l) bs := by
  have line : s.writeLine n who l pos bs = (s.dropEntry n l).storeLine n l bs := by
    unfold State.writeLine
    exact if_pos whole
  let x := { s.stack n with wcb := (s.stack n).wcb.filter (fun w => w.line != l) }
  have dropped : (s.dropEntry n l).stack n = x := s.stack_setStack_self n _
  let y := { x with mem := x.mem.writeN (64 * l) bs, errors := drop' l x.errors }
  have stored : (s.dropEntry n l).storeLine n l bs = ((s.dropEntry n l).setStack n y).count (Key.hbmWrites n) 1 := by
    unfold State.storeLine
    rw [dropped]
    exact if_neg (by simp [x, down])
  have after : (s.writeLine n who l pos bs).stack n = y := by
    rw [line, stored, State.stack_count, State.stack_setStack_self]
  refine ⟨⟨?_, fun k out => ?_, ?_, ?_, ?_⟩, by rw [after]⟩
  · rw [line, stored]
    unfold State.count
    split <;> rfl
  · rw [line, stored]
    unfold State.count
    split
    · rfl
    · exact look_put_other _ _ out
  · rw [after]
    exact down
  · rw [after]
    exact Mem.wf_writeN _ _ _ wf
  · rw [after]
    rfl

theorem linePieces_nil (fuel off : Nat) : linePieces fuel off [] = [] := by
  cases fuel <;> rfl

/-- The first piece of a write from the beginning of a line. -/
theorem linePieces_whole {fuel off : Nat} {bs : List Byte} (aligned : off % 64 = 0) (some' : bs ≠ []) :
    linePieces (fuel + 1) off bs = (off / 64, off % 64, bs.take 64) :: linePieces fuel (off + 64) (bs.drop 64) := by
  rw [linePieces, if_neg (by simpa using some'), aligned]

/-- Pieces of whole lines, written: the stack works as before, its bytes below the first of them stay, and theirs read back. -/
theorem State.writeLines {n who : Nat} {k fuel off : Nat} {bs : List Byte} {s : State} (down : (s.stack n).down = [])
    (wf : (s.stack n).mem.wf = true) (len : bs.length = 64 * k) (enough : k < fuel) (aligned : off % 64 = 0) :
    let t := (linePieces fuel off bs).foldl (fun s p => s.writeLine n who p.1 p.2.1 p.2.2) s
    Stored n s t ∧ (∀ a, a < off → (t.stack n).mem.read a = (s.stack n).mem.read a) ∧
      ∀ i (h : i < bs.length), (t.stack n).mem.read (off + i) = bs[i] := by
  induction k generalizing fuel off bs s with
  | zero =>
    obtain rfl := List.length_eq_zero_iff.mp len
    rw [linePieces_nil]
    exact ⟨.refl down wf, fun _ _ => rfl, by simp⟩
  | succ k ih =>
    obtain ⟨fuel, rfl⟩ : ∃ f, fuel = f + 1 := ⟨fuel - 1, by omega⟩
    rw [linePieces_whole aligned (fun e => by simp [e] at len), List.foldl_cons]
    have whole : (bs.take 64).length = 64 := by
      rw [List.length_take]
      omega
    obtain ⟨first, mem⟩ := s.writeLine_whole down wf who (off / 64) (off % 64) whole
    rw [show 64 * (off / 64) = off by omega] at mem
    obtain ⟨-, -, down', wf', -⟩ := id first
    obtain ⟨stored, below, reads⟩ := ih (fuel := fuel) (off := off + 64) (bs := bs.drop 64) down' wf' (by rw [List.length_drop]; omega)
      (by omega) (by omega)
    refine ⟨first.trans stored, fun a lo => ?_, fun i h => ?_⟩
    · rw [below a (by omega), mem, Mem.read_writeN_other _ _ (.inl lo)]
    · by_cases head : i < 64
      · rw [below _ (by omega), mem, Mem.read_writeN_self _ _ _ wf i (by omega), List.getElem_take]
      · have tail := reads (i - 64) (by rw [List.length_drop]; omega)
        rw [show off + 64 + (i - 64) = off + i by omega, List.getElem_drop] at tail
        rw [tail]
        congr 1
        omega

/-- A write of whole lines through a controller reads back. -/
theorem State.hbmWrite_whole {s : State} {n : Nat} (down : (s.stack n).down = []) (wf : (s.stack n).mem.wf = true) (who : Nat) {off : Nat}
    (aligned : off % 64 = 0) {bs : List Byte} (lines : bs.length % 64 = 0) :
    Stored n s (s.hbmWrite n who off bs) ∧ ∀ i (h : i < bs.length), ((s.hbmWrite n who off bs).stack n).mem.read (off + i) = bs[i] := by
  obtain ⟨stored, -, reads⟩ := State.writeLines (who := who) (k := bs.length / 64) (fuel := bs.length + 1) (bs := bs) down wf (by omega)
    (by omega) aligned
  exact ⟨stored, reads⟩

/-! ## The parts of a record (R492, R493) -/

theorem length_fitTo (n : Nat) (bs : List Byte) : (fitTo n bs).length = n := by
  unfold fitTo
  simp

theorem length_freeRun (k a n : Nat) : (freeRun k a n).length = n := by
  unfold freeRun
  simp

/-- Items of one length, one after another. -/
theorem length_flatMap_const {α β : Type} {l : List α} {f : α → List β} {m : Nat} (h : ∀ a ∈ l, (f a).length = m) :
    (l.flatMap f).length = m * l.length := by
  induction l with
  | nil => rfl
  | cons a l ih =>
    rw [List.flatMap_cons, List.length_append, h a (by simp), ih fun b hb => h b (by simp [hb]), List.length_cons, Nat.mul_succ, Nat.add_comm]

theorem Core.length_regionBytes (c : Core) (e : Nat) {free : List Byte} (h : 32 ≤ free.length) : (c.regionBytes e free).length = 20480 := by
  unfold Core.regionBytes
  dsimp only
  simp only [List.length_append, List.length_take, length_fitTo, Nat.min_eq_left h]
  rw [length_flatMap_const (m := 4) fun a _ => length_leBytes _ _, length_flatMap_const (m := 2048) fun a _ => ?_, List.length_map,
    List.length_range]
  cases a with
  | none => exact List.length_replicate
  | some a => exact Mem.length_readN _ _ _

theorem Core.length_levelBytes (c : Core) (free : List Byte) : (c.levelBytes free).length = 16128 := length_fitTo _ _

/-- A core block is 76 KiB long. -/
theorem Core.length_block (c : Core) (lc phys eng : Nat) (bad : List Nat) (k : Nat) : (c.block lc phys eng bad k).length = 77824 := by
  have region : ∀ e : Nat, (if bit eng e then c.regionBytes e (freeRun k (2 ^ 20 * lc + 8192 * (e + 1)) 4096)
      else List.replicate 20480 (0 : Byte)).length = 20480 := fun e => by
    split
    · exact c.length_regionBytes e (by rw [length_freeRun]; omega)
    · exact List.length_replicate
  unfold Core.block
  dsimp only
  rw [length_flatMap_const (m := 64) fun i hi => ?_, List.length_range]
  rw [List.mem_range] at hi
  split
  · rfl
  · simp only [List.length_take, List.length_drop, List.length_append, length_leBytes, c.length_levelBytes, region]
    omega

/-- A record's header begins with its MAGIC. -/
theorem State.recordHeader_magic (s : State) (j : ResetJob) (blocks written : Nat) (cut : Bool) :
    ∃ bs, s.recordHeader j blocks written cut = 0xC7 :: 0x10 :: bs := by
  obtain ⟨v, hv⟩ : ∃ v, s.recordHeader j blocks written cut = leBytes 4096 (0x10C7 + v * 2 ^ 16) := by
    refine ⟨j.domain + j.engine * 2 ^ 3 + j.cause * 2 ^ 8 + s.targetCode j.dom * 2 ^ 16 + j.seq * 2 ^ 48 + j.start * 2 ^ 112 +
      s.ftime * 2 ^ 176 + blocks * 2 ^ 240 + written * 2 ^ 256 + b2n cut * 2 ^ 272 + s.get Key.locketLayout * 2 ^ 280, ?_⟩
    unfold State.recordHeader
    simp only [Nat.add_mul, Nat.mul_assoc, ← Nat.pow_add, Nat.reduceAdd, Nat.add_assoc]
  rw [hv]
  have low : (0x10C7 + v * 2 ^ 16) % 256 = 0xC7 := by omega
  have high : (0x10C7 + v * 2 ^ 16) / 256 % 256 = 0x10 := by omega
  refine ⟨leBytes 4094 ((0x10C7 + v * 2 ^ 16) / 256 / 256), ?_⟩
  show BitVec.ofNat 8 ((0x10C7 + v * 2 ^ 16) % 256) :: BitVec.ofNat 8 ((0x10C7 + v * 2 ^ 16) / 256 % 256) :: _ = _
  rw [low, high]
  rfl

end Sys2Proof.Machine
end
section
/-!
PROOFS. LOCKET_CAPTURE_END of the capture of a core (R490, R492).
-/
namespace Sys2Proof.Machine

/-! ## What a record reads of the package (R490) -/

/-- A record changes neither the profile of the job, nor what is fenced, nor the counts of resets and of truncated captures. -/
theorem not_mem_recordKeys {n k : Nat} (small : n < 24)
    (h : k / 256 = 0x2000 ∨ k / 256 = 0x8020 ∨ k / 256 = 0x8030 ∨ k = Key.locketsTruncated.key) : k ∉ recordKeys n := by
  simp only [recordKeys, Key.hbmWrites, Key.locketAccessTimeouts, Key.locketAccessesSkipped, Key.locketLast, Key.locketNext,
    Key.locketsTruncated, List.mem_cons, List.not_mem_nil, or_false] at h ⊢
  omega

theorem RecordOnly.physOf {n : Nat} {s t : State} (h : RecordOnly n s t) (small : n < 24) (cid : Nat) : t.physOf cid = s.physOf cid := by
  have die : ∀ d, t.dieFenced d = s.dieFenced d := fun d => by
    unfold State.dieFenced
    rw [h.get (e := Key.fencedDies) (not_mem_recordKeys small (.inr (.inl rfl))),
      h.get (e := Key.fencedSettings) (not_mem_recordKeys small (.inr (.inl rfl)))]
  have red : t.redundant = s.redundant := by
    unfold State.redundant
    rw [h.get (e := Key.logicalClustersPerDie) (not_mem_recordKeys small (.inl rfl))]
  have fuses : t.fuses = s.fuses := (congrArg State.fuses h.1 :)
  have cores : t.coresPerCluster = s.coresPerCluster := by
    unfold State.coresPerCluster
    rw [h.2 _ (not_mem_recordKeys small (.inl rfl)), fuses]
  have map : ∀ c, t.clusterMap c = s.clusterMap c := fun c => congrArg (fun m => (look c m).getD _) (congrArg State.cmap h.1 :)
  unfold State.physOf
  dsimp only
  rw [die, red, cores, map]

theorem RecordOnly.capturedIn {n : Nat} {s t : State} (h : RecordOnly n s t) (small : n < 24) (d : Domain) (m : Nat) :
    t.capturedIn d m = s.capturedIn d m := by
  unfold State.capturedIn
  simp only [h.physOf small]

/-- A record's place lies in a region whose beginning is that of a line. -/
theorem Stack.locketBase_mod (x : Stack) : x.locketBase % 64 = 0 := by
  unfold Stack.locketBase Stack.retrainBase Stack.capacity mib
  omega

/-! ## One record (R492) -/

/-- The debug side-path changes its counters alone, and of the capture the lines flagged. -/
theorem State.sideTimeouts_spec (s : State) (j : ResetJob) (n : Nat) :
    RecordOnly n s (s.sideTimeouts j n).1 ∧ (s.sideTimeouts j n).1.hbms = s.hbms ∧
      (s.sideTimeouts j n).1.get (Key.locketNext n) = s.get (Key.locketNext n) ∧ (s.sideTimeouts j n).2.dom = j.dom := by
  unfold State.sideTimeouts
  split
  · exact ⟨.refl n s, rfl, rfl, rfl⟩
  · dsimp only
    refine ⟨(recordOnly_count s _ (by simp [recordKeys])).trans (recordOnly_count _ _ (by simp [recordKeys])),
      by rw [State.count_hbms, State.count_hbms], ?_, rfl⟩
    rw [State.get_count_other, State.get_count_other] <;>
      simp only [Key.locketNext, Key.locketAccessTimeouts, Key.locketAccessesSkipped] <;> omega

/-- A setting that holds no core of the capture gets no record. -/
theorem State.writeLocket_none {s : State} {j : ResetJob} {n : Nat} (none : s.capturedIn j.dom n = []) (cut ended : Bool) :
    s.writeLocket j cut ended n = s := by
  have side : (s.sideTimeouts j n).1 = s := by
    unfold State.sideTimeouts
    split
    · rfl
    · rw [none]
      rfl
  obtain ⟨-, -, -, dom⟩ := s.sideTimeouts_spec j n
  unfold State.writeLocket
  dsimp only
  rw [side, dom, none]
  exact if_pos rfl

/-- The MAGICs of the records overlapped are cleared by writes of whole lines. -/
theorem Stored.clearMagics {n : Nat} {s : State} (down : (s.stack n).down = []) (wf : (s.stack n).mem.wf = true) {off : Nat}
    (aligned : off % 64 = 0) (len : Nat) : Stored n s (s.clearMagics n off len) := by
  unfold State.clearMagics
  generalize List.range (len / 65536) = places
  induction places generalizing s with
  | nil => exact .refl down wf
  | cons i places ih =>
    have one : Stored n s (if (s.stack n).mem.num ((s.stack n).locketBase + off + 65536 * i) 2 = 0x10C7
        then s.clearMagic n ((s.stack n).locketBase + off + 65536 * i) else s) := by
      split
      · have base := (s.stack n).locketBase_mod
        exact (State.hbmWrite_whole down wf 0 (by omega) (by simp)).1
      · exact .refl down wf
    obtain ⟨-, -, down', wf', -⟩ := id one
    exact one.trans (ih down' wf')

/-- A core block and then the header of its record are written, and the place is noted. -/
theorem State.record_written {u : State} {n base off next : Nat} {block header : List Byte} (down : (u.stack n).down = [])
    (wf : (u.stack n).mem.wf = true) (aligned : base % 64 = 0) (lines : block.length % 64 = 0) (len : header.length = 4096)
    (magic : ∃ bs, header = 0xC7 :: 0x10 :: bs) :
    let t := (((u.hbmWrite n 0 (base + 4096) block).tick.hbmWrite n 0 base header).set (Key.locketLast n) off).set (Key.locketNext n) next
    RecordOnly n u t ∧ (t.stack n).mem.num base 2 = 0x10C7 ∧ t.get (Key.locketLast n) = off ∧ t.get (Key.locketNext n) = next := by
  obtain ⟨first, -⟩ := State.hbmWrite_whole down wf 0 (off := base + 4096) (by omega) lines
  generalize u.hbmWrite n 0 (base + 4096) block = v at first
  obtain ⟨-, -, down', wf', -⟩ := id first
  obtain ⟨second, reads⟩ := State.hbmWrite_whole (s := v.tick) down' wf' 0 aligned (bs := header) (by omega)
  generalize v.tick.hbmWrite n 0 base header = w at second reads
  obtain ⟨bs, rfl⟩ := magic
  have zero := reads 0 (by simp)
  have one := reads 1 (by simp)
  simp only [Nat.add_zero, List.getElem_cons_zero, List.getElem_cons_succ] at zero one
  refine ⟨?_, ?_, ?_, State.get_set_self _ _ _⟩
  · have ticked : RecordOnly n v v.tick := ⟨rfl, fun _ _ => rfl⟩
    exact (((first.recordOnly.trans ticked).trans second.recordOnly).trans (recordOnly_set w _ (by simp [recordKeys]))).trans
      (recordOnly_set _ _ (by simp [recordKeys]))
  · show (w.stack n).mem.num base 2 = 0x10C7
    simp only [Mem.num, Mem.readN, zero, one]
    rfl
  · rw [State.get_set_other _ _ (by simp only [Key.locketLast, Key.locketNext]; omega), State.get_set_self]

theorem State.length_recordHeader (s : State) (j : ResetJob) (blocks written : Nat) (cut : Bool) :
    (s.recordHeader j blocks written cut).length = 4096 := length_leBytes _ _

/-- A setting that holds one core of the capture gets its record: the header stands at its place, which is noted. -/
theorem State.writeLocket_one {s : State} {j : ResetJob} {n lc p : Nat} (held : s.capturedIn j.dom n = [(lc, p)]) (small : n < 24)
    (lost : (s.stack n).lost = false) (down : (s.stack n).down = []) (wf : (s.stack n).mem.wf = true)
    (aligned : s.locketPlace n 1 % 64 = 0) (cut : Bool) :
    let t := s.writeLocket j cut false n
    RecordOnly n s t ∧ (t.stack n).mem.num ((s.stack n).locketBase + s.locketPlace n 1) 2 = 0x10C7 ∧
      t.get (Key.locketLast n) = s.locketPlace n 1 ∧ t.get (Key.locketNext n) = s.locketPlace n 1 + 131072 := by
  obtain ⟨side, hbms, next, dom⟩ := s.sideTimeouts_spec j n
  have place : (s.sideTimeouts j n).1.locketPlace n 1 = s.locketPlace n 1 := by
    unfold State.locketPlace
    rw [next]
  have stack : (s.sideTimeouts j n).1.stack n = s.stack n := by
    unfold State.stack
    rw [hbms]
  have held' : (s.sideTimeouts j n).1.capturedIn (s.sideTimeouts j n).2.dom n = [(lc, p)] := by
    rw [side.capturedIn small, dom, held]
  unfold State.writeLocket
  dsimp only
  rw [held', stack, lost]
  simp only [List.isEmpty_cons, Bool.or_self, Bool.false_eq_true, if_false, List.length_singleton, List.zipIdx_singleton, List.foldl_cons,
    List.foldl_nil, place]
  rw [← stack] at down wf ⊢
  generalize (s.sideTimeouts j n).1 = u at *
  generalize (s.sideTimeouts j n).2 = k at *
  have base := (u.stack n).locketBase_mod
  have cleared := Stored.clearMagics (s := u.tick) down wf aligned (recordSpan 1)
  obtain ⟨-, -, down', wf', -⟩ := id cleared
  have ticked : RecordOnly n u u.tick := ⟨rfl, fun _ _ => rfl⟩
  refine And.imp (fun h => ((side.trans ticked).trans cleared.recordOnly).trans h) id (State.record_written down' wf' (by omega) ?_
    (State.length_recordHeader _ _ _ _ _) (State.recordHeader_magic _ _ _ _ _))
  rw [apply_ite List.length, Core.length_block, length_freeRun, ite_self]

/-! ## LOCKET_CAPTURE_END (R490) -/

/-- Quiet is kept by what keeps all but memory. -/
theorem Quiet.of_sansMemory {s t : State} (quiet : Quiet s) (h : t.sansMemory = s.sansMemory) : Quiet t := by
  have g : Quiet t.sansMemory := by
    rw [h]
    exact quiet
  exact g

/-- Where one setting alone holds the captured core, the records are that of the setting. -/
theorem State.writeLockets_alone {s : State} {j : ResetJob} {n lc p : Nat} (small : n < 24)
    (held : ∀ m, m < 24 → s.capturedIn j.dom m = if m = n then [(lc, p)] else []) {cut : Bool}
    (one : RecordOnly n s (s.writeLocket j cut false n)) :
    settings.foldl (fun s m => s.writeLocket j cut false m) s = s.writeLocket j cut false n := by
  obtain ⟨pre, post, split, apart, apart'⟩ := exists_split_of_nodup (List.mem_range.mpr small) List.nodup_range
  have below : ∀ m ∈ pre ++ n :: post, m < 24 := fun m hm => List.mem_range.mp (split ▸ hm)
  have none : ∀ m, m < 24 → m ≠ n → s.capturedIn j.dom m = [] := fun m hm other => by rw [held m hm, if_neg other]
  rw [settings, split, List.foldl_append, List.foldl_cons]
  rw [foldl_fixed_of_mem fun m hm => State.writeLocket_none (none m (below m (by simp [hm])) (apart m hm)) cut false]
  refine foldl_fixed_of_mem fun m hm => State.writeLocket_none ?_ cut false
  rw [one.capturedIn small]
  exact none m (below m (by simp [hm])) (apart' m hm)

theorem locketCaptureEnd_stays {s : State} {j : ResetJob} (one : s.resets = [j]) (running : j.phase = .running) :
    exec (.locketCaptureEnd 0) s = .next s := by
  show Host.Outcome.next (s.endCapture 0) = _
  unfold State.endCapture
  simp [one, running]

/-- The end of a capture: the records, the count of a truncated one, and the reset. -/
theorem State.endCapture_alone {s : State} {j : ResetJob} (one : s.resets = [j]) (capture : j.phase = .capture) :
    s.endCapture 0 =
      ((settings.foldl (fun s' n => s'.writeLocket j (decide (1000000 * s.get Key.locketCaptureLimit ≤ s.ftime - j.start)) false n) s).count
        Key.locketsTruncated (if 1000000 * s.get Key.locketCaptureLimit ≤ s.ftime - j.start then 1 else 0)).beginReset j.dom j.cause := by
  unfold State.endCapture
  rw [one]
  simp only [List.getElem?_cons_zero, capture, ne_eq, not_true_eq_false, if_false]
  by_cases late : 1000000 * s.get Key.locketCaptureLimit ≤ s.ftime - j.start
  · rw [if_pos late, if_pos (decide_eq_true late)]
  · rw [if_neg late, if_neg (by simpa using late)]
    rfl

/-- LOCKET_CAPTURE_END of the capture of one core, in a setting whose stack works. -/
theorem locketCaptureEnd_core {s : State} {j : ResetJob} {lc p : Nat} (quiet : Quiet s) (one : s.resets = [j]) (capture : j.phase = .capture)
    (domain : j.domain = 1) (target : j.target = p) (bound : p < 4896)
    (held : ∀ n, n < 24 → s.capturedIn (1, 0, p) n = if n = p / 204 then [(lc, p)] else []) (lost : (s.stack (p / 204)).lost = false)
    (down : (s.stack (p / 204)).down = []) (wf : (s.stack (p / 204)).mem.wf = true) (aligned : s.locketPlace (p / 204) 1 % 64 = 0) :
    ∃ t, exec (.locketCaptureEnd 0) s = .next t ∧ t.resets = [newJob 1 j.engine p j.cause .running s.ftime] ∧ Counted s t (Key.resets 1) 1 ∧
      (t.stack (p / 204)).mem.num ((s.stack (p / 204)).locketBase + s.locketPlace (p / 204) 1) 2 = 0x10C7 ∧
      t.get (Key.locketLast (p / 204)) = s.locketPlace (p / 204) 1 ∧
      t.get (Key.locketNext (p / 204)) = s.locketPlace (p / 204) 1 + 131072 ∧
      Counted s t Key.locketsTruncated (if 1000000 * s.get Key.locketCaptureLimit ≤ s.ftime - j.start then 1 else 0) := by
  have dom : j.dom = (1, j.engine, p) := by rw [ResetJob.dom, domain, target]
  have small : p / 204 < 24 := by omega
  have held' : ∀ n, n < 24 → s.capturedIn j.dom n = if n = p / 204 then [(lc, p)] else [] := fun n hn => dom ▸ held n hn
  have ends := State.endCapture_alone one capture
  obtain ⟨only, magic, last, next⟩ := State.writeLocket_one ((held' _ small).trans (if_pos rfl)) small lost down wf aligned
    (decide (1000000 * s.get Key.locketCaptureLimit ≤ s.ftime - j.start))
  rw [State.writeLockets_alone small held' only, dom] at ends
  generalize s.writeLocket j _ false (p / 204) = w at ends only magic last next
  generalize (if 1000000 * s.get Key.locketCaptureLimit ≤ s.ftime - j.start then 1 else 0) = k at ends ⊢
  have same : (w.count Key.locketsTruncated k).sansMemory = s.sansMemory := Eq.trans (by unfold State.count; split <;> rfl) only.1
  have one' : (w.count Key.locketsTruncated k).resets = [j] := (congrArg State.resets same : _).trans one
  have time : (w.count Key.locketsTruncated k).ftime = s.ftime := (congrArg State.ftime same :)
  obtain ⟨u, ⟨rest, -, -, entries⟩, begins⟩ := State.beginReset_cores (d := (1, j.engine, p)) (quiet.of_sansMemory same) (by simp) (by simp)
    (by rw [one']; simp [dom, domCovers, domCores]) j.cause
  rw [begins, time] at ends
  have stack : ∀ n, u.stack n = w.stack n := fun n => by
    have hbms : u.hbms = (w.count Key.locketsTruncated k).hbms := (congrArg State.hbms rest :)
    unfold State.stack
    rw [hbms, State.count_hbms]
  have kept : ∀ e : Ent, offTests e → e.key ≠ (Key.resets 1).key → e.key ≠ Key.locketsTruncated.key →
      (u.count (Key.resets 1) 1).get e = w.get e := fun e off reset truncated =>
    (u.get_count_other 1 reset).trans ((entries e off).trans (w.get_count_other k truncated))
  refine ⟨_, congrArg Host.Outcome.next ends, rfl, ?_, ?_, ?_, ?_, ?_⟩
  · have same' : u.get (Key.resets 1) = s.get (Key.resets 1) := (entries (Key.resets 1) ⟨by decide, by decide⟩).trans
      ((w.get_count_other k (e := Key.locketsTruncated) (by decide)).trans (only.get (not_mem_recordKeys small (.inr (.inr (.inl rfl))))))
    exact (counted_count u (Key.resets 1) 1).from same'
  · show ((u.count (Key.resets 1) 1).stack (p / 204)).mem.num _ 2 = _
    rw [State.stack_count, stack]
    exact magic
  · refine (kept _ ?_ ?_ ?_).trans last <;> simp only [offTests, Key.locketLast, Key.resets, Key.locketsTruncated] <;> omega
  · refine (kept _ ?_ ?_ ?_).trans next <;> simp only [offTests, Key.locketNext, Key.resets, Key.locketsTruncated] <;> omega
  · have counted := (counted_count w Key.locketsTruncated k).from (only.get (not_mem_recordKeys small (.inr (.inr (.inr rfl)))))
    exact counted.then ((u.get_count_other (e := Key.resets 1) 1 (by decide)).trans (entries Key.locketsTruncated ⟨by decide, by decide⟩))

end Sys2Proof.Machine
end
section
/-!
PROOFS. LOCKET_ACCESS_TIMEOUT (R491), and the settling of WatchdogsAndEscalation.
-/
namespace Sys2Proof.Machine

/-! ## Accesses that time out (R491) -/

/-- The capture `j` of core `p`, and the package, once the access to a line has timed out and `k` more lines are skipped. -/
def Flagged (s t : State) (j : ResetJob) (p line k : Nat) : Prop :=
  (∃ j', t.resets = [j'] ∧ j'.dom = j.dom ∧ j'.bad = j.bad ++ (List.range (k + 1)).map (fun i => (p, line + i))) ∧
    Counted s t Key.locketAccessTimeouts 1 ∧ Counted s t Key.locketAccessesSkipped k ∧ t.cores = s.cores ∧ t.hbms = s.hbms

/-- A line and those after it, as a capture flags them. -/
theorem flagged_lines (p line k : Nat) :
    (List.range (k + 1)).map (fun i => (p, line + i)) = (line :: (List.range k).map (line + 1 + ·)).map (fun l => (p, l)) := by
  rw [List.range_succ_eq_map, List.map_cons, List.map_cons, List.map_map, List.map_map]
  refine congrArg (_ :: ·) (List.map_congr_left fun i _ => ?_)
  simp only [Function.comp_apply, Prod.mk.injEq, true_and]
  omega

/-- Lines that are flagged, and counted. -/
theorem flagged_counts (s : State) (j : ResetJob) (p line k : Nat) (runs : List (Nat × Nat × Nat)) :
    Flagged s (({ s with resets := [{ j with bad := j.bad ++ (List.range (k + 1)).map (fun i => (p, line + i)), runs := runs }] }.count
      Key.locketAccessTimeouts 1).count Key.locketAccessesSkipped k) j p line k := by
  generalize base : ({ j with bad := j.bad ++ (List.range (k + 1)).map (fun i => (p, line + i)), runs := runs } : ResetJob) = j'
  let u : State := { s with resets := [j'] }
  have timeouts : Counted s (u.count Key.locketAccessTimeouts 1) Key.locketAccessTimeouts 1 := counted_count u _ 1
  have skipped := counted_count (u.count Key.locketAccessTimeouts 1) Key.locketAccessesSkipped k
  refine ⟨⟨j', by simp, by rw [← base]; rfl, by rw [← base]⟩, timeouts.then (State.get_count_other _ k (by decide)),
    skipped.from (u.get_count_other 1 (by decide)), by simp, by simp⟩

/-- A line that ends no run of sixteen is flagged alone. -/
theorem State.captureTimeout_flags {s : State} {j : ResetJob} (one : s.resets = [j]) {p : Nat} (line : Nat) (g : Nat × Nat)
    (few : ∀ r, j.runs.find? (fun r => r.1 == p) = some r → r.2.2 ≠ 15) : Flagged s (s.captureTimeout j p line g) j p line 0 := by
  have flagged := flagged_counts s j p line 0
  rw [flagged_lines] at flagged
  unfold State.captureTimeout
  rw [one]
  cases h : j.runs.find? (fun r => r.1 == p) with
  | none => simpa using flagged _
  | some r =>
    obtain ⟨q, l, n⟩ := r
    have short : (if l + 1 = line ∧ g.1 ≤ l then n + 1 else 1) ≠ 16 := by
      have := few _ h
      split <;> simp_all
    simpa [short] using flagged _

/-- The sixteenth line in a row is flagged with the rest of its segment. -/
theorem State.captureTimeout_skips {s : State} {j : ResetJob} (one : s.resets = [j]) {p line : Nat} {g : Nat × Nat}
    (run : j.runs = [(p, line - 1, 15)]) (inside : g.1 < line) : Flagged s (s.captureTimeout j p line g) j p line (g.2 - line - 1) := by
  have flagged := flagged_counts s j p line (g.2 - line - 1)
  rw [flagged_lines] at flagged
  have next : line - 1 + 1 = line ∧ g.1 ≤ line - 1 := by omega
  unfold State.captureTimeout
  rw [one, run]
  simpa [next] using flagged _

theorem locketAccessTimeout_runs {core : CoreId} {p line : Nat} {s : State} {j : ResetJob} {g : Nat × Nat} (h : Holds s core p)
    (one : s.resets = [j]) (capture : j.phase = .capture) (inside : inDomain j.dom p = true) (level : j.domain = 0 → line < 256)
    (segment : segmentOf line = some g) (unflagged : (p, line) ∉ j.bad) :
    exec (.locketAccessTimeout 0 core line) s = .next (s.captureTimeout j p line g) := by
  show execLocketAccessTimeout 0 core line s = _
  unfold execLocketAccessTimeout
  rw [show s.physOf core.toNat = some p from h, one]
  simp only [List.getElem?_cons_zero, segment]
  refine if_neg fun stays => ?_
  rcases stays with off | out | bad | ⟨engine, high, -⟩
  · exact off capture
  · rw [inside] at out
    cases out
  · exact unflagged (by simpa using bad)
  · have := level engine
    omega

end Sys2Proof.Machine
end
section
/-!
PROOFS. The settling of WatchdogsAndEscalation: its clauses by what is in progress, and the obligation.
-/
namespace Sys2Proof.Machine

/-- Heartbeats are not checked while watchdogs are disabled. -/
theorem heartbeatCheck_disabled {s : State} (off : s.flag Key.wdtEnable = false) (missed : List Nat) :
    exec (.heartbeatCheck missed) s = .next s := by
  show execHeartbeatCheck missed s = _
  unfold execHeartbeatCheck
  exact if_pos (.inl off)

/-- A warm reset of the package does not end by RESET_COMPLETE of its units (R487). -/
theorem resetDone_package {s : State} {j : ResetJob} (domain : j.domain = 6) : s.resetDone j = false := by
  simp [State.resetDone, domain]

theorem resetDone_cores {s : State} {j : ResetJob} (domain : j.domain ≤ 3) : s.resetDone j = true := by
  unfold State.resetDone
  simp [show j.domain ≠ 4 by omega, show j.domain ≠ 6 by omega]

end Sys2Proof.Machine
end

section
open Sys2Proof Sys2Proof.Machine

/-- Settles O54: with nothing in progress an expiry or a missed heartbeat only counts and begins a capture; with one reset in progress each operation
has one branch by its phase and domain, and the package but for that branch's units is kept by projections that forget them. -/
theorem watchdogsAndEscalation : Obligations.WatchdogsAndEscalation := by
  unfold Obligations.WatchdogsAndEscalation
  intro core p s up holds bound die quiet
  refine ⟨fun idle ready => ⟨fun e => ⟨?_, engineWdtExpiry_idle holds⟩, ?_, coreWdtExpiry_idle holds, ?_, ?_⟩, fun j one => ⟨?_, ?_, ?_, ?_, ?_⟩⟩
  · exact engineWdtExpiry_captures holds idle ready die
  · exact coreWdtExpiry_captures holds idle ready die
  · intro u k hu wdt open' watches before
    refine ⟨fun below => ⟨_, heartbeatCheck_misses hu wdt up ready idle open' watches before below, ?_, ?_, ?_, ?_⟩,
      heartbeatCheck_hangs hu wdt up ready idle open' watches before,
      ⟨_, heartbeatCheck_none (by omega) wdt up ready before, rfl, rfl, rfl⟩⟩
    · simp
    · simpa using idle
    · exact (counted_count _ (Key.heartbeatMissesDie u) 1).from rfl
    · simp
  · exact fun off => heartbeatCheck_disabled off [0]
  · exact fun capture => ⟨resetComplete_stays up quiet one (.inl capture), escalation_stays up quiet one capture⟩
  · intro running alone
    refine ⟨fun low => resetComplete_ends up quiet one running alone (resetDone_cores low) (by omega), fun domain => ?_,
      fun domain => resetComplete_stays up quiet one (.inr (resetDone_package domain)), resetComplete_rim up quiet one running alone,
      fun d tgt wider => escalation_widens up quiet one running alone wider, escalation_fencesDie up quiet one running alone,
      escalation_fencesSetting up quiet one running alone, escalation_fencesRim up quiet one running alone, fun domain => ?_⟩
    · split
      case isTrue done => exact resetComplete_ends up quiet one running alone done (by omega)
      case isFalse busy => exact resetComplete_stays up quiet one (.inr (by simpa using busy))
    · obtain ⟨t, runs, cause, cores, hbms, resets, ftime, -, pkg⟩ := escalation_cold up one running domain
      exact ⟨t, runs, cause, cores, hbms, resets, ftime, pkg⟩
  · exact fun capture domain target held lost down wf aligned =>
      locketCaptureEnd_core quiet one capture domain target bound held lost down wf aligned
  · exact locketCaptureEnd_stays one
  · intro line g capture inside level segment unflagged
    have runs := locketAccessTimeout_runs holds one capture inside level segment unflagged
    refine ⟨fun others => ⟨_, runs, State.captureTimeout_flags one line g fun r found => ?_⟩,
      fun run after => ⟨_, runs, State.captureTimeout_skips one run after⟩,
      fun run _ => ⟨_, runs, State.captureTimeout_flags one line g fun r found => ?_⟩⟩
    · exact absurd (by simpa using List.find?_some found) (others r (List.mem_of_find?_eq_some found))
    · have third : r = (p, line - 1, 3) := by
        have mem := List.mem_of_find?_eq_some found
        rwa [run, List.mem_singleton] at mem
      rw [third]
      exact (by decide : (3 : Nat) ≠ 15)

end

section
/-!
PROOFS. The matrix engine: a descriptor that starts, the one tile of a block, and the operands as rows of values (R96, R101, R103).
-/
namespace Sys2Proof.Machine

/-! ## Banks and tiles -/

@[simp] theorem Core.bank_setBank_self (c : Core) (n : Nat) (b : Bank) : (c.setBank n b).bank n = b := by
  simp [Core.bank, Core.setBank, look_put_self]

@[simp] theorem Core.bank_setEngine (c : Core) (e : Nat) (y : Engine) (n : Nat) : (c.setEngine e y).bank n = c.bank n := by
  simp [Core.bank]

/-- What starts on an engine changes no bank. -/
theorem State.bank_addStarted (s : State) (p e : Nat) (y : Started) (n : Nat) :
    ((s.addStarted p e y).core p).bank n = (s.core p).bank n := by
  simp [State.addStarted]

theorem State.bank_popDesc (s : State) (p e n : Nat) : ((s.popDesc p e).core p).bank n = (s.core p).bank n := by
  simp [State.core_popDesc]

theorem State.sp_popDesc (s : State) (p e : Nat) : ((s.popDesc p e).core p).sp = (s.core p).sp := by
  simp [State.core_popDesc]

/-- Entry 32r + c of a tile is the one of its cell (r, c) (R96). -/
theorem getElem?_tileCells {α : Type} (f : Nat × Nat → α) {r c : Nat} (hr : r < 64) (hc : c < 32) :
    (tileCells.map f)[32 * r + c]? = some (f (r, c)) := by
  have row : (32 * r + c) / 32 = r := by omega
  have col : (32 * r + c) % 32 = c := by omega
  simp [tileCells, show 32 * r + c < 2048 by omega, row, col]

theorem mem_tileCells {r c : Nat} (hr : r < 64) (hc : c < 32) : (r, c) ∈ tileCells := by
  have cell := getElem?_tileCells id hr hc
  rw [List.map_id] at cell
  exact List.mem_of_getElem? cell

/-- A block of one tile replaces the bank it names (R101). -/
theorem bank_bankTiles {x : MxeD} (one : x.block = 0) (c : Core) (f : Bank → Nat → Nat → Bank × Nat) :
    (bankTiles c x f).1.bank x.bank = (f (c.bank x.bank) 0 0).1 := by
  simp [bankTiles, blkTiles, blkM, blkN, one]

/-! ## Starting -/

/-- A descriptor is refused or not whatever the queue of the engine holds. -/
theorem MxeD.refusal_popDesc (x : MxeD) (op : Nat) (s : State) (p : Nat) :
    x.refusal op ((s.popDesc p 0).core p) = x.refusal op (s.core p) := by
  rw [State.core_popDesc]
  rfl

theorem mma_starts {core : CoreId} {s : State} {p d : Nat} (h : Starts s core p 0 1 d)
    (ok : (MxeD.of d).refusal 1 (s.core p) = none) :
    exec (.mma core) s = .next ((s.popDesc p 0).runMma p (core.toNat % 16) d (MxeD.of d)) := by
  rw [exec_mma, execMma, startOp_starts h rfl, MxeD.refusal_popDesc, ok]

/-- A COMBINE replaces the banks of its block tile by tile (R110). -/
theorem mxeCombine_starts {core : CoreId} {s : State} {p d : Nat} (h : Starts s core p 0 2 d)
    (ok : (MxeD.of d).refusal 2 (s.core p) = none) (one : (MxeD.of d).block = 0) :
    ∃ t, exec (.mxeCombine core) s = .next t ∧ (t.core p).bank (MxeD.of d).bank =
      (combineTile (MxeD.of d) (s.core p).sp ((s.core p).bank (MxeD.of d).bank) 0 0).1 := by
  rw [exec_mxeCombine, execMxeCombine, startOp_starts h rfl]
  simp only [MxeD.refusal_popDesc, ok]
  refine ⟨_, rfl, ?_⟩
  rw [State.bank_addStarted, State.core_setCore_self, bank_bankTiles one, State.bank_popDesc, State.sp_popDesc]

/-- A DRAIN waits for its completion with the output of its banks (R111). -/
theorem mxeDrain_starts {core : CoreId} {s : State} {p d : Nat} (h : Starts s core p 0 3 d)
    (ok : (MxeD.of d).refusal 3 (s.core p) = none) :
    exec (.mxeDrain core) s = .next ((s.popDesc p 0).addStarted p 0 ((s.popDesc p 0).mxeOutput p d 3 (MxeD.of d))) := by
  rw [exec_mxeDrain, execMxeDrain, startOp_starts h rfl]
  simp only [MxeD.refusal_popDesc, ok]

theorem mxe_started_addStarted_popDesc (s : State) (p : Nat) (y : Started) :
    (((s.popDesc p 0).addStarted p 0 y).core p).mxe.started = (s.core p).mxe.started ++ [y] := by
  simp [State.addStarted, State.core_popDesc, Core.setEngine, Core.engine]

/-! ## Operands -/

/-- The `k` element values of row `n` of an operand that is not transposed (R103). -/
def operandRow (m : Mem) (k f addr stride n : Nat) : List Num :=
  (List.range k).map (fun j => opValue f (m.bits (8 * (addr + 32 * stride * n) + j * opBits f) (opBits f)))

@[simp] theorem length_operandRow (m : Mem) (k f addr stride n : Nat) : (operandRow m k f addr stride n).length = k := by
  simp [operandRow]

/-- An operand read from the scratchpad is its rows. -/
theorem readOperand_values (m : Mem) (addr stride f rows k : Nat) {n : Nat} (hn : n < rows) :
    ((readOperand m addr stride false f rows k).map (·.map (opValue f))).getD n [] = operandRow m k f addr stride n := by
  simp [readOperand, operandRow, hn, Nat.mul_comm n, Nat.mul_right_comm _ n]

/-- Without a reuse asked for, the operand is the scratchpad's bytes now (R106). -/
theorem stageOperand_fresh (m : Mem) (old : Option Staged) (addr stride : Nat) (trans : Bool) (f mxs rows k : Nat) :
    (stageOperand m old addr stride trans false f mxs rows k).1.elems = readOperand m addr stride trans f rows k := by
  cases old <;> simp [stageOperand]

theorem mmaOperands_a {c : Core} {x : MxeD} (one : x.block = 0) (trans : x.aTrans = false) (reuse : x.aReuse = false) {n : Nat}
    (hn : n < 64) : (mmaOperands c x).1.a.getD n [] = operandRow c.sp x.kLen x.aFmt x.aAddr x.aStride n := by
  simp only [mmaOperands, trans, reuse, stageOperand_fresh]
  exact readOperand_values _ _ _ _ _ _ (by simpa [one, blkM] using hn)

theorem mmaOperands_b {c : Core} {x : MxeD} (one : x.block = 0) (trans : x.bTrans = false) (reuse : x.bReuse = false) {n : Nat}
    (hn : n < 32) : (mmaOperands c x).1.b.getD n [] = operandRow c.sp x.kLen x.bFmt x.bAddr x.bStride n := by
  simp only [mmaOperands, trans, reuse, stageOperand_fresh]
  exact readOperand_values _ _ _ _ _ _ (by simpa [one, blkN] using hn)

/-- Staging copies of the operands changes no bank. -/
theorem bank_mmaOperands (c : Core) (x : MxeD) (n : Nat) : (mmaOperands c x).2.1.bank n = c.bank n := rfl

/-- What an MMA of one tile leaves in its bank, whether Assay samples the tile or not. -/
theorem State.bank_runMma {x : MxeD} (one : x.block = 0) (s : State) (p lc d : Nat) :
    ((s.runMma p lc d x).core p).bank x.bank =
      (mmaTile x ((pairKind x.aFmt x.bFmt).getD .fp32) (mmaOperands (s.core p) x).1 ((s.core p).bank x.bank) 0 0).1 := by
  rw [State.runMma]
  simp only [State.bank_addStarted, State.core_setCore_self, bank_bankTiles one, bank_mmaOperands]

end Sys2Proof.Machine
end

section
/-!
PROOFS. The sums of an MMA: exact pairs of INT8 (R107) and wide pairs grain by grain (R108, R164).
-/
namespace Sys2Proof.Machine

/-! ## Runs -/

theorem flatten_runs {α : Type} (n k : Nat) (l : List α) :
    ((List.range k).map (fun g => (l.drop (n * g)).take n)).flatten = l.take (n * k) := by
  induction k with
  | zero => simp
  | succ k ih => simp [List.range_succ, ih, Nat.mul_succ, List.take_add]

/-- The runs of a list, one after another, are the list. -/
theorem flatten_runsOf {α : Type} {n : Nat} (hn : 0 < n) (l : List α) : (runsOf n l).flatten = l := by
  rw [runsOf, flatten_runs]
  refine List.take_of_length_le ?_
  have whole := Nat.div_add_mod (l.length + n - 1) n
  have below := Nat.mod_lt (l.length + n - 1) hn
  unfold ceilDiv
  omega

/-! ## Exact pairs (R107) -/

theorem sgn_eq_toInt (n v : Nat) : sgn n v = (BitVec.ofNat n v).toInt := by
  simp [sgn, BitVec.toInt]

/-- The 8 bits at a whole byte are the byte. -/
theorem Mem.bits_byte (m : Mem) (a : Nat) : m.bits (8 * a) 8 = (m.read a).toNat := by
  have high : (m.read a).toNat < 256 := (m.read a).isLt
  simpa [Mem.bits, Mem.num, Mem.readN, leNat] using high

/-- An INT8 operand holds the signed bytes of its row. -/
theorem operandRow_int8 (m : Mem) (k addr stride n : Nat) :
    operandRow m k 7 addr stride n = (List.range k).map (fun j => Num.ofInt (m.read (addr + 32 * stride * n + j)).toInt) := by
  refine List.map_congr_left fun j _ => ?_
  have place : 8 * (addr + 32 * stride * n) + j * opBits 7 = 8 * (addr + 32 * stride * n + j) := by simp only [opBits]; omega
  show Num.ofInt (sgn 8 (m.bits _ 8)) = _
  rw [place, Mem.bits_byte, sgn_eq_toInt, BitVec.ofNat_toNat, BitVec.setWidth_eq]

theorem signed_natAbs (a : Int) : (if a < 0 then -1 else 1) * (a.natAbs : Int) = a := by
  split <;> omega

/-- The product of two integers in units of 2^−32. -/
theorem units_mul_ofInt (a b : Int) : units ((Num.ofInt a).mul (Num.ofInt b)) = 2 ^ 32 * (a * b) := by
  have signs : (if (decide (a < 0) != decide (b < 0)) = true then (-1 : Int) else 1) =
      (if a < 0 then -1 else 1) * (if b < 0 then -1 else 1) := by
    by_cases ha : a < 0 <;> by_cases hb : b < 0 <;> simp [ha, hb]
  have magnitude : ((a.natAbs * b.natAbs * 2 ^ 32 / (1 * 1) : Nat) : Int) = a.natAbs * b.natAbs * 2 ^ 32 := by
    rw [Nat.mul_one, Nat.div_one, Int.natCast_mul, Int.natCast_mul]
    rfl
  calc units ((Num.ofInt a).mul (Num.ofInt b))
      = (if a < 0 then -1 else 1) * (if b < 0 then -1 else 1) * (a.natAbs * b.natAbs * 2 ^ 32) := by rw [← signs, ← magnitude]; rfl
    _ = 2 ^ 32 * (((if a < 0 then -1 else 1) * a.natAbs) * ((if b < 0 then -1 else 1) * b.natAbs)) := by ac_rfl
    _ = 2 ^ 32 * (a * b) := by rw [signed_natAbs, signed_natAbs]

/-- A product that is finite and of at most 2^46 units, as every product of two signed bytes is. -/
def SmallProduct (q : Num) : Prop := tagOf q = 0 ∧ -2 ^ 46 ≤ units q ∧ units q ≤ 2 ^ 46

theorem foldl_units (g : List Num) (v : Int) : g.foldl (fun v q => v + units q) v = v + (g.map units).sum := by
  induction g generalizing v with
  | nil => exact (Int.add_zero v).symm
  | cons q g ih => rw [List.foldl_cons, ih, List.map_cons, List.sum_cons, Int.add_assoc]

theorem foldl_tagAdd {g : List Num} (h : ∀ q ∈ g, tagOf q = 0) : g.foldl (fun t q => tagAdd t (tagOf q)) 0 = 0 :=
  foldl_fixed_of_mem fun q hq => by rw [h q hq]; rfl

theorem sum_units_bounds {g : List Num} (h : ∀ q ∈ g, SmallProduct q) :
    -(2 ^ 46 * (g.length : Int)) ≤ (g.map units).sum ∧ (g.map units).sum ≤ 2 ^ 46 * (g.length : Int) := by
  induction g with
  | nil => exact ⟨Int.le_refl 0, Int.le_refl 0⟩
  | cons q g ih =>
    obtain ⟨-, low, high⟩ := h q List.mem_cons_self
    obtain ⟨low', high'⟩ := ih fun r hr => h r (List.mem_cons_of_mem q hr)
    rw [List.map_cons, List.sum_cons, List.length_cons]
    omega

/-- A finite amount added to an entry without a tag, within the range (R107). -/
theorem exactAdd_inRange {e : Int × Nat} {v : Int} (tag : e.2 = 0) (low : -2 ^ 95 ≤ e.1 + v) (high : e.1 + v < 2 ^ 95) :
    exactAdd e v 0 = ((e.1 + v, 0), 0) := by
  have range : ¬(e.1 + v < -2 ^ 95 ∨ 2 ^ 95 ≤ e.1 + v) := by omega
  rw [exactAdd, if_neg (by simp [tagAdd, tag]), if_neg range]

/-- The step of an exact sum: a grain's units and tags are added to the entry (R107, R170). -/
def exactGrain (acc : (Int × Nat) × Nat) (g : List Num) : (Int × Nat) × Nat :=
  let r := exactAdd acc.1 (g.foldl (fun v q => v + units q) 0) (g.foldl (fun t q => tagAdd t (tagOf q)) 0)
  (r.1, acc.2 + r.2)

theorem exactEntry_eq (e : Int × Nat) (a b : List Num) :
    exactEntry e a b = (runsOf 32 (List.zipWith Num.mul a b)).foldl exactGrain (e, 0) := rfl

/-- Grains of small products that keep the entry in range add up to the sum of all their units. -/
theorem foldl_exactGrain {gs : List (List Num)} (h : ∀ q ∈ gs.flatten, SmallProduct q) {v : Int} {n : Nat}
    (low : -2 ^ 95 ≤ v - 2 ^ 46 * (gs.flatten.length : Int)) (high : v + 2 ^ 46 * (gs.flatten.length : Int) < 2 ^ 95) :
    gs.foldl exactGrain ((v, 0), n) = ((v + (gs.flatten.map units).sum, 0), n) := by
  induction gs generalizing v with
  | nil => exact congrArg (fun w => ((w, 0), n)) (Int.add_zero v).symm
  | cons g gs ih =>
    rw [List.flatten_cons] at h
    rw [List.flatten_cons, List.length_append] at low high
    have small : ∀ q ∈ g, SmallProduct q := fun q hq => h q (List.mem_append_left _ hq)
    have rest : ∀ q ∈ gs.flatten, SmallProduct q := fun q hq => h q (List.mem_append_right _ hq)
    obtain ⟨below, above⟩ := sum_units_bounds small
    have step : exactGrain ((v, 0), n) g = ((v + (g.map units).sum, 0), n) := by
      rw [exactGrain, foldl_units, foldl_tagAdd fun q hq => (small q hq).1, Int.zero_add,
        exactAdd_inRange (e := (v, 0)) rfl (show -2 ^ 95 ≤ v + _ by omega) (show v + _ < 2 ^ 95 by omega)]
      rfl
    rw [List.foldl_cons, step, ih rest (by omega) (by omega), List.flatten_cons, List.map_append, List.sum_append_int, Int.add_assoc]

theorem exactEntry_small {a b : List Num} (h : ∀ q ∈ List.zipWith Num.mul a b, SmallProduct q)
    (len : (List.zipWith Num.mul a b).length ≤ 2048) :
    (exactEntry (0, 0) a b).1 = (((List.zipWith Num.mul a b).map units).sum, 0) := by
  have whole := flatten_runsOf (n := 32) (by decide) (List.zipWith Num.mul a b)
  have entry := foldl_exactGrain (gs := runsOf 32 (List.zipWith Num.mul a b)) (v := 0) (n := 0) (by rwa [whole])
    (by rw [whole]; omega) (by rw [whole]; omega)
  rw [exactEntry_eq, entry, whole, Int.zero_add]

theorem smallProduct_bytes (a b : Byte) : SmallProduct ((Num.ofInt a.toInt).mul (Num.ofInt b.toInt)) := by
  have ha : a.toInt.natAbs ≤ 2 ^ 7 := by have := BitVec.le_toInt a; have := BitVec.toInt_lt (x := a); omega
  have hb : b.toInt.natAbs ≤ 2 ^ 7 := by have := BitVec.le_toInt b; have := BitVec.toInt_lt (x := b); omega
  have product := Nat.mul_le_mul ha hb
  rw [← Int.natAbs_mul] at product
  refine ⟨rfl, ?_⟩
  rw [units_mul_ofInt]
  omega

theorem sum_const_mul {α : Type} (f : α → Int) (w : Int) (l : List α) : (l.map fun j => w * f j).sum = w * (l.map f).sum := by
  induction l with
  | nil => exact (Int.mul_zero w).symm
  | cons j l ih => rw [List.map_cons, List.sum_cons, ih, List.map_cons, List.sum_cons, Int.mul_add]

/-- Rows of at most 2,048 signed bytes add up in an exact entry without leaving its range. -/
theorem exactEntry_bytes (u v : Nat → Byte) {k : Nat} (hk : k ≤ 2048) :
    (exactEntry (0, 0) ((List.range k).map fun j => Num.ofInt (u j).toInt) ((List.range k).map fun j => Num.ofInt (v j).toInt)).1 =
      (2 ^ 32 * ((List.range k).map fun j => (u j).toInt * (v j).toInt).sum, 0) := by
  have products : List.zipWith Num.mul ((List.range k).map fun j => Num.ofInt (u j).toInt)
      ((List.range k).map fun j => Num.ofInt (v j).toInt) =
      (List.range k).map fun j => (Num.ofInt (u j).toInt).mul (Num.ofInt (v j).toInt) := by
    rw [List.zipWith_map, List.zipWith_self]
  rw [exactEntry_small, products, List.map_map, ← sum_const_mul]
  · exact congrArg (fun l => (List.sum l, 0)) (List.map_congr_left fun j _ => units_mul_ofInt _ _)
  · rw [products]
    intro q hq
    obtain ⟨j, -, rfl⟩ := List.mem_map.mp hq
    exact smallProduct_bytes _ _
  · rwa [products, List.length_map, List.length_range]

/-! ## Wide pairs (R108, R164) -/

/-- The partials of `k` pairs of values (R164, level 1): each grain of 32 has its products summed by the tree, then rounded once. -/
def grainPartials (k : Nat) (pairs : List (Num × Num)) : List Num :=
  (List.range ((k + 31) / 32)).map (fun g => rna32 (treeSum (((pairs.drop (32 * g)).take 32).map (fun y => y.1.mul y.2))))

theorem widePartials_unscaled (a b sa sb : List Num) {k : Nat} (len : (a.zip b).length = k) :
    widePartials false a b sa sb = grainPartials k (a.zip b) := by
  simp [widePartials, grainPartials, runsOf, grainWide, List.zipWith_map, List.zipWith_self, ceilDiv, len]

/-! ## The tile -/

theorem mmaTile_kind (x : MxeD) (kind : BankKind) (y : MmaIn) (old : Bank) (i j : Nat) : (mmaTile x kind y old i j).1.kind = kind := rfl

/-- An entry of an exact bank that begins: the exact sum of its row and column. -/
theorem mmaTile_exact {x : MxeD} (init : x.accInit = true) (y : MmaIn) (old : Bank) {r c : Nat} (hr : r < 64) (hc : c < 32) :
    (mmaTile x .exact y old 0 0).1.entries[32 * r + c]? = some (exactEntry (0, 0) (y.a.getD r []) (y.b.getD c [])).1 := by
  simp [mmaTile, init, Bank.entry, getElem?_tileCells _ hr hc]

/-- An entry of an FP32 bank that begins: the grain partials added one after another to +0. -/
theorem mmaTile_fp32 {x : MxeD} (init : x.accInit = true) (y : MmaIn) (old : Bank) {r c : Nat} (hr : r < 64) (hc : c < 32) :
    (mmaTile x .fp32 y old 0 0).1.entries[32 * r + c]? = some (((fp32 (foldGrains (ofFp32 0) (widePartials (isMx x.aFmt)
      (y.a.getD r []) (y.b.getD c []) (y.sa.getD r []) (y.sb.getD c []))) : Nat) : Int), 0) := by
  simp [mmaTile, init, Bank.entry, getElem?_tileCells _ hr hc]

end Sys2Proof.Machine
end

section
/-!
PROOFS. The tile of a COMBINE (R110) and the writes of an output as FP32 (R111, R112, R117).
-/
namespace Sys2Proof.Machine

/-! ## COMBINE -/

/-- The raw element of `n` bytes at row `r` and column `c` of a COMBINE (R110). -/
def rawElem (x : MxeD) (m : Mem) (n r c : Nat) : Nat := m.num (x.aAddr + 32 * x.aStride * r + n * c) n

theorem combineTile_kind (x : MxeD) (m : Mem) (old : Bank) (i j : Nat) :
    (combineTile x m old i j).1.kind = if x.aFmt = 0 then .fp32 else .exact := rfl

/-- The model's address of the raw element of a tile that is not transposed. -/
theorem rawElem_addr (x : MxeD) (m : Mem) (n r c : Nat) :
    m.num (x.aAddr + r * 32 * x.aStride + c * n) n = rawElem x m n r c := by
  rw [rawElem, Nat.mul_comm r 32, Nat.mul_right_comm, Nat.mul_comm c]

theorem combineTile_fp32 {x : MxeD} (fmt : x.aFmt = 0) (trans : x.aTrans = false) (m : Mem) (old : Bank) {r c : Nat} (hr : r < 64)
    (hc : c < 32) : (combineTile x m old 0 0).1.entries[32 * r + c]? = some (((if x.accInit then rawElem x m 4 r c
      else fp32 (add32 (ofFp32 (old.entry (32 * r + c)).1.toNat) (ofFp32 (rawElem x m 4 r c))) : Nat) : Int), 0) := by
  simp only [combineTile, List.map_map, getElem?_tileCells _ hr hc, Function.comp_apply, fmt, trans, if_true, Nat.mul_zero, Nat.zero_add,
    rawElem_addr, Bool.false_eq_true, if_false]
  split <;> rfl

/-- A raw exact element in range that begins its entry, or that an entry without a tag takes within its range. -/
theorem combineTile_exact {x : MxeD} (fmt : x.aFmt = 7) (trans : x.aTrans = false) (m : Mem) (old : Bank) {r c : Nat} (hr : r < 64)
    (hc : c < 32) {v sum : Int} (hv : v = (BitVec.ofNat 128 (rawElem x m 16 r c)).toInt)
    (hsum : sum = if x.accInit then v else (old.entry (32 * r + c)).1 + v) (elem : -2 ^ 95 ≤ v ∧ v < 2 ^ 95)
    (range : -2 ^ 95 ≤ sum ∧ sum < 2 ^ 95) (tag : x.accInit = true ∨ (old.entry (32 * r + c)).2 = 0) :
    (combineTile x m old 0 0).1.entries[32 * r + c]? = some (sum, 0) := by
  have inside : ¬(v < -2 ^ 95 ∨ 2 ^ 95 ≤ v) := by omega
  simp only [combineTile, List.map_map, getElem?_tileCells _ hr hc, Function.comp_apply, fmt, trans, if_true, Nat.mul_zero, Nat.zero_add,
    rawElem_addr, Bool.false_eq_true, if_false, sgn_eq_toInt, ← hv, show (7 : Nat) ≠ 0 by decide, if_neg inside]
  cases init : x.accInit with
  | true => simp [hsum, init]
  | false =>
    have old' : (old.entry (32 * r + c)).2 = 0 := by simpa [init] using tag
    have sum' : sum = (old.entry (32 * r + c)).1 + v := by simpa [init] using hsum
    rw [sum'] at range ⊢
    simp [exactAdd_inRange old' range.1 range.2]

/-! ## Output -/

theorem Num.mul_one (a : Num) : a.mul (.fin false 1 1) = a := by
  cases a <;> simp [Num.mul]

/-- An element drained on path 1 as FP32 without a scale context is the entry's value, rounded. -/
theorem outElem_fp32 {x : MxeD} (path : x.outPath = 1) (fmt : x.outFmt = 0) (raw kind : BankKind) (e : Int × Nat) (r : Nat) :
    (outElem x raw kind e (.fin false 1 1) (.fin false 1 1) r).bytes = leBytes 4 (fp32 (entryValue kind e)) := by
  simp [outElem, path, fmt, Num.mul_one, outSize, outFormat, fp32]

/-- The write of one cell of a DRAIN as FP32. -/
def drainWrite (x : MxeD) (b : Bank) (rc : Nat × Nat) : Nat × List Byte :=
  (x.outAddr + 32 * x.outStride * rc.1 + 4 * rc.2, leBytes 4 (fp32 (entryValue b.kind (b.entry (32 * rc.1 + rc.2)))))

/-- The output of one tile on path 1 as FP32, without a scale context and not transposed: one write for each cell, and the side output
that was asked for. -/
theorem mxeOutput_fp32 {x : MxeD} {s : State} {p : Nat} (d op : Nat) (one : x.block = 0) (path : x.outPath = 1) (fmt : x.outFmt = 0)
    (trans : x.outTrans = false) (actx : x.aCtx = 0xFF) (bctx : x.bCtx = 0xFF) (octx : x.outCtx = 0xFF) :
    ∃ side, (s.mxeOutput p d op x).writes = tileCells.map (drainWrite x ((s.core p).bank x.bank)) ++ side ∧
      (x.sideGran = 0 → side = []) := by
  have scale : ((s.core p).dequant x.aCtx).mul (if op = 2 then Num.pow2 0 else (s.core p).dequant x.bCtx) = .fin false 1 1 := by
    simp [Core.dequant, actx, bctx, Num.pow2, Num.mul]
  have quant : (s.core p).quant x.outCtx = .fin false 1 1 := by simp [Core.quant, octx, Num.pow2]
  simp only [State.mxeOutput, path, scale, quant]
  refine ⟨_, congrArg (· ++ _) ?_, fun none => if_pos none⟩
  simp [blkTiles, blkM, blkN, one, outTile, outElem_fp32 path fmt, trans, fmt, outSize, drainWrite, Function.comp_def,
    Nat.mul_comm _ 32, Nat.mul_right_comm 32, Nat.mul_comm _ 4]

end Sys2Proof.Machine
end

section
/-!
PROOFS. What an MMA of one tile that begins its bank leaves in it: the exact sums of INT8 (R107), the grain sums of FP32, FP16 and BF16 (R108).
-/
namespace Sys2Proof.Machine

/-- An MMA that is not refused contracts at most 2,048 products (R102). -/
theorem kLen_le_of_accepted {x : MxeD} {c : Core} (ok : x.refusal 1 c = none) : x.kLen ≤ 2048 := by
  refine Nat.le_of_not_lt fun long => ?_
  have reserved : x.reserved 1 c = true := by
    simp only [MxeD.reserved, show decide (2048 < x.kLen) = true by simpa using long]
    simp
  simp [MxeD.refusal, reserved] at ok

section
variable {core : CoreId} {s : State} {p d : Nat} (h : Starts s core p 0 1 d) (ok : (MxeD.of d).refusal 1 (s.core p) = none)
  (one : (MxeD.of d).block = 0)
include h ok one

/-- The bank that an MMA of one tile names holds its tile. -/
theorem mma_bank : ∃ t, exec (.mma core) s = .next t ∧ (t.core p).bank (MxeD.of d).bank =
    (mmaTile (MxeD.of d) ((pairKind (MxeD.of d).aFmt (MxeD.of d).bFmt).getD .fp32) (mmaOperands ((s.popDesc p 0).core p) (MxeD.of d)).1
      ((s.core p).bank (MxeD.of d).bank) 0 0).1 :=
  ⟨_, mma_starts h ok, by rw [State.bank_runMma one, State.bank_popDesc]⟩

variable (atrans : (MxeD.of d).aTrans = false) (btrans : (MxeD.of d).bTrans = false) (areuse : (MxeD.of d).aReuse = false)
  (breuse : (MxeD.of d).bReuse = false) (init : (MxeD.of d).accInit = true)
include atrans btrans areuse breuse init

theorem mma_int8 (afmt : (MxeD.of d).aFmt = 7) (bfmt : (MxeD.of d).bFmt = 7) :
    ∃ t, exec (.mma core) s = .next t ∧ ((t.core p).bank (MxeD.of d).bank).kind = .exact ∧ ∀ r c, r < 64 → c < 32 →
      ((t.core p).bank (MxeD.of d).bank).entries[32 * r + c]? = some (2 ^ 32 * ((List.range (MxeD.of d).kLen).map (fun j =>
        ((s.core p).sp.read ((MxeD.of d).aAddr + 32 * (MxeD.of d).aStride * r + j)).toInt *
          ((s.core p).sp.read ((MxeD.of d).bAddr + 32 * (MxeD.of d).bStride * c + j)).toInt)).sum, 0) := by
  obtain ⟨t, runs, bank⟩ := mma_bank h ok one
  have kind : (pairKind (MxeD.of d).aFmt (MxeD.of d).bFmt).getD .fp32 = .exact := by rw [afmt, bfmt]; rfl
  rw [kind] at bank
  refine ⟨t, runs, by rw [bank, mmaTile_kind], fun r c hr hc => ?_⟩
  rw [bank, mmaTile_exact init _ _ hr hc, mmaOperands_a one atrans areuse hr, mmaOperands_b one btrans breuse hc, afmt, bfmt,
    operandRow_int8, operandRow_int8, exactEntry_bytes _ _ (kLen_le_of_accepted ok), State.sp_popDesc]

theorem mma_wide (wide : (MxeD.of d).aFmt ≤ 2) (same : (MxeD.of d).bFmt = (MxeD.of d).aFmt) :
    ∃ t, exec (.mma core) s = .next t ∧ ((t.core p).bank (MxeD.of d).bank).kind = .fp32 ∧ ∀ r c, r < 64 → c < 32 →
      ((t.core p).bank (MxeD.of d).bank).entries[32 * r + c]? =
        some (((fp32 (foldGrains (ofFp32 0) (grainPartials (MxeD.of d).kLen
          ((operandRow (s.core p).sp (MxeD.of d).kLen (MxeD.of d).aFmt (MxeD.of d).aAddr (MxeD.of d).aStride r).zip
            (operandRow (s.core p).sp (MxeD.of d).kLen (MxeD.of d).aFmt (MxeD.of d).bAddr (MxeD.of d).bStride c)))) : Nat) : Int), 0) := by
  obtain ⟨t, runs, bank⟩ := mma_bank h ok one
  have kind : (pairKind (MxeD.of d).aFmt (MxeD.of d).bFmt).getD .fp32 = .fp32 := by
    rw [same, pairKind, if_neg (by omega), if_neg (by omega)]
    split <;> simp [wide]
  have noScale : isMx (MxeD.of d).aFmt = false := by
    simp [isMx, show (MxeD.of d).aFmt ≠ 5 by omega, show (MxeD.of d).aFmt ≠ 6 by omega]
  rw [kind] at bank
  refine ⟨t, runs, by rw [bank, mmaTile_kind], fun r c hr hc => ?_⟩
  rw [bank, mmaTile_fp32 init _ _ hr hc, mmaOperands_a one atrans areuse hr, mmaOperands_b one btrans breuse hc, same, noScale,
    widePartials_unscaled _ _ _ _ (k := (MxeD.of d).kLen) (by simp), State.sp_popDesc]

end

end Sys2Proof.Machine
end

section
open Sys2Proof Sys2Proof.Machine

/-- Settles O17: each operation leaves the one tile of its block or writes it out, cell by cell; the INT8 sums stay within 2^57, so that no grain
of an exact entry leaves its range, and the wide sums are the model's grains with their operands read as rows of values. -/
theorem matrixArithmetic : Obligations.MatrixArithmetic := by
  unfold Obligations.MatrixArithmetic
  intro core p d s
  refine ⟨?_, ?_, ?_, ?_, ?_⟩
  · intro init afmt bfmt h ok one atrans btrans areuse breuse
    obtain ⟨t, runs, kind, entry⟩ := mma_int8 h ok one atrans btrans areuse breuse init afmt bfmt
    exact ⟨t, runs, kind, fun r c v hr hc value => (entry r c hr hc).trans value⟩
  · intro init wide same h ok one atrans btrans areuse breuse
    obtain ⟨t, runs, kind, entry⟩ := mma_wide h ok one atrans btrans areuse breuse init wide same
    exact ⟨t, runs, kind, fun r c v hr hc value => (entry r c hr hc).trans value⟩
  · intro fmt h ok one atrans _ _ _
    obtain ⟨t, runs, bank⟩ := mxeCombine_starts h ok one
    refine ⟨t, runs, by rw [bank, combineTile_kind, if_pos fmt], fun r c v hr hc value => ?_⟩
    rw [bank, combineTile_fp32 fmt atrans _ _ hr hc]
    exact value
  · intro fmt h ok one atrans _ _ _
    obtain ⟨t, runs, bank⟩ := mxeCombine_starts h ok one
    refine ⟨t, runs, by rw [bank, combineTile_kind, if_neg (by omega)], fun r c v hr hc value => ?_⟩
    obtain ⟨⟨elem, range, tag⟩, sum⟩ := Option.ite_none_right_eq_some.mp value
    rw [bank, ← sum]
    exact combineTile_exact fmt atrans _ _ hr hc rfl rfl elem range tag
  · intro h ok one path fmt trans actx bctx octx
    obtain ⟨side, writes, none⟩ := mxeOutput_fp32 (s := s.popDesc p 0) (p := p) d 3 one path fmt trans actx bctx octx
    rw [State.bank_popDesc] at writes
    refine ⟨_, _, mxeDrain_starts h ok, mxe_started_addStarted_popDesc _ _ _, fun r c hr hc => ?_, fun gran => ?_⟩
    · have cell := List.mem_map_of_mem (f := drainWrite (MxeD.of d) ((s.core p).bank (MxeD.of d).bank)) (mem_tileCells hr hc)
      rw [writes]
      exact List.mem_append_left _ cell
    · rw [writes, none gran]
      simp [tileCells]

end

section
/-!
PROOFS. Scale contexts and the rounding step: the descriptors that no later one may overtake, started or refused (R146, R151, R153, R218, R219).
-/
namespace Sys2Proof.Machine

/-! ## Contexts of a core -/

@[simp] theorem Core.scale_setScale_self (c : Core) (n : Nat) (x : ScaleCtx) : (c.setScale n x).scale n = x := by
  simp [Core.scale, Core.setScale, look_put_self]

theorem Core.scale_setScale_other (c : Core) {n j : Nat} (x : ScaleCtx) (h : j ≠ n) : (c.setScale n x).scale j = c.scale j := by
  simp [Core.scale, Core.setScale, look_put_other _ _ h]

@[simp] theorem State.scale_popDesc (s : State) (p e n : Nat) : ((s.popDesc p e).core p).scale n = (s.core p).scale n := by
  simp [Core.scale, State.core_popDesc]

@[simp] theorem State.scale_addStarted (s : State) (p e : Nat) (y : Started) (n : Nat) :
    ((s.addStarted p e y).core p).scale n = (s.core p).scale n := by
  simp [Core.scale, State.addStarted]

@[simp] theorem State.rstep_addStarted (s : State) (p e : Nat) (y : Started) : ((s.addStarted p e y).core p).rstep = (s.core p).rstep := by
  simp [State.addStarted]

/-! ## Starting alone -/

/-- Descriptor `d` has started on the Filigree engine as `x`, which no later one may overtake (R218). -/
def StartsAlone (c : Instr) (s t : State) (p d : Nat) (x : Started) : Prop :=
  StartsOn c s t p 1 d ∧ ((t.core p).engine 1).started = ((s.core p).engine 1).started ++ [x] ∧ x.alone = true ∧ x.desc = d

/-- Once the descriptor has left its queue, a start that changes only the scale contexts and the rounding step of its core leaves all that
StartsOn keeps. -/
theorem addStarted_startsAlone {c : Instr} {s u : State} {p d : Nat} {x : Started} {scales : List (Nat × ScaleCtx)} {step : Nat}
    (runs : exec c s = .next (u.addStarted p 1 x)) (own : u.core p = { (s.popDesc p 1).core p with scales := scales, rstep := step })
    (others : ∀ q, q ≠ p → u.core q = s.core q) (alone : x.alone = true) (desc : x.desc = d) :
    StartsAlone c s (u.addStarted p 1 x) p d x := by
  rw [State.core_popDesc] at own
  have engine : (u.core p).engine 1 = { (s.core p).engine 1 with queue := ((s.core p).engine 1).queue.drop 1 } := by
    rw [own]
    rfl
  refine ⟨addStarted_starts (by decide) runs desc (by rw [engine]) (by rw [engine]) (by simp [own]) (by simp [own]) (by simp [own])
    (by simp [own]) others, ?_, alone, desc⟩
  simp [State.addStarted, Core.engine_setEngine, engine]

section
variable {core : CoreId} {s : State} {p d : Nat}

/-! ## SET_STEP and CTX_ROLL -/

theorem setStep_starts (h : Starts s core p 1 0x0B d) :
    ∃ t, StartsAlone (.setStep core) s t p d (Started.aloneFor d) ∧ (t.core p).rstep = fld d 576 32 := by
  have runs := exec_setStep core s
  rw [execSetStep, startOp_starts h rfl] at runs
  refine ⟨_, addStarted_startsAlone runs (State.core_updCore_self _ _ _) (fun q other => ?_) rfl rfl, ?_⟩
  · rw [State.core_updCore_other _ _ other, State.core_popDesc_other _ _ other]
  · simp

/-- A start that replaces one scale context, whatever it counts besides, replaces it and no other. -/
theorem setScale_startsAlone {c : Instr} {u : State} {n : Nat} {y : ScaleCtx}
    (runs : exec c s = .next (u.addStarted p 1 (Started.aloneFor d)))
    (set : ∀ q, u.core q = ((s.popDesc p 1).updCore p (·.setScale n y)).core q) :
    ∃ t, StartsAlone c s t p d (Started.aloneFor d) ∧ (t.core p).scale n = y ∧ ∀ j, j ≠ n → (t.core p).scale j = (s.core p).scale j := by
  have own : u.core p = ((s.popDesc p 1).core p).setScale n y := by rw [set, State.core_updCore_self]
  refine ⟨_, addStarted_startsAlone runs own (fun q other => ?_) rfl rfl, ?_, fun j other => ?_⟩
  · rw [set, State.core_updCore_other _ _ other, State.core_popDesc_other _ _ other]
  · rw [State.scale_addStarted, own, Core.scale_setScale_self]
  · rw [State.scale_addStarted, own, Core.scale_setScale_other _ _ other, State.scale_popDesc]

theorem ctxRoll_starts (h : Starts s core p 1 0x0A d) (inside : (streamAt d 352).ctx < 64) :
    ∃ t, StartsAlone (.ctxRoll core) s t p d (Started.aloneFor d) ∧
      (t.core p).scale (streamAt d 352).ctx = ((s.core p).scale (streamAt d 352).ctx).roll.1 ∧
      ∀ j, j ≠ (streamAt d 352).ctx → (t.core p).scale j = (s.core p).scale j := by
  have runs := exec_ctxRoll core s
  rw [execCtxRoll, startOp_starts h rfl] at runs
  simp only [if_neg (Nat.not_le.mpr inside), State.scale_popDesc] at runs
  exact setScale_startsAlone runs fun q => by simp only [State.core_count]

theorem ctxRoll_stops (h : Starts s core p 1 0x0A d) (beyond : 64 ≤ (streamAt d 352).ctx) : StopsEngine (.ctxRoll core) s p 1 2 d := by
  refine engineStop_stops (by decide) (by decide) ?_
  rw [exec_ctxRoll, execCtxRoll, startOp_starts h rfl]
  simp only [if_pos beyond]

/-! ## CTX_LOAD -/

/-- The scale context of the record that the first stream of a descriptor names (R151, R218). -/
def Core.recordFor (c : Core) (d : Nat) : ScaleCtx := scaleOfRecord (c.sp.num (streamAt d 352).addr 128)

/-- What a CTX_LOAD does: its three checks in order, then the context that the record names. -/
theorem exec_ctxLoad_of_starts (h : Starts s core p 1 8 d) :
    exec (.ctxLoad core) s = .next (
      if 64 ≤ (streamAt d 352).ctx then (s.popDesc p 1).engineStop p 1 2 d
      else if blockOk (streamAt d 352).addr 128 = false then (s.popDesc p 1).engineStop p 1 3 d
      else if ((s.core p).recordFor d).valid = true ∧ ((s.core p).recordFor d).legal = false then (s.popDesc p 1).engineStop p 1 2 d
      else ((s.popDesc p 1).updCore p (·.setScale (streamAt d 352).ctx ((s.core p).recordFor d))).addStarted p 1 (Started.aloneFor d)) := by
  rw [exec_ctxLoad, execCtxLoad, startOp_starts h rfl]
  simp only [State.sp_popDesc, Bool.and_eq_true, Bool.not_eq_true']
  rfl

theorem ctxLoad_starts (h : Starts s core p 1 8 d) (inside : (streamAt d 352).ctx < 64) (block : blockOk (streamAt d 352).addr 128 = true)
    (legal : ((s.core p).recordFor d).valid = false ∨ ((s.core p).recordFor d).legal = true) :
    ∃ t, StartsAlone (.ctxLoad core) s t p d (Started.aloneFor d) ∧ (t.core p).scale (streamAt d 352).ctx = (s.core p).recordFor d ∧
      ∀ j, j ≠ (streamAt d 352).ctx → (t.core p).scale j = (s.core p).scale j := by
  have runs := exec_ctxLoad_of_starts h
  rw [if_neg (by omega), if_neg (by simp [block]), if_neg (by rcases legal with invalid | legal <;> simp [*])] at runs
  exact setScale_startsAlone runs fun _ => rfl

/-- A refused CTX_LOAD: a bad address beside a context below 64 is cause 3; a context of 64 or more, or a record that is not legal, cause 2. -/
theorem ctxLoad_stops (h : Starts s core p 1 8 d)
    (bad : ¬((streamAt d 352).ctx < 64 ∧ blockOk (streamAt d 352).addr 128 = true ∧
      (((s.core p).recordFor d).valid = false ∨ ((s.core p).recordFor d).legal = true))) :
    StopsEngine (.ctxLoad core) s p 1 (if (streamAt d 352).ctx < 64 ∧ blockOk (streamAt d 352).addr 128 = false then 3 else 2) d := by
  refine engineStop_stops (by decide) (by split <;> decide) ?_
  rw [exec_ctxLoad_of_starts h]
  by_cases inside : (streamAt d 352).ctx < 64
  · rw [if_neg (by omega)]
    cases block : blockOk (streamAt d 352).addr 128 with
    | false => rw [if_pos rfl, if_pos ⟨inside, rfl⟩]
    | true =>
      have illegal : ((s.core p).recordFor d).valid = true ∧ ((s.core p).recordFor d).legal = false := by
        simpa [inside, block] using bad
      rw [if_neg (by decide), if_pos illegal, if_neg (by simp)]
  · rw [if_pos (by omega), if_neg fun good => inside good.1]

/-! ## CTX_STORE -/

/-- A started CTX_STORE, which writes the record of a context when it completes (R151). -/
def Started.storing (d : Nat) (x : ScaleCtx) : Started :=
  { Started.aloneFor d with writes := [((streamAt d 352).addr, leBytes 128 x.record)] }

/-- What a CTX_STORE does: its two checks in order, then the record that its completion writes. -/
theorem exec_ctxStore_of_starts (h : Starts s core p 1 9 d) :
    exec (.ctxStore core) s = .next (
      if 64 ≤ (streamAt d 352).ctx then (s.popDesc p 1).engineStop p 1 2 d
      else if blockOk (streamAt d 352).addr 128 = false then (s.popDesc p 1).engineStop p 1 3 d
      else (s.popDesc p 1).addStarted p 1 (Started.storing d ((s.core p).scale (streamAt d 352).ctx))) := by
  rw [exec_ctxStore, execCtxStore, startOp_starts h rfl]
  simp only [State.scale_popDesc, Bool.not_eq_true', Started.storing]

theorem ctxStore_starts (h : Starts s core p 1 9 d) (inside : (streamAt d 352).ctx < 64)
    (block : blockOk (streamAt d 352).addr 128 = true) :
    ∃ t, StartsAlone (.ctxStore core) s t p d (Started.storing d ((s.core p).scale (streamAt d 352).ctx)) ∧
      ∀ j, (t.core p).scale j = (s.core p).scale j := by
  have runs := exec_ctxStore_of_starts h
  rw [if_neg (by omega), if_neg (by simp [block])] at runs
  refine ⟨_, addStarted_startsAlone runs rfl (fun q other => State.core_popDesc_other _ _ other) rfl rfl, fun j => ?_⟩
  rw [State.scale_addStarted, State.scale_popDesc]

theorem ctxStore_stops (h : Starts s core p 1 9 d)
    (bad : ¬((streamAt d 352).ctx < 64 ∧ blockOk (streamAt d 352).addr 128 = true)) :
    StopsEngine (.ctxStore core) s p 1 (if (streamAt d 352).ctx < 64 then 3 else 2) d := by
  refine engineStop_stops (by decide) (by split <;> decide) ?_
  rw [exec_ctxStore_of_starts h]
  by_cases inside : (streamAt d 352).ctx < 64
  · have block : blockOk (streamAt d 352).addr 128 = false := by simpa [inside] using bad
    rw [if_neg (by omega), if_pos block, if_pos inside]
  · rw [if_pos (by omega), if_neg inside]

end

end Sys2Proof.Machine
end

section
open Sys2Proof Sys2Proof.Machine

/-- Settles O20: each of the four passes its checks in order; once it starts, it changes at most one scale context or the rounding step of its
core, and nothing that a start keeps. -/
theorem scaleContextDescriptors : Obligations.ScaleContextDescriptors := by
  unfold Obligations.ScaleContextDescriptors
  intro core p d s
  refine ⟨fun h => ?_, fun h => ⟨fun inside => ?_, ctxRoll_stops h⟩, fun h => ⟨fun ⟨inside, block, legal⟩ => ?_, ctxLoad_stops h⟩,
    fun h => ⟨fun ⟨inside, block⟩ => ?_, ctxStore_stops h⟩⟩
  · obtain ⟨t, ⟨starts, alone⟩, step⟩ := setStep_starts h
    exact ⟨t, starts, step, _, alone⟩
  · obtain ⟨t, ⟨starts, alone⟩, rolled, kept⟩ := ctxRoll_starts h inside
    exact ⟨t, starts, rolled, ⟨_, alone⟩, kept⟩
  · obtain ⟨t, ⟨starts, alone⟩, loaded, kept⟩ := ctxLoad_starts h inside block legal
    exact ⟨t, starts, loaded, ⟨_, alone⟩, kept⟩
  · obtain ⟨t, ⟨starts, alone⟩, kept⟩ := ctxStore_starts h inside block
    exact ⟨t, starts, ⟨_, alone⟩, kept, _, alone.1, rfl⟩

end

section
/-!
PROOFS. The reference tree over present leaves, and the elements that a mask selects, as lists (R164, R210, R215, R216).
-/
namespace Sys2Proof.Machine

/-! ## Places in a list -/

theorem zipIdx_map_range {α : Type} (f : Nat → α) (n : Nat) :
    ((List.range n).map f).zipIdx = (List.range n).map (fun i => (f i, i)) := by
  refine List.ext_getElem (by simp) fun i hi _ => ?_
  simp

/-- The number of selected elements before element `i`. -/
def rankOf (sel : Nat → Bool) (i : Nat) : Nat := ((List.range i).filter sel).length

theorem rankOf_succ (sel : Nat → Bool) (i : Nat) : rankOf sel (i + 1) = rankOf sel i + if sel i then 1 else 0 := by
  rw [rankOf, List.range_succ, List.filter_append, List.length_append, rankOf, List.filter_cons, List.filter_nil]
  cases sel i <;> rfl

/-- Elements from number `a` on, with as many in list 0 before them as are selected before `a`. -/
theorem positions_range' (sel : Nat → Bool) (n a : Nat) (seen : List Nat) (before : seen.count 0 = rankOf sel a) :
    positions seen ((List.range' a n).map (fun i => (if sel i then some 0 else none, i))) =
      ((List.range' a n).filter sel).map (fun i => (i, 0, rankOf sel i)) := by
  induction n generalizing a seen with
  | zero => rfl
  | succ n ih =>
    rw [List.range'_succ, List.map_cons]
    have next := rankOf_succ sel a
    cases chosen : sel a with
    | false =>
      rw [List.filter_cons_of_neg (by simp [chosen]), if_neg (by simp), positions]
      exact ih (a + 1) seen (by simpa [chosen, next] using before)
    | true =>
      rw [List.filter_cons_of_pos chosen, if_pos rfl, positions, before, List.map_cons]
      exact congrArg _ (ih (a + 1) (0 :: seen) (by simp [chosen, next, before]))

/-- The selected elements of one list, each with its rank. -/
theorem positions_range (sel : Nat → Bool) (n : Nat) :
    positions [] ((List.range n).map (fun i => if sel i then some 0 else none)).zipIdx =
      ((List.range n).filter sel).map (fun i => (i, 0, rankOf sel i)) := by
  rw [zipIdx_map_range, List.range_eq_range']
  exact positions_range' sel n 0 [] rfl

/-- The selected ones of `n` elements whose rank is below `len`. -/
def takenOf (sel : Nat → Bool) (n len : Nat) : List Nat := (List.range n).filter (fun i => sel i && decide (rankOf sel i < len))

/-- The positions below the capacity of a list. -/
theorem positions_below (sel : Nat → Bool) (n len : Nat) :
    (positions [] ((List.range n).map (fun i => if sel i then some 0 else none)).zipIdx).filter (fun e => decide (e.2.2 < len)) =
      (takenOf sel n len).map (fun i => (i, 0, rankOf sel i)) := by
  rw [positions_range, List.filter_map, List.filter_filter, takenOf]
  simp only [Function.comp_apply, Bool.and_comm]

/-! ## Runs -/

theorem runsOf_map {α β : Type} (f : α → β) (n : Nat) (l : List α) : runsOf n (l.map f) = (runsOf n l).map (·.map f) := by
  simp [runsOf]

/-- A list that is not empty is one run of its own length. -/
theorem runsOf_length {α : Type} {l : List α} (ne : l ≠ []) : runsOf l.length l = [l] := by
  have pos := List.length_pos_iff.mpr ne
  have one : ceilDiv l.length l.length = 1 := Nat.div_eq_of_lt_le (by omega) (by omega)
  simp [runsOf, one]

theorem length_le_of_mem_runsOf {α : Type} {n : Nat} {l r : List α} (h : r ∈ runsOf n l) : r.length ≤ n := by
  obtain ⟨g, -, rfl⟩ := List.mem_map.mp h
  exact List.length_take_le _ _

theorem ne_nil_of_mem_runsOf {α : Type} {n : Nat} (hn : 0 < n) {l r : List α} (h : r ∈ runsOf n l) : r ≠ [] := by
  obtain ⟨g, hg, rfl⟩ := List.mem_map.mp h
  have inside : n * (g + 1) ≤ l.length + n - 1 := by
    rw [Nat.mul_comm]
    exact (Nat.le_div_iff_mul_le hn).mp (List.mem_range.mp hg)
  rw [Nat.mul_succ] at inside
  exact List.ne_nil_of_length_pos (by rw [List.length_take, List.length_drop]; omega)

/-! ## The tree of a sum -/

section
variable {α : Type} {f : α → α → α} {g : Nat → α} (hom : ∀ a b, f (g a) (g b) = g (a + b))
include hom

/-- A tier over present leaves halves their number and keeps their sum. -/
theorem exists_treeTier_sum : ∀ l : List Nat, ∃ l' : List Nat,
    treeTier f (l.map fun a => some (g a)) = l'.map (fun a => some (g a)) ∧ l'.sum = l.sum ∧ l'.length = (l.length + 1) / 2
  | [] => ⟨[], rfl, rfl, by simp⟩
  | [a] => ⟨[a], rfl, rfl, by simp⟩
  | a :: b :: l => by
    obtain ⟨l', tier, sum, len⟩ := exists_treeTier_sum l
    refine ⟨(a + b) :: l', ?_, ?_, ?_⟩
    · simp only [List.map_cons, treeTier, hom, tier]
    · rw [List.sum_cons, sum, List.sum_cons, List.sum_cons, Nat.add_assoc]
    · simp only [List.length_cons]; omega

/-- The tree over present leaves of a sum is the sum of the leaves. -/
theorem tree_sum (n : Nat) {l : List Nat} (ne : l ≠ []) (len : l.length ≤ 2 ^ n) : tree f n (l.map fun a => some (g a)) = some (g l.sum) := by
  induction n generalizing l with
  | zero =>
    obtain ⟨a, rfl⟩ := List.length_eq_one_iff.mp (Nat.le_antisymm len (List.length_pos_iff.mpr ne))
    rw [List.sum_singleton]
    rfl
  | succ n ih =>
    match l, ne with
    | [a], _ => rw [List.sum_singleton]; rfl
    | a :: b :: l, _ =>
      obtain ⟨l', tier, sum, half⟩ := exists_treeTier_sum hom (a :: b :: l)
      have ne' : l' ≠ [] := List.ne_nil_of_length_pos (by rw [half, List.length_cons]; omega)
      rw [← sum, ← ih ne' (by omega), ← tier]
      rfl

theorem foldl_sum (l : List Nat) (a : Nat) : (l.map g).foldl f (g a) = g (a + l.sum) := by
  induction l generalizing a with
  | nil => simp
  | cons b l ih => rw [List.map_cons, List.foldl_cons, hom, ih, List.sum_cons, Nat.add_assoc]

end

end Sys2Proof.Machine
end

section
/-!
PROOFS. A sum of 32-bit words by the reduction SUM (R209, R210).
-/
namespace Sys2Proof.Machine

/-- A number modulo 2^32 as a lane of the chain. -/
def wordLane (v : Nat) : LaneV := .i (v % 2 ^ 32)

theorem redOp_sum_wordLane (a b : Nat) : redOp 1 (wordLane a) (wordLane b) = wordLane (a + b) :=
  congrArg LaneV.i (Nat.add_mod a b (2 ^ 32)).symm

theorem filterMap_eq_map_of_mem {α β : Type} {f : α → Option β} {g : α → β} {l : List α} (h : ∀ a ∈ l, f a = some (g a)) :
    l.filterMap f = l.map g := by
  induction l with
  | nil => rfl
  | cons a l ih =>
    rw [List.filterMap_cons_some (h a List.mem_cons_self), List.map_cons, ih fun b hb => h b (List.mem_cons_of_mem a hb)]

theorem sum_flatten_nat (ls : List (List Nat)) : ls.flatten.sum = (ls.map List.sum).sum := by
  induction ls with
  | nil => rfl
  | cons l ls ih => rw [List.flatten_cons, List.sum_append_nat, ih, List.map_cons, List.sum_cons]

/-- Every group of a segment that is wholly present has its tree's sum. -/
theorem groups_tree_sum (l : List Nat) :
    (groupsOf (l.map fun a => some (wordLane a))).filterMap (tree (redOp 1) 7) = ((runsOf 64 l).map List.sum).map wordLane := by
  have present : groupsOf (l.map fun a => some (wordLane a)) = (runsOf 64 l).map (·.map fun a => some (wordLane a)) := by
    rw [groupsOf, runsOf_map, List.filter_eq_self]
    intro r hr
    obtain ⟨r', hr', rfl⟩ := List.mem_map.mp hr
    obtain ⟨a, r'', rfl⟩ := List.exists_cons_of_ne_nil (ne_nil_of_mem_runsOf (by decide) hr')
    rfl
  rw [present, List.filterMap_map, List.map_map]
  refine filterMap_eq_map_of_mem fun r hr => ?_
  have small := length_le_of_mem_runsOf hr
  exact tree_sum redOp_sum_wordLane 7 (ne_nil_of_mem_runsOf (by decide) hr) (by omega)

/-- SUM of a segment of words that are all present. -/
theorem foldRed_sum_words {l : List Nat} (ne : l ≠ []) : foldRed 1 (l.map fun a => some (wordLane a)) = some (wordLane l.sum) := by
  have whole : ((runsOf 64 l).map List.sum).sum = l.sum := by
    rw [← sum_flatten_nat, flatten_runsOf (by decide)]
  rw [foldRed, groups_tree_sum]
  cases runs : (runsOf 64 l).map List.sum with
  | nil =>
    have none : runsOf 64 l = [] := List.map_eq_nil_iff.mp runs
    have flat := flatten_runsOf (n := 64) (by decide) l
    rw [none] at flat
    exact absurd flat.symm ne
  | cons a as =>
    rw [runs, List.sum_cons] at whole
    rw [← whole]
    exact congrArg some (foldl_sum redOp_sum_wordLane as a)

/-- SUM of a segment of I lanes that are all present: their sum modulo 2^32. -/
theorem foldRed_sum {l : List Nat} (ne : l ≠ []) (words : ∀ a ∈ l, a < 2 ^ 32) :
    foldRed 1 (l.map fun a => some (.i a)) = some (.i (l.sum % 2 ^ 32)) := by
  have lanes : l.map (fun a => some (LaneV.i a)) = l.map (fun a => some (wordLane a)) :=
    List.map_congr_left fun a ha => by rw [wordLane, Nat.mod_eq_of_lt (words a ha)]
  rw [lanes, foldRed_sum_words ne, wordLane]

end Sys2Proof.Machine
end

section
/-!
PROOFS. Streams of 32-bit elements: what the chain reads of them and what an output writes of its values (R192, R193, R195, R204, R205).
-/
namespace Sys2Proof.Machine

/-! ## Reading -/

/-- Element `i` of a stream of 32-bit elements, as a pattern. -/
def Mem.element (m : Mem) (r : StreamRec) (i : Nat) : Nat := m.num (r.addr + 4 * i) 4

/-- The 32 bits at a whole byte are the number in its four bytes. -/
theorem Mem.bits_word (m : Mem) (a : Nat) : m.bits (8 * a) 32 = m.num a 4 := by
  have b0 := (m.read a).isLt
  have b1 := (m.read (a + 1)).isLt
  have b2 := (m.read (a + 2)).isLt
  have b3 := (m.read (a + 3)).isLt
  simp only [Mem.bits, Mem.num, Mem.readN, leNat, show 8 * a / 8 = a by omega, show 8 * a % 8 = 0 by omega, Nat.add_assoc]
  omega

theorem Mem.element_lt (m : Mem) (r : StreamRec) (i : Nat) : m.element r i < 2 ^ 32 := by
  rw [Mem.element, ← Mem.bits_word]
  exact Nat.mod_lt _ (by decide)

theorem Mem.bits_element (m : Mem) (r : StreamRec) (i : Nat) : m.bits (8 * r.addr + i * 32) 32 = m.element r i := by
  rw [show 8 * r.addr + i * 32 = 8 * (r.addr + 4 * i) by omega, Mem.bits_word, Mem.element]

section
variable (x : FgeD) (c : Core) {r : StreamRec}

theorem FgeD.readElem_int32 (fmt : r.fmt = 8) (i : Nat) : x.readElem c r i = .i (c.sp.element r i) := by
  simp only [FgeD.readElem, fmt, strTy, strBits, Mem.bits_element]
  rfl

theorem FgeD.readElem_fp32 (fmt : r.fmt = 0) (ctx : r.ctx = 0xFF) (i : Nat) : x.readElem c r i = .f (ofFp32 (c.sp.element r i)) := by
  simp only [FgeD.readElem, fmt, ctx, strTy, strBits, Mem.bits_element]
  rfl

variable {x c}

/-- A stream that advances with every element is read at its own place. -/
theorem FgeD.source_input {k : Nat} (input : k ≤ 2) (adv : (x.inp k).adv = 0) (rs : List (Array LaneV)) (t : LaneTy) (i : Nat) :
    x.source c rs t k i = x.readElem c (x.inp k) i := by
  simp only [FgeD.source, if_pos input, FgeD.inIndex, adv]

/-! ## Writing -/

/-- The write of a 32-bit pattern as element `i` of a stream. -/
def StreamRec.write (r : StreamRec) (i v : Nat) : Nat × List Byte := (r.addr + 4 * i, leBytes 4 v)

theorem FgeD.convOut_int32 (q : Num) (r w : Nat) : (x.convOut 8 q r (.i w)).code = w := rfl

theorem FgeD.convOut_fp32 (r : Nat) (y : Num) : (x.convOut 0 (.fin false 1 1) r (.f y)).code = fp32 y := by
  simp [FgeD.convOut, Num.mul_one, outFormat, fp32]

theorem not_blockScaled_of_word {f : Nat} (bits : strBits f = 32) : blockScaled f = false := by
  have five : f ≠ 5 := fun h => by simp [h, strBits] at bits
  have six : f ≠ 6 := fun h => by simp [h, strBits] at bits
  have eleven : f ≠ 11 := fun h => by simp [h, strBits] at bits
  simp [blockScaled, five, six, eleven]

/-- An element-wise output of four bytes each, every element present: one write for each element. -/
theorem FgeD.elemOut_writes {n : Nat} {v : Nat → LaneV} {code : Nat → Nat} (bits : strBits r.fmt = 32) (seed : Nat)
    (conv : ∀ i k, (x.convOut r.fmt (c.quant r.ctx) k (v i)).code = code i) :
    (x.elemOut c seed r (((List.range n).map v).map some)).writes = (List.range n).map (fun i => r.write i (code i)) := by
  have plain := not_blockScaled_of_word bits
  simp [FgeD.elemOut, plain, bits, List.map_map, zipIdx_map_range, List.filterMap_map, Function.comp_def, conv, StreamRec.write,
    Nat.mul_comm 4]

end

end Sys2Proof.Machine
end

section
/-!
PROOFS. The stages of two operands: their types and their values (R196, R198–R200).
-/
namespace Sys2Proof.Machine

theorem opSig_int {op : Nat} (low : 0x20 ≤ op) (high : op ≤ 0x2B) : opSig op = some ([.ty .i, .ty .i], .ty .i) := by
  rw [opSig, if_neg (by omega), if_neg (by omega), if_neg (by omega), if_neg (by omega), if_neg (by omega), if_neg (by omega),
    if_neg (by omega), if_pos ⟨low, high⟩]

theorem opSig_float {op : Nat} (low : 1 ≤ op) (high : op ≤ 7) (two : op ≠ 4) : opSig op = some ([.ty .f, .ty .f], .ty .f) := by
  simp only [opSig, if_neg two, if_pos (And.intro low high)]

theorem stageElem_int {op : Nat} (low : 0x20 ≤ op) (high : op ≤ 0x2B) (cond a b : Nat) (z : LaneV) :
    (stageElem op cond (.i a) (.i b) z).v = .i (iOp op cond a b) := by
  rw [stageElem, if_neg (by omega), if_neg (by omega), if_neg (by omega), if_neg (by omega), if_neg (by omega), if_neg (by omega)]
  rfl

theorem stageElem_float {op : Nat} (high : op ≤ 0x14) (cond : Nat) (a b : Num) (z : LaneV) :
    (stageElem op cond (.f a) (.f b) z).v = .f (fOp op a b z.num) := by
  rw [stageElem, if_pos high]
  rfl

/-- ADD, SUB, MUL, AND, OR and XOR of I lanes as functions of two words (R198). The equation lemmas of iOp are out of the kernel's reach, so the
branch is taken from its definition. -/
theorem iOp_eq_of_word {op : Nat} {f : Nat → Nat → Nat}
    (h : op = 0x20 ∧ f = (fun a b => (a + b) % 2 ^ 32) ∨ op = 0x21 ∧ f = (fun a b => (a + 2 ^ 32 - b) % 2 ^ 32)
      ∨ op = 0x22 ∧ f = (fun a b => a * b % 2 ^ 32) ∨ op = 0x26 ∧ f = (fun a b => a &&& b)
      ∨ op = 0x27 ∧ f = (fun a b => a ||| b) ∨ op = 0x28 ∧ f = (fun a b => a ^^^ b)) :
    (0x20 ≤ op ∧ op ≤ 0x2B) ∧ ∀ cond a b, iOp op cond a b = f a b := by
  rcases h with ⟨rfl, rfl⟩ | ⟨rfl, rfl⟩ | ⟨rfl, rfl⟩ | ⟨rfl, rfl⟩ | ⟨rfl, rfl⟩ | ⟨rfl, rfl⟩ <;>
    exact ⟨by decide, fun _ _ _ => by unfold iOp; simp only⟩

/-- ADD, SUB, MUL and DIV of F lanes are the exact result rounded once (R198, R200). -/
theorem fOp_eq_rounded {op : Nat} {f : Num → Num → Num}
    (h : op = 1 ∧ f = Num.add ∨ op = 2 ∧ f = Num.sub ∨ op = 3 ∧ f = Num.mul ∨ op = 5 ∧ f = Num.div) :
    (1 ≤ op ∧ op ≤ 7 ∧ op ≠ 4) ∧ ∀ a b z, fOp op a b z = rna32 (f a b) := by
  rcases h with ⟨rfl, rfl⟩ | ⟨rfl, rfl⟩ | ⟨rfl, rfl⟩ | ⟨rfl, rfl⟩ <;> exact ⟨by decide, fun _ _ _ => rfl⟩

end Sys2Proof.Machine
end

section
/-!
PROOFS. What STREAM, COMPRESS and EXPAND make visible, for one stage on two inputs and for no stage (R195, R204, R209, R210, R215, R216).
-/
namespace Sys2Proof.Machine

/-- Input 0 and OUT0 in one format without scale contexts, read element by element, and no OUT1. -/
def FgeD.Plain (x : FgeD) (f : Nat) : Prop :=
  (x.inp 0).fmt = f ∧ (x.inp 0).adv = 0 ∧ x.out0.fmt = f ∧ (x.inp 0).ctx = 0xFF ∧ x.out0.ctx = 0xFF ∧ x.src1 = 31

/-- Input 1 in a format without a scale context, read element by element. -/
def FgeD.Second (x : FgeD) (f : Nat) : Prop := (x.inp 1).fmt = f ∧ (x.inp 1).adv = 0 ∧ (x.inp 1).ctx = 0xFF

/-- One stage on inputs 0 and 1, whose result goes to OUT0 element by element without a mask. -/
def FgeD.OneStage (x : FgeD) (w : StageW) : Prop :=
  x.stages = [w] ∧ w.a = 0 ∧ w.b = 1 ∧ x.src0 = 8 ∧ x.red0 = 0 ∧ x.mask = 31

section
variable {x : FgeD} {c : Core} {w : StageW} {t : LaneTy} {v : Nat → LaneV}

/-! ## The chain -/

theorem FgeD.values_input {k : Nat} (input : k ≤ 2) (adv : (x.inp k).adv = 0) (h : Chain8) :
    x.values c h t k = (List.range x.count).map (fun i => x.readElem c (x.inp k) i) :=
  List.map_congr_left fun _ _ => FgeD.source_input input adv _ _ _

/-- The chain of one stage leaves its result for each element, which is what source 8 then names. -/
theorem FgeD.values_stage (one : x.OneStage w) (sig : opSig w.op = some ([.ty t, .ty t], .ty t)) (adv0 : (x.inp 0).adv = 0)
    (adv1 : (x.inp 1).adv = 0)
    (value : ∀ i z, (stageElem w.op w.cond (x.readElem c (x.inp 0) i) (x.readElem c (x.inp 1) i) z).v = v i) (u : LaneTy) :
    x.values c (x.runChain c) u 8 = (List.range x.count).map v := by
  obtain ⟨stages, a, b, -, -, -⟩ := one
  have notPerm : w.op ≠ 0x30 := fun perm => by
    rw [perm] at sig
    simp [opSig] at sig
  have res : (x.runChain c).res = [((List.range x.count).map v).toArray] := by
    simp [FgeD.runChain, stages, FgeD.runStage, notPerm, a, b, FgeD.source_input, adv0, adv1, value]
  refine List.map_congr_left fun i hi => ?_
  simp [FgeD.source, res, List.mem_range.mp hi]

/-! ## STREAM -/

/-- A STREAM whose only output is OUT0 writes that one. -/
theorem FgeD.runStream_writes (src1 : x.src1 = 31) (n seed d : Nat) :
    (x.runStream c n seed d).writes = (x.streamOut c (x.runChain c) seed x.src0 x.red0 x.out0).writes := by
  simp [FgeD.runStream, FgeD.streamOut, src1]

/-- The output of one stage, element by element, in a format of 32 bits. -/
theorem FgeD.runStream_oneStage {f : Nat} {code : Nat → Nat} (one : x.OneStage w) (plain : x.Plain f) (second : x.Second f)
    (bits : strBits f = 32) (sig : opSig w.op = some ([.ty t, .ty t], .ty t))
    (value : ∀ i z, (stageElem w.op w.cond (x.readElem c (x.inp 0) i) (x.readElem c (x.inp 1) i) z).v = v i)
    (conv : ∀ i k, (x.convOut f (.fin false 1 1) k (v i)).code = code i) (n seed d : Nat) :
    (x.runStream c n seed d).writes = (List.range x.count).map (fun i => x.out0.write i (code i)) := by
  obtain ⟨-, adv0, out, -, octx, src1⟩ := plain
  obtain ⟨-, adv1, -⟩ := second
  have values := FgeD.values_stage one sig adv0 adv1 value
  obtain ⟨-, -, -, src0, red0, mask⟩ := one
  have quant : c.quant x.out0.ctx = .fin false 1 1 := by simp [Core.quant, octx, Num.pow2]
  rw [FgeD.runStream_writes src1, FgeD.streamOut, if_neg (by omega), if_pos red0]
  simp only [FgeD.masked, if_pos mask, src0, values]
  exact FgeD.elemOut_writes (by rwa [out]) seed (by rwa [out, quant])

theorem FgeD.runStream_int32 {f : Nat → Nat → Nat} (one : x.OneStage w) (plain : x.Plain 8) (second : x.Second 8) (low : 0x20 ≤ w.op)
    (high : w.op ≤ 0x2B) (op : ∀ a b, iOp w.op w.cond a b = f a b) (n seed d : Nat) :
    (x.runStream c n seed d).writes =
      (List.range x.count).map (fun i => x.out0.write i (f (c.sp.element (x.inp 0) i) (c.sp.element (x.inp 1) i))) := by
  refine FgeD.runStream_oneStage (v := fun i => .i (f (c.sp.element (x.inp 0) i) (c.sp.element (x.inp 1) i))) one plain second rfl
    (opSig_int low high) (fun i z => ?_) (fun i k => FgeD.convOut_int32 _ _ _) n seed d
  rw [FgeD.readElem_int32 x c plain.1, FgeD.readElem_int32 x c second.1, stageElem_int low high, op]

theorem FgeD.runStream_fp32 {f : Num → Num → Num} (one : x.OneStage w) (plain : x.Plain 0) (second : x.Second 0) (low : 1 ≤ w.op)
    (high : w.op ≤ 7) (two : w.op ≠ 4) (op : ∀ p q z, fOp w.op p q z = rna32 (f p q)) (n seed d : Nat) :
    (x.runStream c n seed d).writes = (List.range x.count).map (fun i =>
      x.out0.write i (fp32 (rna32 (f (ofFp32 (c.sp.element (x.inp 0) i)) (ofFp32 (c.sp.element (x.inp 1) i)))))) := by
  refine FgeD.runStream_oneStage
    (v := fun i => .f (rna32 (f (ofFp32 (c.sp.element (x.inp 0) i)) (ofFp32 (c.sp.element (x.inp 1) i))))) one plain second rfl
    (opSig_float low high two) (fun i z => ?_) (fun i k => FgeD.convOut_fp32 _ _) n seed d
  obtain ⟨fmt0, -, -, ctx0, -, -⟩ := plain
  obtain ⟨fmt1, -, ctx1⟩ := second
  rw [FgeD.readElem_fp32 x c fmt0 ctx0, FgeD.readElem_fp32 x c fmt1 ctx1, stageElem_float (by omega), op]

/-- A reduction of words that are all present and make one segment: its one write. -/
theorem FgeD.redOut_sum {r : StreamRec} {ws : List Nat} (len : ws.length = x.segLen) (ne : ws ≠ []) (words : ∀ a ∈ ws, a < 2 ^ 32)
    (fmt : r.fmt = 8) : (x.redOut 1 t r (ws.map fun a => some (.i a))).writes = [r.write 0 (ws.sum % 2 ^ 32)] := by
  have run := runsOf_length (l := ws.map fun a => some (LaneV.i a)) (by simpa using ne)
  rw [List.length_map, len] at run
  simp [FgeD.redOut, run, reduceSeg, foldRed_sum ne words, fmt, strBits, laneCode, pairedKind, StreamRec.write]

theorem FgeD.runStream_sum (plain : x.Plain 8) (nonempty : 1 ≤ x.count) (src0 : x.src0 = 0) (red0 : x.red0 = 1) (mask : x.mask = 31)
    (whole : x.rowLen = 0) (n seed d : Nat) :
    (x.runStream c n seed d).writes = [x.out0.write 0 (((List.range x.count).map (c.sp.element (x.inp 0))).sum % 2 ^ 32)] := by
  obtain ⟨fmt, adv, out, -, -, src1⟩ := plain
  have segment : x.segLen = x.count := if_neg fun h => h.2 whole
  have present : (x.masked c (x.runChain c) ((List.range x.count).map fun i => x.readElem c (x.inp 0) i)) =
      ((List.range x.count).map (c.sp.element (x.inp 0))).map fun a => some (.i a) := by
    simp [FgeD.masked, mask, FgeD.readElem_int32 x c fmt]
  rw [FgeD.runStream_writes src1, FgeD.streamOut, if_neg (by omega), if_neg (by omega)]
  simp only [src0, red0, FgeD.values_input (Nat.zero_le 2) adv, present]
  refine FgeD.redOut_sum (by simp [segment]) (by simpa using Nat.ne_of_gt nonempty) (fun a ha => ?_) out
  obtain ⟨i, -, rfl⟩ := List.mem_map.mp ha
  exact Mem.element_lt _ _ _

/-! ## COMPRESS and EXPAND -/

/-- Whether the word of input 1 selects element `i`. -/
def FgeD.picks (x : FgeD) (m : Mem) (i : Nat) : Bool := decide (m.element (x.inp 1) i ≠ 0)

section
variable (second : x.Second 8) (mask : x.mask = 1) (keys : x.keys = 0)
include second mask keys

/-- The list of each element under a mask of words, without keys. -/
theorem FgeD.selected_words (h : Chain8) :
    x.selected c h = (List.range x.count).map (fun i => if x.picks c.sp i then some 0 else none) := by
  obtain ⟨fmt, adv, -⟩ := second
  simp only [FgeD.selected, mask, keys, FgeD.values_input (Nat.le_succ 1) adv, FgeD.readElem_int32 x c fmt, List.map_map]
  exact List.map_congr_left fun i _ => by
    simp only [Function.comp_apply, if_true, FgeD.picks, decide_eq_true_eq]
    rfl

/-- The list of a COMPRESS: each selected element at its rank, as far as ROW_LEN goes, then the number selected (R215). -/
theorem FgeD.runCompress_int32 (fmt : (x.inp 0).fmt = 8) (adv : (x.inp 0).adv = 0) (out : x.out0.fmt = 8) (src0 : x.src0 = 0)
    (n seed d : Nat) : (x.runCompress c n seed d).writes =
      (takenOf (x.picks c.sp) x.count x.rowLen).map (fun i => x.out0.write (rankOf (x.picks c.sp) i) (c.sp.element (x.inp 0) i)) ++
        [(x.out1.addr, leBytes 4 (rankOf (x.picks c.sp) x.count))] := by
  have number : ((x.selected c (x.runChain c)).filter (· == some 0)).length = rankOf (x.picks c.sp) x.count := by
    rw [FgeD.selected_words second mask keys, List.filter_map, List.length_map, rankOf]
    exact congrArg _ (List.filter_congr fun i _ => by cases hi : x.picks c.sp i <;> simp [hi])
  have elems : ∀ i ∈ takenOf (x.picks c.sp) x.count x.rowLen, i < x.count := fun i hi =>
    List.mem_range.mp (List.mem_filter.mp hi).1
  simp only [FgeD.runCompress, keys, out, src0, FgeD.values_input (Nat.zero_le 2) adv, FgeD.readElem_int32 x c fmt]
  congr 1
  · rw [if_neg (by decide), FgeD.selected_words second mask keys, positions_below, List.map_map, List.map_map]
    refine List.map_congr_left fun i hi => ?_
    simp [elems i hi, FgeD.convOut_int32, StreamRec.write, strBits, Nat.mul_comm 4]
  · simp [number, List.range_succ]

/-- An EXPAND puts the list back: each selected element gets the one at its rank (R216). -/
theorem FgeD.runExpand_int32 (fmt : (x.inp 0).fmt = 8) (out : x.out0.fmt = 8) (n seed d : Nat) : (x.runExpand c n seed d).writes =
    (takenOf (x.picks c.sp) x.count x.rowLen).map (fun i => x.out0.write i (c.sp.element (x.inp 0) (rankOf (x.picks c.sp) i))) := by
  simp only [FgeD.runExpand, FgeD.selected_words second mask keys, positions_below, List.map_map, out, FgeD.readElem_int32 x c fmt]
  exact List.map_congr_left fun i _ => by simp [FgeD.convOut_int32, StreamRec.write, strBits, Nat.mul_comm 4]

end

end

end Sys2Proof.Machine
end

section
/-!
PROOFS. The Filigree engine takes a STREAM, COMPRESS or EXPAND from its queue: started, or refused under R219 (R189, R219, R221).
-/
namespace Sys2Proof.Machine

/-- Whether a descriptor is legal does not hang on the queue of its engine. -/
theorem FgeD.legal_popDesc (x : FgeD) (s : State) (p : Nat) : x.legal ((s.popDesc p 1).core p) = x.legal (s.core p) := by
  rw [State.core_popDesc]
  rfl

/-- Command `c` starts operation `op` of the Filigree engine, and `run` is what a descriptor then makes visible. -/
structure FgeCommand (core : CoreId) (op : Nat) (c : Instr) (run : FgeD → Core → Nat → Nat → Nat → Started) : Prop where
  assigned : opAssigned 1 op = true
  arm : ∀ s, exec c s = startOp core s 1 op (fgeRun run)
  desc : ∀ x k n seed d, (run x k n seed d).desc = d

theorem fgeStream_command (core : CoreId) : FgeCommand core 1 (.fgeStream core) FgeD.runStream :=
  ⟨rfl, exec_fgeStream core, fun _ _ _ _ _ => rfl⟩

theorem fgeCompress_command (core : CoreId) : FgeCommand core 2 (.fgeCompress core) FgeD.runCompress :=
  ⟨rfl, exec_fgeCompress core, fun _ _ _ _ _ => rfl⟩

theorem fgeExpand_command (core : CoreId) : FgeCommand core 3 (.fgeExpand core) FgeD.runExpand :=
  ⟨rfl, exec_fgeExpand core, fun _ _ _ _ _ => rfl⟩

section
variable {core : CoreId} {p op d : Nat} {s : State} {c : Instr} {run : FgeD → Core → Nat → Nat → Nat → Started}
  (command : FgeCommand core op c run) (h : Starts s core p 1 op d)
include command h

/-- What starts is the descriptor with the writes that `run` gives it. -/
theorem FgeCommand.runs (legal : (FgeD.of d).legal (s.core p) = true) (ranges : (FgeD.of d).rangesOk = true) :
    ∃ y, exec c s = .next ((s.popDesc p 1).tick.addStarted p 1 y) ∧ y.desc = d ∧
      ∃ seed, y.writes = (run (FgeD.of d) ((s.popDesc p 1).core p) (physCluster p) seed d).writes := by
  rw [command.arm, startOp_starts h command.assigned]
  simp only [fgeRun, FgeD.legal_popDesc, legal, ranges]
  exact ⟨_, rfl, command.desc _ _ _ _ _, _, rfl⟩

theorem FgeCommand.starts (legal : (FgeD.of d).legal (s.core p) = true) (ranges : (FgeD.of d).rangesOk = true) :
    ∃ t, StartsOn c s t p 1 d := by
  obtain ⟨y, runs, desc, -⟩ := command.runs h legal ranges
  refine ⟨_, addStarted_starts (by decide) runs desc ?_ ?_ ?_ ?_ ?_ ?_ fun q other => State.core_popDesc_other _ _ other⟩ <;>
    rw [State.core_tick, State.core_popDesc] <;> simp [Core.engine_setEngine]

/-- What a completion will write, once what `run` writes is known. -/
theorem FgeCommand.writes (legal : (FgeD.of d).legal (s.core p) = true) (ranges : (FgeD.of d).rangesOk = true)
    {ws : List (Nat × List Byte)}
    (written : ∀ seed, (run (FgeD.of d) ((s.popDesc p 1).core p) (physCluster p) seed d).writes = ws) :
    ∃ t y, exec c s = .next t ∧ (t.core p).fge.started = (s.core p).fge.started ++ [y] ∧ y.writes = ws := by
  obtain ⟨y, runs, -, seed, made⟩ := command.runs h legal ranges
  refine ⟨_, y, runs, ?_, made.trans (written seed)⟩
  rw [State.addStarted, State.core_updCore_self, State.core_tick, State.core_popDesc]
  simp [Core.setEngine, Core.engine]

theorem FgeCommand.stops_illegal (bad : (FgeD.of d).legal (s.core p) = false) : StopsEngine c s p 1 2 d := by
  refine engineStop_stops (by decide) (by decide) ?_
  rw [command.arm, startOp_starts h command.assigned]
  simp [fgeRun, FgeD.legal_popDesc, bad]

theorem FgeCommand.stops_outOfRange (legal : (FgeD.of d).legal (s.core p) = true) (bad : (FgeD.of d).rangesOk = false) :
    StopsEngine c s p 1 3 d := by
  refine engineStop_stops (by decide) (by decide) ?_
  rw [command.arm, startOp_starts h command.assigned]
  simp [fgeRun, FgeD.legal_popDesc, legal, bad]

end

theorem FgeD.one_le_count {x : FgeD} {c : Core} (legal : x.legal c = true) : 1 ≤ x.count := by
  refine Nat.pos_of_ne_zero fun none => ?_
  simp [FgeD.legal, none] at legal

end Sys2Proof.Machine
end

section
open Sys2Proof Sys2Proof.Machine

/-- Settles O19: each of the three passes its two checks in order and then starts; what it writes comes from the chain, whose one stage is computed
element by element, from the tree sums of its words, or from the ranks of the selected elements. -/
theorem filigreeDescriptorsStart : Obligations.FiligreeDescriptorsStart := by
  unfold Obligations.FiligreeDescriptorsStart
  intro core p d s
  have stream := fgeStream_command core
  have compress := fgeCompress_command core
  have expand := fgeExpand_command core
  have sp := s.sp_popDesc p 1
  refine ⟨fun h => ?_, fun h => ?_, fun h => ?_, fun w one plain second f op h good => ?_, fun w one plain second _ f op h good => ?_,
    fun _ plain src0 red0 mask whole h good => ?_, fun _ fmt adv out second mask keys => ⟨fun src0 h good => ?_, fun h good => ?_⟩⟩
  · exact ⟨fun ⟨legal, ranges⟩ => stream.starts h legal ranges, stream.stops_illegal h, stream.stops_outOfRange h⟩
  · exact ⟨fun ⟨legal, ranges⟩ => compress.starts h legal ranges, compress.stops_illegal h, compress.stops_outOfRange h⟩
  · exact ⟨fun ⟨legal, ranges⟩ => expand.starts h legal ranges, expand.stops_illegal h, expand.stops_outOfRange h⟩
  · obtain ⟨⟨low, high⟩, value⟩ := iOp_eq_of_word op
    exact stream.writes h good.1 good.2 fun seed => sp ▸ FgeD.runStream_int32 one plain second low high (value _) _ seed d
  · obtain ⟨⟨low, high, two⟩, value⟩ := fOp_eq_rounded op
    exact stream.writes h good.1 good.2 fun seed => sp ▸ FgeD.runStream_fp32 one plain second low high two value _ seed d
  · exact stream.writes h good.1 good.2 fun seed =>
      sp ▸ FgeD.runStream_sum plain (FgeD.one_le_count good.1) src0 red0 mask whole _ seed d
  · exact compress.writes h good.1 good.2 fun seed => sp ▸ FgeD.runCompress_int32 second mask keys fmt adv out src0 _ seed d
  · exact expand.writes h good.1 good.2 fun seed => sp ▸ FgeD.runExpand_int32 second mask keys fmt out _ seed d

end
